-- ==== Sys2Proof/Word.lean ====
section
/-! DEFINITION. The word types of the SX-240 and their plainest arithmetic.

Memory and window words are 32 bits, fibre and flash symbols carry bytes (00, Conventions). A symbol that is
neither a valid data symbol nor a valid control symbol is a data byte of unknown value (R1): `none`. -/

namespace Sys2Proof

abbrev Byte := BitVec 8
abbrev Word := BitVec 32

/-- One received symbol of a frame: its byte, or `none` for a data byte of unknown value (R1). -/
abbrev Sym := Option Byte

/-- A frame block, or the part of it that arrived before its frame was cut short (R1). -/
abbrev Block := List Sym

/-- Replace entry `i` of a fixed-size table. -/
def setAt {α : Type} {n : Nat} (v : Vector α n) (i : Fin n) (x : α) : Vector α n := v.set i.val x i.isLt

/-- Change entry `i` of a fixed-size table. -/
def modAt {α : Type} {n : Nat} (v : Vector α n) (i : Fin n) (f : α → α) : Vector α n := setAt v i (f v[i])

end Sys2Proof
end

