-- ==== Sys2Proof/Syntax.lean ====
section
/-! DEFINITION. The commands of the SX-240: one constructor for each row of spec/opcode_table.json.

The table gives the rows no operands and no bits. The operands here are what the event brings from outside: the
symbols received, the levels of a line, the words of a bus cycle, and which port, axis, channel, stream or screen it
concerns. Every command carries `dt`, the ticks of 8 ns that have passed since the previous event (log 1).
A value that comes from the part's own state (a timer's instant, a pending command's operands) is no operand. -/

namespace Sys2Proof

/-- The two fibre ports (R1). -/
inductive Port where
  | upstream
  | downstream
  deriving DecidableEq, Repr

/-- A return block: it arrived on the downstream receiver, or it is the node's own turned-around copy (R13). -/
inductive ReturnSource where
  | arrived (b : Block)
  | copy
  deriving DecidableEq, Repr

/-- A slot of a return passage with the passage's tag block, or the same of the turned-around copy (R119). -/
inductive SlotSource where
  | arrived (tags slot : Block)
  | copy
  deriving DecidableEq, Repr

/-- The tag block and the slots of a return passage as they arrived, or those of the turned-around copy (R3, R13). -/
inductive AreaSource where
  | arrived (tags : Block) (slots : List Block)
  | copy
  deriving DecidableEq, Repr

/-- One beat of a P-port cycle: byte enables and, for a write, data (2.2). -/
structure Beat where
  be : BitVec 4
  data : Word
  deriving DecidableEq, Repr

/-- Where a command code that no rule defines is taken (R36): at an epoch from the SHAFT or an AXIS command word,
or at the completion of the write of a TRIP command word or of the screen refresh command word. -/
inductive CommandSite where
  | shaft
  | axis (n : Fin 8)
  | trip (which : Fin 3) (b : Beat)
  | refresh (b : Beat)
  deriving DecidableEq, Repr

/-- The commands, in the order of spec/opcode_table.json. Each constructor's comment names its row and rule. -/
inductive Instr where
  /-- PIN_RESET (R187) -/
  | pinReset (dt : Nat)
  /-- FLASH_HEADER_READ (R188) -/
  | flashHeaderRead (dt : Nat) (bytes : List Byte)
  /-- FLASH_BODY_READ (R189) -/
  | flashBodyRead (dt : Nat) (bytes : List Byte)
  /-- LIGHT_DETECTED (R2) -/
  | lightDetected (dt : Nat) (p : Port)
  /-- LOCK_INTERVAL_EXPIRY (R2) -/
  | lockIntervalExpiry (dt : Nat) (p : Port)
  /-- CLOCK_OUT_OF_BAND (R2) -/
  | clockOutOfBand (dt : Nat) (p : Port)
  /-- LIGHT_LOST (R2) -/
  | lightLost (dt : Nat) (p : Port)
  /-- START_SYMBOL (R1) -/
  | startSymbol (dt : Nat) (p : Port)
  /-- OUT_RUN_HEADER (R8) -/
  | outRunHeader (dt : Nat) (b : Block)
  /-- ENTRY_INTO_JOINED (R9) -/
  | entryIntoJoined (dt : Nat) (b : Block)
  /-- OUT_RUN_TRIP_BLOCK (R98) -/
  | outRunTripBlock (dt : Nat) (b : Block)
  /-- INSERTION_DECISION (R113): the tag block, and the slots that pass behind it -/
  | insertionDecision (dt : Nat) (tags : Block) (slots : List Block)
  /-- CELL_DECISION (R129): the next cell in passage order -/
  | cellDecision (dt : Nat) (b : Block)
  /-- CLAIM_PASSAGE_END (R133) -/
  | claimPassageEnd (dt : Nat)
  /-- RETURN_HEADER (R19) -/
  | returnHeader (dt : Nat) (src : ReturnSource)
  /-- RETURN_TRIP_BLOCK (R99) -/
  | returnTripBlock (dt : Nat) (src : ReturnSource)
  /-- PASSAGE_TO_RUN (R16): the return trip block that brings the run-up count to 16 -/
  | passageToRun (dt : Nat) (b : Block)
  /-- SLOT_RECEPTION (R120): slot `n` of the return passage -/
  | slotReception (dt : Nat) (n : Fin 128) (src : SlotSource)
  /-- SLOT_AREA_END (R124): of the passage from downstream, or of the turned-around copy -/
  | slotAreaEnd (dt : Nat) (src : AreaSource)
  /-- CELL_DELIVERY (R134): the next cell of the return passage -/
  | cellDelivery (dt : Nat) (src : ReturnSource)
  /-- ORIGINATION (R15) -/
  | origination (dt : Nat)
  /-- MASTER_RING_LOSS (R17) -/
  | masterRingLoss (dt : Nat)
  /-- NODE_MISSING (R18): the return trip block that brings an absence count to the limit -/
  | nodeMissing (dt : Nat) (b : Block)
  /-- APPLY_INSTANT (R21) -/
  | applyInstant (dt : Nat)
  /-- LOCAL_CYCLE_TIMER_EXPIRY (R23) -/
  | localCycleTimerExpiry (dt : Nat)
  /-- RING_LOSS (R10) -/
  | ringLoss (dt : Nat)
  /-- END_NODE_CONDITION (R13) -/
  | endNodeCondition (dt : Nat)
  /-- RAMP_END (R53) -/
  | rampEnd (dt : Nat)
  /-- STOP_RAMP_END (R50) -/
  | stopRampEnd (dt : Nat)
  /-- LOCAL_STOP_END (R60) -/
  | localStopEnd (dt : Nat)
  /-- SOURCE_LOST (R72) -/
  | sourceLost (dt : Nat) (n : Fin 8)
  /-- STOP_TIMEOUT (R102) -/
  | stopTimeout (dt : Nat)
  /-- STREAM_TIMEOUT (R165) -/
  | streamTimeout (dt : Nat) (n : Fin 4)
  /-- SWEEP (R174) -/
  | sweep (dt : Nat) (n : Fin 2)
  /-- SLOT_STALE (R121): entry `k` of SLOT-IN window `w` -/
  | slotStale (dt : Nat) (w : Fin 8) (k : Fin 8)
  /-- STARVATION (R43) -/
  | starvation (dt : Nat)
  /-- TRIP_INPUT_ACTIVE (R89): line TI`n` goes to `level` (true is high) -/
  | tripInputActive (dt : Nat) (n : Fin 8) (level : Bool)
  /-- FILTER_EXPIRY (R89) -/
  | filterExpiry (dt : Nat) (n : Fin 8)
  /-- TRIP_INPUT_INACTIVE (R89): line TI`n` goes to `level` -/
  | tripInputInactive (dt : Nat) (n : Fin 8) (level : Bool)
  /-- EXPOSURE_EDGE (R147): line EXP`n` goes to `level` -/
  | exposureEdge (dt : Nat) (n : Fin 4) (level : Bool)
  /-- FIRING (R145) -/
  | firing (dt : Nat) (n : Fin 4)
  /-- PULSE_TIMER_EXPIRY (R145) -/
  | pulseTimerExpiry (dt : Nat) (n : Fin 4)
  /-- KEY_ROW_READING (R180): the columns that read active, KC`i` in bit `i` -/
  | keyRowReading (dt : Nat) (cols : BitVec 8)
  /-- P_PORT_CYCLE (R28): direction, first word address, beats -/
  | pPortCycle (dt : Nat) (write : Bool) (addr : BitVec 24) (beats : List Beat)
  /-- M_PORT_BURST_COMPLETION (R42) -/
  | mPortBurstCompletion (dt : Nat)
  /-- SET_TARGET (R51) -/
  | setTarget (dt : Nat)
  /-- HOLD (R52) -/
  | hold (dt : Nat)
  /-- ENGAGE (R80) -/
  | engage (dt : Nat) (n : Fin 8)
  /-- DISENGAGE (R81) -/
  | disengage (dt : Nat) (n : Fin 8)
  /-- SET_GEAR (R82) -/
  | setGear (dt : Nat) (n : Fin 8)
  /-- SET_OFFSET (R83) -/
  | setOffset (dt : Nat) (n : Fin 8)
  /-- SET_SOURCE (R84) -/
  | setSource (dt : Nat) (n : Fin 8)
  /-- UNDEFINED_COMMAND_CODE (R36) -/
  | undefinedCommandCode (dt : Nat) (site : CommandSite)
  /-- TRIP_REQUEST (R92): the write of the trip request word -/
  | tripRequest (dt : Nat) (b : Beat)
  /-- RESET_REQUEST (R104): the write of the reset request word -/
  | resetRequest (dt : Nat) (b : Beat)
  /-- ENABLE_REQUEST (R101): the write of the enable request word -/
  | enableRequest (dt : Nat) (b : Beat)
  /-- NOTICE_MASK (R193): the write of the notice mask word -/
  | noticeMask (dt : Nat) (b : Beat)
  /-- NOTICE_CLEAR (R195): the write of the notice clear word -/
  | noticeClear (dt : Nat) (b : Beat)
  /-- SCREEN_REFRESH_COMMAND (R176): the write of the screen refresh command word -/
  | screenRefreshCommand (dt : Nat) (b : Beat)
  /-- COMMIT (R111): a write of word 3 of a slot image -/
  | commit (dt : Nat) (addr : BitVec 24) (b : Beat)
  /-- WITHDRAW (R112): a write of a withdraw word -/
  | withdraw (dt : Nat) (addr : BitVec 24) (b : Beat)
  /-- RELEASE (R167): a write of a release word -/
  | release (dt : Nat) (addr : BitVec 24) (b : Beat)
  /-- CAM_OUT_BEAT (R151): a write beat into a CAM-OUT window -/
  | camOutBeat (dt : Nat) (addr : BitVec 24) (b : Beat)
  /-- SCREEN_OUT_BEAT (R171): a write beat into a SCREEN-OUT window -/
  | screenOutBeat (dt : Nat) (addr : BitVec 24) (b : Beat)
  /-- BLOCKED_WRITE (R33): a write beat to a landed word -/
  | blockedWrite (dt : Nat) (addr : BitVec 24) (b : Beat)
  /-- REGISTER_WRITE (R35): a write beat to a parameter, command, staging or substituted word -/
  | registerWrite (dt : Nat) (addr : BitVec 24) (b : Beat)
  deriving DecidableEq, Repr

end Sys2Proof
end

