-- ==== Sys2Proof/Config.lean ====
section
/-! DEFINITION. What the manual fixes as numbers, what the configuration flash fixes for one node (R202), and the free
values: what the manual leaves open. A free value is an opaque constant with no body, so nothing proved of the model
can rest on it. -/

namespace Sys2Proof

/-! ### Named values -/

/-- Trip classes with CLEAR (NONE) as the absence of a class; coded as R199 states. -/
inductive TripClass where
  | clear
  | a
  | b
  | c
  | d
  deriving DecidableEq, Repr, Inhabited

/-- The six states of the shaft generator and of the shadow shaft (3.3). -/
inductive ShaftState where
  | standstill
  | ramping
  | running
  | held
  | stopping
  | coasted
  deriving DecidableEq, Repr, Inhabited

/-- The eleven window kinds (R27). -/
inductive WindowKind where
  | node
  | shaft
  | axis
  | trip
  | slotOut
  | slotIn
  | camOut
  | imgIn
  | screenOut
  | screenIn
  | keys
  deriving DecidableEq, Repr, Inhabited

/-- What an axis follows (4.2). -/
inductive AxisSource where
  | shaft
  | slot (s : Fin 128)
  deriving DecidableEq, Repr, Inhabited

/-- What a camera channel's triggers refer to (R137). -/
inductive CamReference where
  | shaft
  | axis (n : Fin 8)
  deriving DecidableEq, Repr, Inhabited

/-! ### One node's configured values (R202) -/

/-- A screen's parameters (R170, R177): position of the other side, screen number, pixel geometry, stride in bytes,
sweep period in epochs (0 for an incoming screen). -/
structure ScreenParams where
  pos : Nat
  number : Nat
  depth : Nat
  width : Nat
  height : Nat
  stride : Nat
  period : Nat
  deriving DecidableEq, Repr, Inhabited

/-- A receive stream's parameters (R159). -/
structure StreamParams where
  pos : Nat
  stream : Nat
  count : Nat
  size : Nat
  timeout : Nat
  deriving DecidableEq, Repr, Inhabited

/-- The parameters of a window, by its kind (R202). -/
inductive WindowParams where
  | plain
  | slotOut (first count : Nat)
  | slotIn (entries : List (Fin 128)) (staleLimit : Nat) (tripOnStale : Bool)
  | camOut (ch : Fin 4)
  | imgIn (p : StreamParams)
  | screen (p : ScreenParams)
  deriving DecidableEq, Repr, Inhabited

/-- One window of the table (R27): byte base and byte length, kind, its number among the windows of its kind in table
order (log 20), parameters. -/
structure Window where
  base : Nat
  len : Nat
  kind : WindowKind
  idx : Nat
  params : WindowParams
  deriving DecidableEq, Repr, Inhabited

/-- An axis record of the node record (R66, R202). -/
structure AxisCfg where
  configured : Bool
  source : AxisSource
  n : Nat
  d : Nat
  lslew : Nat
  limit : Nat
  deriving DecidableEq, Repr, Inhabited

/-- A camera channel's record (R137), substitutes already taken. -/
structure CamCfg where
  ref : CamReference
  list : List Word
  pacing : Nat
  width : Nat
  minSpeed : Nat
  activeLow : Bool
  dest : Nat
  stream : Nat
  size : Nat
  deriving DecidableEq, Repr, Inhabited

/-- The key record (R179). -/
structure KeyCfg where
  dest : Nat
  stops : List (Fin 64)
  deriving DecidableEq, Repr, Inhabited

/-- A node's configured values, with the substitutes of the rules taken. Before configuration completes no rule
reads them; they are then `NodeCfg.unconfigured`. -/
structure NodeCfg where
  master : Bool
  expected : Nat
  lossLimit : Nat
  reserve : Nat
  allowance : Nat
  dApply : Nat
  starveUs : Nat
  required : Word
  vmax : Nat
  vref : Nat
  tqs : Nat
  tcs : Nat
  stopTimeout : Nat
  classes : Vector TripClass 15
  tiLow : Vector Bool 8
  tiFilter : Vector Nat 8
  axes : Vector AxisCfg 8
  windows : List Window
  publish : BitVec 128
  cams : Vector (Option CamCfg) 4
  keys : Option KeyCfg
  deriving DecidableEq, Repr

/-- An axis that is not configured: all fields 0 (R66). -/
def AxisCfg.off : AxisCfg := { configured := false, source := .shaft, n := 0, d := 0, lslew := 0, limit := 0 }

/-- Nothing configured: the values after pin reset (R65, R88, R136, R137). -/
def NodeCfg.unconfigured : NodeCfg :=
  { master := false, expected := 0, lossLimit := 0, reserve := 0, allowance := 0, dApply := 0, starveUs := 0,
    required := 0, vmax := 0, vref := 0, tqs := 0, tcs := 0, stopTimeout := 0,
    classes := Vector.replicate 15 .clear, tiLow := Vector.replicate 8 false, tiFilter := Vector.replicate 8 0,
    axes := Vector.replicate 8 AxisCfg.off, windows := [], publish := 0, cams := Vector.replicate 4 Option.none,
    keys := Option.none }

/-! ### Numbers of the manual -/

/-- The lock interval of a receiver, in ticks (R2). -/
def Config.lockTicks : Nat := 125000
/-- One cycle, in ticks (R15, R22). -/
def Config.cycleTicks : Nat := 31250
/-- The residence of a frame in a node, in ticks (R3). -/
def Config.residence : Nat := 96
/-- The fixed apply margin, in ticks (R20). -/
def Config.applyMargin : Nat := 250
/-- The local cycle timer's delay after the expected instant, in ticks (R22). -/
def Config.timerDelay : Nat := 625
/-- One millisecond of a key row, in ticks (R179). -/
def Config.rowTicks : Nat := 125000
/-- One microsecond in ticks (R1, R43). -/
def Config.ticksPerUs : Nat := 125
/-- Round-trip measurements held (R19). -/
def Config.measCount : Nat := 16
/-- Places of the landing queue for NORMAL entries (R39). -/
def Config.normalPlaces : Nat := 20
/-- Places of the transmit queue (R156). -/
def Config.txPlaces : Nat := 64
/-- Places of the key queue (R183). -/
def Config.keyPlaces : Nat := 16

/-! ### Free values -/

/-- Which of two events of the part that fall together is taken first, where the manual says that either may be
(for example R91, R95, and the sequence of 3.4). Drawn with the counter `State.free` (log 6). -/
opaque Config.takenFirst : Nat → Bool

/-- The shaft state a node takes from a good header whose state code is none of the six of R200 (log 10). -/
opaque Config.shaftStateOfCode : Byte → ShaftState

/-- The byte at an index of a head's payload beyond the payload length, which R135 does not hand over, for the bytes that
were (log 33). -/
opaque Config.absentHeadByte : List Byte → Nat → Byte

/-- The result value of a reset request at a member, which originates no generation, by the instant of its taking
(log 23). -/
opaque Config.memberResetValue : Nat → Byte

/-- The stop timer's count at the epoch after 65,535, the top of its field, by the instant of the epoch (log 21). -/
opaque Config.stopCountPastTop : Nat → BitVec 16

/-- Bits 12 to 8 of ring status word 0 while the position is unassigned or beyond range: R25 and R201 do not say what they
hold (log 46). -/
opaque Config.unheldPosition : Option Nat → BitVec 5

/-- The result value of a reset request whose code is undefined, by the instant of its taking: R36 gives the answer
REFUSED-RANGE, R104 no value for it; the layout assigns it the bits of a generation (R201; log 48). -/
opaque Config.undefinedResetValue : Nat → Byte

/-- The result value of an enable request whose code is undefined, by the instant of its taking: R36 gives the answer
REFUSED-RANGE, R101 no value for it; the layout assigns it bits 3 to 0 (R201; log 48). -/
opaque Config.undefinedEnableValue : Nat → BitVec 4

end Sys2Proof
end

