-- ==== Sys2Proof/Machine/State.lean ====
section
/-! DEFINITION. The whole state of one SX-240 node, block by block (00, State owned by each block), its value right
after pin reset, and the reasons a command can be refused. INVENTORY.md lists every field with its rule. -/

namespace Sys2Proof.Machine

/-! ### Common data -/

/-- A stamp: cycle number and phase of synchronized time (R24). -/
structure Stamp where
  cycle : Word
  phase : Byte
  deriving DecidableEq, Repr, Inhabited

/-! ### FLU -/

/-- Link state of a receiver (R2). -/
inductive LinkState where
  | dark
  | locking
  | locked
  deriving DecidableEq, Repr

/-- A receiver: its link state and the instant its lock interval started (R2). -/
structure Link where
  state : LinkState
  since : Nat
  deriving DecidableEq, Repr

/-- Ring state of a configured node (1.4). An unconfigured node is reported as REPEATER (R25). -/
inductive RingState where
  | seeking
  | following
  | joined
  deriving DecidableEq, Repr

/-- The master's state (R16). -/
inductive MasterState where
  | setup
  | run
  deriving DecidableEq, Repr

/-- The shaft values a header carries (R56). The speed field is 32 bits wide on the fibre (R200). -/
structure HeaderShaft where
  angle : Word
  rev : BitVec 16
  speed : Nat
  state : ShaftState
  deriving DecidableEq, Repr

/-- An entry of the pending list (R20). `mark` is its resync mark: the mark was armed when the entry
was placed. Its epoch goes by the mark armed then (R21; log 18). -/
structure PendingEntry where
  cycle : Word
  instant : Nat
  shaft : HeaderShaft
  late : Bool
  mark : Bool
  deriving DecidableEq, Repr

/-- Which block of a passage comes next (1.3). `slots` is used on return passages, where slots are received one by
one; on the out-run the slot area passes with the tag block. -/
inductive Stage where
  | idle
  | header
  | trip
  | tags
  | slots
  | cells
  deriving DecidableEq, Repr

/-- A frame in passage: the block awaited, the instant of its first header byte, whether its header was good, whether
its kind is RUN, its cycle number, whether the master matched it to its cycle (R17), whether the node uses it
(a return frame is disregarded while the node turns frames around, R13), and the next slot or cell. -/
structure Passage where
  stage : Stage
  start : Nat
  good : Bool
  run : Bool
  cycle : Word
  isMatched : Bool
  used : Bool
  next : Nat
  deriving DecidableEq, Repr

/-- The frame a transmitter sends: departure instant of its first header byte (none: idle symbols) and its blocks as
they leave (R1, R3). -/
structure TxFrame where
  start : Option Nat
  header : Block
  trip : Block
  tags : Block
  slots : List Block
  cells : List Block
  deriving DecidableEq, Repr

/-- State of the Fibre Line Unit (section 1). `tf` holds the t_f of each cycle whose good out-run header waits for its
return (R19), `originated` whether the master has originated a frame since configuration completed (R17). -/
structure Flu where
  up : Link
  down : Link
  ring : RingState
  position : Option Nat
  mismatch : Bool
  changed : Bool
  tf : List (Word × Nat)
  meas : List Nat
  dk : Nat
  lastL : Word
  returnWatch : Nat
  goodReturn : Bool
  turning : Bool
  entries : List PendingEntry
  cycle : Word
  epochAt : Nat
  interval : Nat
  lastHeaderEpoch : Option (Word × Nat)
  expected : Nat
  miss : Nat
  applyLate : Bool
  resyncArmed : Bool
  mstate : MasterState
  originated : Bool
  origCount : Word
  runUp : Nat
  returnMiss : Nat
  absence : Vector Nat 32
  nextOrigin : Nat
  originAt : Nat
  returnSeen : Bool
  out : Passage
  ret : Passage
  copy : Passage
  txDown : TxFrame
  txUp : TxFrame
  deriving DecidableEq, Repr

/-! ### LSU -/

/-- A ramp record (3.3): start speed, target, length, step and class (`clear` is NONE: a commanded ramp). -/
structure Ramp where
  v0 : Nat
  vt : Nat
  n : Nat
  k : Nat
  cls : TripClass
  deriving DecidableEq, Repr

/-- The shaft generator (3.3). -/
structure Gen where
  angle : Word
  rev : BitVec 16
  speed : Nat
  state : ShaftState
  ramp : Option Ramp
  deriving DecidableEq, Repr

/-- The shadow shaft (3.4). -/
structure Shadow where
  angle : Word
  rev : BitVec 16
  speed : Nat
  state : ShaftState
  ramp : Option Ramp
  localStop : Bool
  clamped : Bool
  resync : Bool
  deriving DecidableEq, Repr

/-- State of the Line Shaft Unit (section 3). -/
structure Lsu where
  gen : Gen
  shadow : Shadow
  deriving DecidableEq, Repr

/-! ### AXU -/

/-- State of an axis (R67). -/
inductive AxisState where
  | off
  | idle
  | engaged
  | hold
  deriving DecidableEq, Repr

/-- An axis record (4.2). Offsets are 32-bit words read as signed; `q` is exact (R73). -/
structure Axis where
  state : AxisState
  source : AxisSource
  ref : Option Word
  delta : Int
  miss : Nat
  limit : Nat
  n : Nat
  d : Nat
  theta : Word
  r : Nat
  rev : BitVec 16
  o : Word
  ot : Word
  lslew : Nat
  q : Int
  s : Word
  resyncHold : Bool
  sourceLost : Bool
  frozen : Bool
  extrap : Bool
  deriving DecidableEq, Repr

/-- State of the Axis Unit (section 4): the axes and the fresh value of each slot (R70). -/
structure Axu where
  axes : Vector Axis 8
  fresh : Vector (Option Word) 128
  deriving DecidableEq, Repr

/-! ### TRU -/

/-- Four class masks, bit n for position n (5.3). -/
structure ClassMasks where
  a : Word
  b : Word
  c : Word
  d : Word
  deriving DecidableEq, Repr

/-- A first-fault record as the trip block carries it (R198, R200). -/
structure FaultRecord where
  position : BitVec 5
  source : BitVec 5
  cycle16 : BitVec 16
  phase : Byte
  deriving DecidableEq, Repr

/-- What the master keeps of the last good matched return trip block (R96). -/
structure Relay where
  masks : ClassMasks
  presence : Word
  fault : Option FaultRecord
  deriving DecidableEq, Repr

/-- Press trip state (R106). -/
inductive PressState where
  | notApplicable
  | tripped
  | resetting
  | clear
  deriving DecidableEq, Repr

/-- State of the Trip Unit (section 5). `forced` is the force of R102 by the acting class, `hold` the power-up hold. -/
structure Tru where
  latch : Vector (Option Stamp) 15
  class8 : TripClass
  cond : Vector Bool 15
  tiLevel : Vector Bool 8
  filter : Vector (Option Nat) 8
  remote : ClassMasks
  acting : TripClass
  known : Byte
  pressFault : Option FaultRecord
  requests : BitVec 4
  forced : Bool
  hold : Bool
  timerOn : Bool
  timerCount : Nat
  relay : Option Relay
  resetPending : Bool
  press : PressState
  deriving DecidableEq, Repr

/-! ### SLU -/

/-- Publish state of a slot (R110). -/
inductive PublishState where
  | unused
  | silent
  | live
  | withdrawn
  deriving DecidableEq, Repr

/-- Four words of slot data. -/
abbrev SlotImage := Vector Word 4

/-- One SLOT-IN entry (R118). -/
structure SlotEntry where
  seq : Byte
  age : Nat
  stale : Bool
  publisher : Option (Fin 32)
  mark : Bool
  deriving DecidableEq, Repr

/-- State of the Slot Unit (section 6). `landing` holds, per window and entry, the five words gathered in the present
return passage (R120, R124). -/
structure Slu where
  publish : Vector PublishState 128
  committed : Vector SlotImage 128
  conflicts : BitVec 128
  entries : Vector (Vector SlotEntry 8) 8
  landing : Vector (Vector (Option (List Word)) 8) 8
  deriving DecidableEq, Repr

/-! ### CLS -/

/-- State of the Cell Scheduler (section 7): the counts of the claim passage and the SCREEN-REQ entries of the message
list in order of entry. -/
structure Cls where
  claimed : Nat
  messageSent : Bool
  reserveTiles : Nat
  requests : List (Fin 2)
  deriving DecidableEq, Repr

/-! ### CMU -/

/-- An exposure (R147). -/
structure Exposure where
  stamp : Stamp
  ref : Word
  count : Word
  deriving DecidableEq, Repr

/-- A camera channel (section 8). `pulse` is the instant the running TRIG pulse started, and the interval I it counts in
(R145). -/
structure Channel where
  pointer : Nat
  seek : Bool
  lapCount : BitVec 16
  lapPhase : Nat
  sched : Option Nat
  count : Word
  pulse : Option (Nat × Nat)
  latestS : Word
  latestQ : Int
  exposure : Option Exposure
  overrun : Bool
  skipped : Bool
  expLevel : Bool
  deriving DecidableEq, Repr

/-- State of the Camera Unit. -/
structure Cmu where
  ch : Vector Channel 4
  deriving DecidableEq, Repr

/-! ### IGU -/

/-- Capture state of a channel (R151). -/
inductive CaptureState where
  | idle
  | capturing
  | skipping
  deriving DecidableEq, Repr

/-- Capture side of a channel (9.2). `area` is the assembly area, its bytes in offset order. -/
structure Capture where
  state : CaptureState
  e : Nat
  imgNo : BitVec 16
  area : List Byte
  deriving DecidableEq, Repr

/-- A fragment of the transmit queue (R155). -/
structure Fragment where
  head : Bool
  last : Bool
  dest : Nat
  stream : Nat
  imgNo : BitVec 16
  index : Nat
  payload : List Byte
  deriving DecidableEq, Repr

/-- Ownership of a buffer (R160). -/
inductive Ownership where
  | free
  | assembling
  | closing
  | processor
  deriving DecidableEq, Repr

/-- What a head carries of its exposure (R155). -/
structure HeadInfo where
  stamp : Stamp
  ref : Word
  count : Word
  noExposure : Bool
  overrun : Bool
  deriving DecidableEq, Repr

/-- The image in assembly of a stream (R160). -/
structure Assembly where
  imgNo : BitVec 16
  buffer : Fin 16
  info : HeadInfo
  landed : Nat
  last : Nat
  broken : Bool
  deriving DecidableEq, Repr

/-- A receive stream (R160). -/
structure Stream where
  own : Vector Ownership 16
  asm : Option Assembly
  next : Fin 16
  drop : Nat
  order : Word
  idle : Nat
  relErr : Nat
  deriving DecidableEq, Repr

/-- State of the Image Unit (section 9). -/
structure Igu where
  cap : Vector Capture 4
  tx : List Fragment
  streams : Vector Stream 4
  deriving DecidableEq, Repr

/-! ### SCU, KSC and key list -/

/-- An outgoing screen's changing state (10.2). -/
structure OutScreen where
  dirty : BitVec 8192
  scan : Nat
  sweep : Nat
  sweepCount : Nat
  deriving DecidableEq, Repr

/-- A tile in the tile send buffer (R173). -/
structure TileItem where
  screen : Fin 2
  dest : Nat
  number : Nat
  tile : Nat
  bytes : List Byte
  deriving DecidableEq, Repr

/-- State of the Screen Unit (section 10). -/
structure Scu where
  out : Vector OutScreen 2
  buffer : List TileItem
  inFlight : List (Fin 2 × Nat)
  lastFetch : Fin 2
  landed : Vector Word 2
  refresh : Option (Byte × Nat)
  deriving DecidableEq, Repr

/-- A key event (R180). -/
structure KeyEvent where
  key : Fin 64
  press : Bool
  stamp : Stamp
  deriving DecidableEq, Repr

/-- State of the Key Scanner and of the key-list handling (10.4). -/
structure Ksc where
  row : Fin 8
  nextRead : Nat
  debounced : BitVec 64
  mark : BitVec 64
  reported : BitVec 64
  lock : Option (Fin 64)
  queue : List KeyEvent
  overflow : Bool
  writeIndex : Nat
  landedCount : BitVec 16
  deriving DecidableEq, Repr

/-! ### CNU -/

/-- Configuration status with its reason (R192). -/
inductive ConfigStatus where
  | loading
  | configured
  | noImage
  | header
  | crc
  | windows
  | records
  deriving DecidableEq, Repr

/-- The header of the flash image as read (R188). -/
structure FlashHeader where
  ident : Word
  length : Word
  crc : Word
  deriving DecidableEq, Repr

/-- State of the Configuration and Notice Unit (section 11). -/
structure Cnu where
  status : ConfigStatus
  flash : Option FlashHeader
  fcs : Bool
  spiOut : List Byte
  flags : BitVec 16
  mask : BitVec 16
  deriving DecidableEq, Repr

/-! ### LDE -/

/-- The 11 URGENT sources (R39). -/
inductive UrgentSource where
  | slotIn (w : Fin 8)
  | axis
  | shaft
  | trip
  deriving DecidableEq, Repr

/-- A run: start word address and consecutive words (R38). -/
structure Run where
  addr : Nat
  words : List Word
  deriving DecidableEq, Repr

/-- An URGENT entry with the bursts it has completed (R39, R42). -/
structure UrgentEntry where
  src : UrgentSource
  runs : List Run
  done : Nat
  deriving DecidableEq, Repr

/-- Who requested a NORMAL entry, and so what its completion or discard means (R41, R45). -/
inductive Requester where
  | result
  | fragment
  | descriptor (st : Fin 4) (buf : Fin 16) (complete : Bool)
  | emptyDescriptor
  | tileRead (screen : Fin 2) (tile : Nat)
  | tileLand (screen : Fin 2)
  | keys
  deriving DecidableEq, Repr

/-- A NORMAL entry: its runs (for a tile read the words give only the lengths), the instant it entered the queue, the
bursts it has completed and, for a tile read, the words read so far (R38, R43, R45). -/
structure NormalEntry where
  req : Requester
  runs : List Run
  entered : Nat
  done : Nat
  got : List Word
  deriving DecidableEq, Repr

/-- Who holds the M-port for the burst in flight (2.6). The burst is that of the oldest entry of its class. -/
inductive Holder where
  | free
  | urgent
  | normal
  | cycle
  deriving DecidableEq, Repr

/-- State of the Landing Engine (2.5, 2.6). -/
structure Lde where
  urgent : List UrgentEntry
  follow : List (UrgentSource × List Run)
  normal : List NormalEntry
  holder : Holder
  starved : Bool
  deriving DecidableEq, Repr

/-! ### PTU -/

/-- What a word address names (R28, R201). Numbers are of the window's slots, channels, streams or screens. -/
inductive Ident where
  | outside
  | ordinary
  | noticeMask
  | noticeClear
  | refresh
  | nodeLive (off : Nat)
  | shaftCommand
  | shaftParam
  | axisCommand (n : Fin 8)
  | axisParam (n : Fin 8)
  | axisLive (n : Fin 8)
  | tripCommand (which : Fin 3)
  | slotWord (s : Fin 128) (i : Nat)
  | withdraw (first count : Nat)
  | release (st : Fin 4) (k : Fin 16)
  | camOut (ch : Fin 4) (off : Nat)
  | screenOut (n : Fin 2) (off : Nat)
  | landed (kind : WindowKind)
  deriving DecidableEq, Repr

/-- A beat of a P-port cycle as classified at its presentation, with the snapshot answer of a substituted read
(R26, R28, R34). -/
structure PBeat where
  addr : Nat
  be : BitVec 4
  data : Word
  id : Ident
  ans : Word
  deriving DecidableEq, Repr

/-- A P-port cycle: beats not yet accepted, data returned so far, commands to take at its completion (R36), and whether the
M-port was granted to it (R44). -/
structure PCycle where
  write : Bool
  beats : List PBeat
  answers : List Word
  takes : List PBeat
  granted : Bool
  deriving DecidableEq, Repr

/-- The blocked-write latch when valid (R33). -/
structure BlockedLatch where
  addr : Nat
  be : BitVec 4
  kind : WindowKind
  further : Bool
  deriving DecidableEq, Repr

/-- State of the Pass-Through Unit (2.2 to 2.4). `shadow` holds the capture shadows by word address; `cycle` is the P-port
cycle in progress, and `behind` holds those presented behind it, held on WAIT# (R44, 2.9). -/
structure Ptu where
  shadow : List (Nat × Word)
  shaftPending : Bool
  axisPending : Vector Bool 8
  latch : Option BlockedLatch
  cycle : Option PCycle
  behind : List PCycle
  readData : List Word
  deriving DecidableEq, Repr

/-! ### The whole node -/

/-- The state of one node. `now` is elapsed time in ticks (log 1), `free` counts the order choices drawn (log 6),
`pending` is the queue of waiting commands. -/
structure State where
  now : Nat
  free : Nat
  pending : List Instr
  cfg : NodeCfg
  flu : Flu
  lsu : Lsu
  axu : Axu
  tru : Tru
  slu : Slu
  cls : Cls
  cmu : Cmu
  igu : Igu
  scu : Scu
  ksc : Ksc
  cnu : Cnu
  ptu : Ptu
  lde : Lde
  mem : List Host.Cell
  deriving DecidableEq, Repr

/-- No command makes the part fault: the manual names no event that stops it. The type has no constructor. -/
inductive Fault where
  deriving DecidableEq, Repr

/-- Why a command is refused. -/
inductive Refusal where
  /-- Raised by Dispatch.lean only, for a row without a meaning. Safe: the machine stops. No row is left so. -/
  | notModelled (mnemonic : String)
  /-- Raised by the rows that carry symbols, bytes or beats, when their number is one no event can bring
  (`Instr.wf`). Safe: the hardware has no such event. -/
  | illFormed
  deriving DecidableEq, Repr

/-! ### After pin reset -/

/-- A dark receiver (R2). -/
def Link.reset : Link := { state := .dark, since := 0 }

/-- No frame in passage. -/
def Passage.idle : Passage :=
  { stage := .idle, start := 0, good := false, run := false, cycle := 0, isMatched := false, used := false, next := 0 }

/-- Idle symbols (R1). -/
def TxFrame.idle : TxFrame := { start := none, header := [], trip := [], tags := [], slots := [], cells := [] }

/-- FLU after pin reset (1.9). -/
def Flu.reset : Flu :=
  { up := Link.reset, down := Link.reset, ring := .seeking, position := none, mismatch := false, changed := false,
    tf := [], meas := [], dk := 0, lastL := 0, returnWatch := 0, goodReturn := false, turning := false,
    entries := [], cycle := 0, epochAt := 0, interval := Config.cycleTicks, lastHeaderEpoch := none, expected := 0,
    miss := 0, applyLate := false, resyncArmed := false, mstate := .setup, originated := false, origCount := 0,
    runUp := 0, returnMiss := 0, absence := Vector.replicate 32 0, nextOrigin := 0, originAt := 0, returnSeen := false,
    out := Passage.idle, ret := Passage.idle, copy := Passage.idle, txDown := TxFrame.idle, txUp := TxFrame.idle }

/-- Generator after pin reset (R65). -/
def Gen.reset : Gen := { angle := 0, rev := 0, speed := 0, state := .standstill, ramp := none }

/-- Shadow shaft after pin reset (R65). -/
def Shadow.reset : Shadow :=
  { angle := 0, rev := 0, speed := 0, state := .standstill, ramp := none, localStop := false, clamped := false,
    resync := false }

/-- LSU after pin reset (R65). -/
def Lsu.reset : Lsu := { gen := Gen.reset, shadow := Shadow.reset }

/-- An OFF axis: all fields 0 (R66, R87). Its source, which nothing reads, is held as SHAFT: the model's choice (log 47). -/
def Axis.reset : Axis :=
  { state := .off, source := .shaft, ref := some 0, delta := 0, miss := 0, limit := 0, n := 0, d := 0, theta := 0,
    r := 0, rev := 0, o := 0, ot := 0, lslew := 0, q := 0, s := 0, resyncHold := false, sourceLost := false,
    frozen := false, extrap := false }

/-- AXU after pin reset (R87). -/
def Axu.reset : Axu := { axes := Vector.replicate 8 Axis.reset, fresh := Vector.replicate 128 none }

/-- No position set in any class. -/
def ClassMasks.empty : ClassMasks := { a := 0, b := 0, c := 0, d := 0 }

/-- TRU after pin reset: source 10 latched with stamp 0/0, its condition present, power-up hold set (R103, R109). -/
def Tru.reset : Tru :=
  { latch := setAt (Vector.replicate 15 none) 10 (some { cycle := 0, phase := 0 }), class8 := .clear,
    cond := setAt (Vector.replicate 15 false) 10 true, tiLevel := Vector.replicate 8 false,
    filter := Vector.replicate 8 none, remote := ClassMasks.empty, acting := .clear, known := 0, pressFault := none,
    requests := 0, forced := false, hold := true, timerOn := false, timerCount := 0, relay := none,
    resetPending := false, press := .notApplicable }

/-- A SLOT-IN entry as after pin reset and at configuration completion (R118, R126). -/
def SlotEntry.reset : SlotEntry := { seq := 0, age := 0, stale := false, publisher := none, mark := false }

/-- SLU after pin reset (R126). -/
def Slu.reset : Slu :=
  { publish := Vector.replicate 128 .unused, committed := Vector.replicate 128 (Vector.replicate 4 0), conflicts := 0,
    entries := Vector.replicate 8 (Vector.replicate 8 SlotEntry.reset),
    landing := Vector.replicate 8 (Vector.replicate 8 none) }

/-- CLS after pin reset (R136). -/
def Cls.reset : Cls := { claimed := 0, messageSent := false, reserveTiles := 0, requests := [] }

/-- A camera channel after pin reset (R150). -/
def Channel.reset : Channel :=
  { pointer := 0, seek := false, lapCount := 0, lapPhase := 0, sched := none, count := 0, pulse := none, latestS := 0,
    latestQ := 0, exposure := none, overrun := false, skipped := false, expLevel := false }

/-- CMU after pin reset (R150). -/
def Cmu.reset : Cmu := { ch := Vector.replicate 4 Channel.reset }

/-- A capture channel after pin reset (R169). -/
def Capture.reset : Capture := { state := .idle, e := 0, imgNo := 0, area := [] }

/-- A receive stream after pin reset (R169). -/
def Stream.reset : Stream :=
  { own := Vector.replicate 16 .free, asm := none, next := 0, drop := 0, order := 0, idle := 0, relErr := 0 }

/-- IGU after pin reset (R169). -/
def Igu.reset : Igu := { cap := Vector.replicate 4 Capture.reset, tx := [], streams := Vector.replicate 4 Stream.reset }

/-- An outgoing screen after pin reset: every dirty bit set (R186). -/
def OutScreen.reset : OutScreen := { dirty := BitVec.allOnes 8192, scan := 0, sweep := 0, sweepCount := 0 }

/-- SCU after pin reset (R186). -/
def Scu.reset : Scu :=
  { out := Vector.replicate 2 OutScreen.reset, buffer := [], inFlight := [], lastFetch := 0,
    landed := Vector.replicate 2 0, refresh := none }

/-- KSC and key list after pin reset (R186). -/
def Ksc.reset : Ksc :=
  { row := 0, nextRead := 0, debounced := 0, mark := 0, reported := 0, lock := none, queue := [], overflow := false,
    writeIndex := 0, landedCount := 0 }

/-- CNU after pin reset: LOADING, the read command and address sent, FCS# active (R187, R196). -/
def Cnu.reset : Cnu :=
  { status := .loading, flash := none, fcs := true, spiOut := [0x03, 0, 0, 0], flags := 0, mask := 0 }

/-- PTU after pin reset (R46). -/
def Ptu.reset : Ptu :=
  { shadow := [], shaftPending := false, axisPending := Vector.replicate 8 false, latch := none, cycle := none,
    behind := [], readData := [] }

/-- LDE after pin reset (R46). -/
def Lde.reset : Lde := { urgent := [], follow := [], normal := [], holder := .free, starved := false }

/-- The node right after pin reset, with no command waiting and nothing written in memory. -/
def State.reset : State :=
  { now := 0, free := 0, pending := [], cfg := NodeCfg.unconfigured, flu := Flu.reset, lsu := Lsu.reset, axu := Axu.reset,
    tru := Tru.reset, slu := Slu.reset, cls := Cls.reset, cmu := Cmu.reset, igu := Igu.reset, scu := Scu.reset,
    ksc := Ksc.reset, cnu := Cnu.reset, ptu := Ptu.reset, lde := Lde.reset, mem := [] }

end Sys2Proof.Machine
end

