-- ==== Sys2Proof/WellFormed.lean ====
section
/-! DEFINITION. What the operands of a command must be for the command to exist at all: no event of the part brings
a block longer than its format (1.3), a flash header of other than 12 bytes (R188), a body outside the lengths R188
lets be read, or a P-port cycle of other than 1 to 8 beats (2.2). A block shorter than its format is well formed: its
frame was cut short (R1), and its check fails. -/

namespace Sys2Proof

/-- The block is at most as long as its format, so that it can have arrived. -/
def Block.fits (b : Block) (n : Nat) : Bool := decide (b.length ≤ n)

/-- A return block fits its format; the copy is the node's own block. -/
def ReturnSource.fits (r : ReturnSource) (n : Nat) : Bool :=
  match r with
  | .arrived b => b.fits n
  | .copy => true

/-- A slot and its tag block fit their formats of 18 bytes (1.3). -/
def SlotSource.fits (r : SlotSource) : Bool :=
  match r with
  | .arrived t b => t.fits 18 && b.fits 18
  | .copy => true

/-- A tag block and its slot area fit their formats (1.3). -/
def areaFits (tags : Block) (slots : List Block) : Bool :=
  tags.fits 18 && decide (slots.length ≤ 128) && slots.all (·.fits 18)

/-- A return slot area fits its formats; the copy is the node's own. -/
def AreaSource.fits (r : AreaSource) : Bool :=
  match r with
  | .arrived t bs => areaFits t bs
  | .copy => true

/-- The operands are ones that the command's event can bring. -/
def Instr.wf (i : Instr) : Bool :=
  match i with
  | .pinReset _ => true
  | .flashHeaderRead _ bytes => decide (bytes.length = 12)
  | .flashBodyRead _ bytes => decide (64 ≤ bytes.length) && decide (bytes.length ≤ 32768)
  | .lightDetected _ _ => true
  | .lockIntervalExpiry _ _ => true
  | .clockOutOfBand _ _ => true
  | .lightLost _ _ => true
  | .startSymbol _ _ => true
  | .outRunHeader _ b => b.fits 32
  | .entryIntoJoined _ b => b.fits 32
  | .outRunTripBlock _ b => b.fits 32
  | .insertionDecision _ tags slots => areaFits tags slots
  | .cellDecision _ b => b.fits 274
  | .claimPassageEnd _ => true
  | .returnHeader _ src => src.fits 32
  | .returnTripBlock _ src => src.fits 32
  | .passageToRun _ b => b.fits 32
  | .slotReception _ _ src => src.fits
  | .slotAreaEnd _ src => src.fits
  | .cellDelivery _ src => src.fits 274
  | .origination _ => true
  | .masterRingLoss _ => true
  | .nodeMissing _ b => b.fits 32
  | .applyInstant _ => true
  | .localCycleTimerExpiry _ => true
  | .ringLoss _ => true
  | .endNodeCondition _ => true
  | .rampEnd _ => true
  | .stopRampEnd _ => true
  | .localStopEnd _ => true
  | .sourceLost _ _ => true
  | .stopTimeout _ => true
  | .streamTimeout _ _ => true
  | .sweep _ _ => true
  | .slotStale _ _ _ => true
  | .starvation _ => true
  | .tripInputActive _ _ _ => true
  | .filterExpiry _ _ => true
  | .tripInputInactive _ _ _ => true
  | .exposureEdge _ _ _ => true
  | .firing _ _ => true
  | .pulseTimerExpiry _ _ => true
  | .keyRowReading _ _ => true
  | .pPortCycle _ _ _ beats => decide (1 ≤ beats.length) && decide (beats.length ≤ 8)
  | .mPortBurstCompletion _ => true
  | .setTarget _ => true
  | .hold _ => true
  | .engage _ _ => true
  | .disengage _ _ => true
  | .setGear _ _ => true
  | .setOffset _ _ => true
  | .setSource _ _ => true
  | .undefinedCommandCode _ _ => true
  | .tripRequest _ _ => true
  | .resetRequest _ _ => true
  | .enableRequest _ _ => true
  | .noticeMask _ _ => true
  | .noticeClear _ _ => true
  | .screenRefreshCommand _ _ => true
  | .commit _ _ _ => true
  | .withdraw _ _ _ => true
  | .release _ _ _ => true
  | .camOutBeat _ _ _ => true
  | .screenOutBeat _ _ _ => true
  | .blockedWrite _ _ _ => true
  | .registerWrite _ _ _ => true

end Sys2Proof
end

