-- ==== Sys2Proof/Machine/Ops.lean ====
section
/-! DEFINITION. The named operations every block shares: update of one block of the state, elapsed time and stamps
(R24), memory and capture shadows as canonical lists (R26, R30), byte and bit fields (R197, R200, R201). -/

namespace Sys2Proof.Machine

/-! ### Updates of one block -/

def State.onFlu (s : State) (f : Flu → Flu) : State := { s with flu := f s.flu }
def State.onLsu (s : State) (f : Lsu → Lsu) : State := { s with lsu := f s.lsu }
def State.onAxu (s : State) (f : Axu → Axu) : State := { s with axu := f s.axu }
def State.onTru (s : State) (f : Tru → Tru) : State := { s with tru := f s.tru }
def State.onSlu (s : State) (f : Slu → Slu) : State := { s with slu := f s.slu }
def State.onCls (s : State) (f : Cls → Cls) : State := { s with cls := f s.cls }
def State.onCmu (s : State) (f : Cmu → Cmu) : State := { s with cmu := f s.cmu }
def State.onIgu (s : State) (f : Igu → Igu) : State := { s with igu := f s.igu }
def State.onScu (s : State) (f : Scu → Scu) : State := { s with scu := f s.scu }
def State.onKsc (s : State) (f : Ksc → Ksc) : State := { s with ksc := f s.ksc }
def State.onCnu (s : State) (f : Cnu → Cnu) : State := { s with cnu := f s.cnu }
def State.onPtu (s : State) (f : Ptu → Ptu) : State := { s with ptu := f s.ptu }
def State.onLde (s : State) (f : Lde → Lde) : State := { s with lde := f s.lde }
def State.onMem (s : State) (f : List Host.Cell → List Host.Cell) : State := { s with mem := f s.mem }

/-! ### Time -/

/-- `dt` ticks of 8 ns pass (log 1). -/
def State.elapse (s : State) (dt : Nat) : State := { s with now := s.now + dt }

/-- The configuration is complete (R190). -/
def State.configured (s : State) : Bool := decide (s.cnu.status = .configured)

/-- The phase: ticks since the last epoch, or since configuration completion, in units of I / 256, holding at 255; 0 until
the configuration is complete (R24, R25). -/
def State.phase (s : State) : Nat :=
  if s.configured then min 255 ((s.now - s.flu.epochAt) * 256 / s.flu.interval) else 0

/-- The node's synchronized time (R24). -/
def State.stamp (s : State) : Stamp := { cycle := s.flu.cycle, phase := BitVec.ofNat 8 s.phase }

/-- At least `units` phase units of `interval` / 256 ticks have passed since `start` (R89, R145). -/
def State.unitsPassed (s : State) (interval start units : Nat) : Bool :=
  decide (units * interval ≤ (s.now - start) * 256)

/-! ### Roles -/

/-- A node configured as master (1.6). -/
def State.isMaster (s : State) : Bool := s.configured && s.cfg.master

/-- A configured node that is not the master. -/
def State.isMember (s : State) : Bool := s.configured && !s.cfg.master

/-- The node is JOINED, as the master is at all times (1.4). -/
def State.isJoined (s : State) : Bool := s.configured && decide (s.flu.ring = .joined)

/-- The node's position as a bit of the press-wide masks: none when unassigned or beyond range (R94). -/
def State.ownBit (s : State) : Word :=
  match s.flu.position with
  | some p => if p ≤ 31 then 1#32 <<< p else 0
  | none => 0

/-- The node's position number; used where the node is JOINED and so has one (R9). -/
def State.ownPosition (s : State) : Nat := s.flu.position.getD 0

/-! ### Canonical lists: memory and shadows -/

/-- The value at address `a`; an unlisted address reads 0 (R30, R46; for memory log 8). -/
def Cells.get {w : Nat} (m : List (Nat × BitVec w)) (a : Nat) : BitVec w :=
  match m with
  | [] => 0
  | (k, v) :: r => if k = a then v else Cells.get r a

/-- Write `v` at address `a`, keeping addresses rising and zeros unlisted. -/
def Cells.set {w : Nat} (m : List (Nat × BitVec w)) (a : Nat) (v : BitVec w) : List (Nat × BitVec w) :=
  match m with
  | [] => if v = 0 then [] else [(a, v)]
  | (k, x) :: r =>
    if a < k then (if v = 0 then (k, x) :: r else (a, v) :: (k, x) :: r)
    else if a = k then (if v = 0 then r else (a, v) :: r)
    else (k, x) :: Cells.set r a v

/-- Every listed address is above `lo`. -/
def Cells.above {w : Nat} (m : List (Nat × BitVec w)) (lo : Nat) : Bool := m.all fun p => decide (lo < p.1)

/-- Canonical form: addresses strictly rising, no entry equal to what an unlisted address reads as. -/
def Cells.wf {w : Nat} (m : List (Nat × BitVec w)) : Bool :=
  match m with
  | [] => true
  | (k, v) :: r => decide (v ≠ 0) && Cells.above r k && Cells.wf r

/-- The canonical form of memory. -/
def Memory.wf (m : List Host.Cell) : Bool := Cells.wf m

/-- Bytes in the memory range: 64 MiB (2.2). -/
def Memory.size : Nat := 67108864

/-- Byte `a` of memory; byte addresses have 26 bits (2.2). -/
def Memory.byte (m : List Host.Cell) (a : Nat) : Byte := Cells.get m (a % Memory.size)

/-- Write byte `a` of memory. -/
def Memory.setByte (m : List Host.Cell) (a : Nat) (v : Byte) : List Host.Cell := Cells.set m (a % Memory.size) v

/-- Byte `i` of a word, 0 the least significant (little-endian, 00). -/
def wordByte (w : Word) (i : Nat) : Byte := w.extractLsb' (8 * i) 8

/-- A word from its four bytes, least significant first. -/
def wordOf (b0 b1 b2 b3 : Byte) : Word := b3 ++ b2 ++ b1 ++ b0

/-- The word at word address `wa`. -/
def Memory.word (m : List Host.Cell) (wa : Nat) : Word :=
  wordOf (Memory.byte m (4 * wa)) (Memory.byte m (4 * wa + 1)) (Memory.byte m (4 * wa + 2)) (Memory.byte m (4 * wa + 3))

/-- Write the bytes of a word whose enables are active (R26). -/
def Memory.setWord (m : List Host.Cell) (wa : Nat) (v : Word) (be : BitVec 4) : List Host.Cell :=
  (List.range 4).foldl (fun m i => if be.getLsbD i then Memory.setByte m (4 * wa + i) (wordByte v i) else m) m

/-- Write consecutive whole words (R38). -/
def Memory.setWords (m : List Host.Cell) (wa : Nat) (ws : List Word) : List Host.Cell :=
  match ws with
  | [] => m
  | w :: r => Memory.setWords (Memory.setWord m wa w 15) (wa + 1) r

/-- Read `n` consecutive words. -/
def Memory.words (m : List Host.Cell) (wa n : Nat) : List Word := (List.range n).map fun i => Memory.word m (wa + i)

/-- A word with the enabled bytes replaced (R30). -/
def mergeBytes (old new : Word) (be : BitVec 4) : Word :=
  let pick := fun i => if be.getLsbD i then wordByte new i else wordByte old i
  wordOf (pick 0) (pick 1) (pick 2) (pick 3)

/-- The capture shadow of the word at word address `wa` (R30). -/
def State.shadowAt (s : State) (wa : Nat) : Word := Cells.get s.ptu.shadow wa

/-- The shadow update of a capture write beat (R30). -/
def State.setShadow (s : State) (wa : Nat) (v : Word) (be : BitVec 4) : State :=
  s.onPtu fun p => { p with shadow := Cells.set p.shadow wa (mergeBytes (Cells.get p.shadow wa) v be) }

/-! ### Byte and bit fields -/

/-- A fibre or flash field, most significant byte first (R197, R202). -/
def beNat (bs : List Byte) : Nat := bs.foldl (fun n b => n * 256 + b.toNat) 0

/-- The field of `len` bytes at byte `off`. -/
def field (bs : List Byte) (off len : Nat) : Nat := beNat ((bs.drop off).take len)

/-- The low `len` bytes of a number, most significant first. -/
def beBytes (len n : Nat) : List Byte := (List.range len).map fun i => BitVec.ofNat 8 (n / 256 ^ (len - 1 - i))

/-- Byte `i` of a list; 0 beyond its end. -/
def byteAt (bs : List Byte) (i : Nat) : Byte := bs.getD i 0

/-- Bits `hi` down to `lo` of a word as a number. -/
def bits (w : Word) (lo len : Nat) : Nat := w.toNat / 2 ^ lo % 2 ^ len

/-- Fields packed from bit 0 upward, each a value with its width (R201). -/
def pack (fs : List (Nat × Nat)) : Nat :=
  match fs with
  | [] => 0
  | (v, w) :: r => v % 2 ^ w + 2 ^ w * pack r

/-- A bit as a field value. -/
def bit (b : Bool) : Nat := if b then 1 else 0

/-- Fields packed into a word. -/
def packWord (fs : List (Nat × Nat)) : Word := BitVec.ofNat 32 (pack fs)

/-- The bytes of words in address order (little-endian). -/
def bytesOfWords (ws : List Word) : List Byte := ws.flatMap fun w => (List.range 4).map (wordByte w)

/-- Words from bytes in address order. -/
def wordsOfBytes (bs : List Byte) : List Word :=
  (List.range (bs.length / 4)).map fun i =>
    wordOf (byteAt bs (4 * i)) (byteAt bs (4 * i + 1)) (byteAt bs (4 * i + 2)) (byteAt bs (4 * i + 3))

/-- The signed reading of a 32-bit difference (00, Angles and arithmetic). -/
def signedDiff (a b : Word) : Int := (a - b).toInt

end Sys2Proof.Machine
end

