-- ==== Sys2Proof/Machine/Flags.lean ====
section
/-! DEFINITION. The notice flags and the outputs computed from state: NOTICE# (R193), the pending number (R194), the
status pins (R192), the enable outputs (R102), and the severity order of trip classes (R88). -/

namespace Sys2Proof

/-- The code of a class field (R199). -/
def TripClass.code (t : TripClass) : Nat :=
  match t with
  | .clear => 0
  | .a => 1
  | .b => 2
  | .c => 3
  | .d => 4

/-- The class a code names; `none` for a code of no class (R199). Code 0 is NONE. -/
def TripClass.ofCode (n : Nat) : Option TripClass :=
  match n with
  | 0 => some .clear
  | 1 => some .a
  | 2 => some .b
  | 3 => some .c
  | 4 => some .d
  | _ => none

/-- Severity: A the most severe, CLEAR the least (R88). -/
def TripClass.severity (t : TripClass) : Nat :=
  match t with
  | .clear => 0
  | .d => 1
  | .c => 2
  | .b => 3
  | .a => 4

/-- The more severe of two classes. -/
def TripClass.worst (x y : TripClass) : TripClass := if x.severity < y.severity then y else x

/-- Class A, B or C: a class that stops (R75, R80, R140). -/
def TripClass.stops (t : TripClass) : Bool :=
  match t with
  | .a => true
  | .b => true
  | .c => true
  | _ => false

/-- Class B or C (R49, R102). -/
def TripClass.ramps (t : TripClass) : Bool :=
  match t with
  | .b => true
  | .c => true
  | _ => false

end Sys2Proof

namespace Sys2Proof.Machine

/-- Set notice flag `n` (R193). Setting a set flag leaves it set. -/
def State.notify (s : State) (n : Nat) : State := s.onCnu fun c => { c with flags := c.flags ||| (1#16 <<< n) }

/-- Set notice flag `n` if `b`. -/
def State.notifyIf (s : State) (b : Bool) (n : Nat) : State := if b then s.notify n else s

/-- The flags that drive NOTICE#: unmasked ones, and flag 0 whatever its mask bit says (R193). -/
def State.openFlags (s : State) : BitVec 16 := s.cnu.flags &&& (~~~s.cnu.mask ||| 1#16)

/-- NOTICE# is active (R193). -/
def State.noticeActive (s : State) : Bool := decide (s.openFlags ≠ 0)

/-- The pending number of the notice record (R194). -/
def State.pendingNumber (s : State) : Nat := ((List.range 16).find? fun n => s.openFlags.getLsbD n).getD 31

/-- CST0 to CST2 (R192). -/
def ConfigStatus.cst (c : ConfigStatus) : Nat :=
  match c with
  | .loading => 0
  | .configured => 1
  | .noImage => 2
  | .header => 3
  | .crc => 4
  | .windows => 5
  | .records => 6

/-- All four enable lines are forced inactive (R102, R103). -/
def Tru.linesForced (t : Tru) : Bool := t.forced || t.hold

/-- The enable outputs TO0 to TO3: requested and not forced (R102). -/
def Tru.outputs (t : Tru) : BitVec 4 := if t.linesForced then 0 else t.requests

/-- The row lines KR0 to KR7, KR`i` in bit `i`: the driven row is active while a configured node with a key record scans,
and none is otherwise (R179, R186, R191). -/
def State.rowLines (s : State) : BitVec 8 :=
  if s.configured && s.cfg.keys.isSome then 1#8 <<< s.ksc.row.val else 0

/-- Trip input line `n` reads active at `level` under its configured polarity (R89, R202). -/
def State.readsActive (s : State) (n : Fin 8) (level : Bool) : Bool := level != s.cfg.tiLow[n]

end Sys2Proof.Machine
end

