-- ==== Sys2Proof/Machine/Camera.lean ====
section
/-! DEFINITION. The Camera Unit (section 8): the epoch work of a channel, firings and pulses, exposures. -/

namespace Sys2Proof.Machine

/-- Change camera channel `i`. -/
def State.onChannel (s : State) (i : Fin 4) (f : Channel → Channel) : State :=
  s.onCmu fun u => { u with ch := modAt u.ch i f }

/-! ### The trigger list (R141 to R144) -/

/-- The angle from `s` forward to list entry `p`: (P − S) mod 2^32. -/
def ahead (list : List Word) (p : Nat) (s : Word) : Nat := (list.getD p 0 - s).toNat

/-- The entry ahead of the reference: the one with the smallest angle from S (R141). -/
def seekEntry (list : List Word) (s : Word) : Nat :=
  (List.range list.length).foldl (fun best p => if ahead list p s < ahead list best s then p else best) 0

/-- The pointer advances by one entry; the wrap ends a lap (R142, R144). -/
def Channel.advance (c : Channel) (cam : CamCfg) : Channel :=
  if cam.list.length ≤ c.pointer + 1 then
    { c with pointer := 0, lapCount := c.lapCount + 1, lapPhase := (c.lapPhase + 1) % cam.pacing }
  else { c with pointer := c.pointer + 1 }

/-- The lap is armed (R144). -/
def Channel.armed (c : Channel) : Bool := decide (c.lapPhase = 0)

/-- Entries after the crossed one, as many as `fuel` at most: each that lies below q is passed, and skipped if its lap
is armed; the result says whether one was (R143). -/
def Channel.passEntries (cam : CamCfg) (fuel : Nat) (c : Channel) : Channel × Bool :=
  match fuel with
  | 0 => (c, false)
  | fuel + 1 =>
    if (ahead cam.list c.pointer c.latestS : Int) < c.latestQ then
      let r := Channel.passEntries cam fuel (c.advance cam)
      ({ r.1 with skipped := r.1.skipped || c.armed }, c.armed || r.2)
    else (c, false)

/-- The crossing test at the pointer and the walk that follows it (R142, R143). -/
def Channel.test (cam : CamCfg) (c : Channel) : Channel × Bool :=
  let d := ahead cam.list c.pointer c.latestS
  if (d : Int) < c.latestQ then
    let phase := d * 256 / c.latestQ.toNat
    let c1 := (if c.armed then { c with sched := some phase } else c).advance cam
    Channel.passEntries cam (cam.list.length - 1) c1
  else (c, false)

/-! ### Firings (R145) -/

/-- A firing is made at an instant: count, output and pulse timer, which counts in the interval I as it stands then, so
that no later epoch changes the pulse (R145; log 52). -/
def Channel.fire (c : Channel) (now interval : Nat) : Channel :=
  { c with sched := none, count := c.count + 1, pulse := some (now, interval) }

/-! ### The epoch (R138 to R140) -/

/-- The reference's values for the epoch: the shadow's A and V, or the axis' S and exact q, which are 0 for an OFF axis (R85,
R138). -/
def State.reference (s : State) (r : CamReference) : Word × Int :=
  match r with
  | .shaft => (s.lsu.shadow.angle, s.lsu.shadow.speed)
  | .axis n => if s.axu.axes[n].state = .off then (0, 0) else (s.axu.axes[n].s, s.axu.axes[n].q)

/-- The channel tests at this epoch (R140). -/
def State.tests (s : State) (cam : CamCfg) (q : Int) : Bool :=
  decide (0 < q) && decide ((cam.minSpeed : Int) ≤ q) && !s.tru.acting.stops && s.isJoined

/-- The epoch work of a configured channel; `mark` is the resync mark of the epoch (R139, R140). -/
def State.channelEpoch (s : State) (mark : Bool) (i : Fin 4) : State :=
  match s.cfg.cams[i] with
  | none => s
  | some cam =>
    let ref := s.reference cam.ref
    let c0 := s.cmu.ch[i]
    let c1 := if c0.sched.isSome then c0.fire s.now s.flu.interval else c0
    let c2 := { c1 with latestS := ref.1, latestQ := ref.2,
                        seek := c1.seek || (mark && decide (cam.ref = .shaft)) || !s.tests cam ref.2 }
    if s.tests cam ref.2 then
      let c3 := if c2.seek then { c2 with pointer := seekEntry cam.list ref.1, seek := false } else c2
      let r := c3.test cam
      (s.onChannel i fun _ => r.1).notifyIf r.2 13
    else s.onChannel i fun _ => c2

/-- The CMU's epoch work: the four channels (R139), with no change of the acting class or of the ring state between them: the
model's choice (log 85). -/
def State.cmuEpoch (s : State) (mark : Bool) : State := (List.finRange 4).foldl (fun s i => s.channelEpoch mark i) s

/-! ### Exposures (R147, R148) -/

/-- The interpolation of an increment at a phase: floored for q of 0 or more, mirrored for a negative one (R86, R147). -/
def interpolate (q : Int) (phase : Nat) : Int :=
  if 0 ≤ q then q * phase / 256 else -(-q * phase / 256)

/-- The reference's live value at the present phase (R147). -/
def State.liveReference (s : State) (c : Channel) : Word :=
  c.latestS + BitVec.ofInt 32 (interpolate c.latestQ s.phase)

/-- A leading edge forms an exposure and stores it (R147, R148). -/
def State.expose (s : State) (i : Fin 4) : State :=
  let c := s.cmu.ch[i]
  let x : Exposure := { stamp := s.stamp, ref := s.liveReference c, count := c.count }
  (s.onChannel i fun c => { c with exposure := some x, overrun := c.overrun || c.exposure.isSome }).notifyIf
    c.exposure.isSome 13

/-- The EXP line of channel `i` goes to a level; an edge counts at a configured channel only (R147). -/
def State.expLine (s : State) (i : Fin 4) (level : Bool) : State :=
  let was := s.cmu.ch[i].expLevel
  let s1 := s.onChannel i fun c => { c with expLevel := level }
  match s.cfg.cams[i] with
  | some cam => if s.configured && decide (was ≠ level) && (level != cam.activeLow) then s1.expose i else s1
  | none => s1

end Sys2Proof.Machine
end

