-- ==== Sys2Proof/Machine/Landing.lean ====
section
/-! DEFINITION. The landing queue: runs and bursts (R38, R42), URGENT requests with their word-by-word merge and
follow-on records (R40), NORMAL requests and their discard (R41), starvation (R43). -/

namespace Sys2Proof.Machine

/-! ### Runs and bursts -/

/-- Consecutive words cut into bursts of up to 8 words, ascending (R42). `fuel` bounds the number of bursts. -/
def splitWords (fuel addr : Nat) (ws : List Word) : List Run :=
  match fuel with
  | 0 => []
  | fuel + 1 =>
    if ws.isEmpty then [] else { addr := addr, words := ws.take 8 } :: splitWords fuel (addr + 8) (ws.drop 8)

/-- The bursts of an entry, in the order they are issued (R42). -/
def burstsOf (rs : List Run) : List Run := rs.flatMap fun r => splitWords r.words.length r.addr r.words

/-- The words of runs with their addresses. -/
def addressed (rs : List Run) : List (Nat × Word) :=
  rs.flatMap fun r => (List.range r.words.length).map fun i => (r.addr + i, r.words.getD i 0)

/-- Put a word at its address in a list of words with rising addresses, replacing one already there. -/
def putWord (m : List (Nat × Word)) (a : Nat) (w : Word) : List (Nat × Word) :=
  match m with
  | [] => [(a, w)]
  | (k, x) :: r => if a < k then (a, w) :: (k, x) :: r else if a = k then (a, w) :: r else (k, x) :: putWord r a w

/-- Words with rising addresses as maximal runs. -/
def groupRuns (m : List (Nat × Word)) : List Run :=
  match m with
  | [] => []
  | (a, w) :: r =>
    match groupRuns r with
    | [] => [{ addr := a, words := [w] }]
    | g :: gs => if g.addr = a + 1 then { addr := a, words := w :: g.words } :: gs
      else { addr := a, words := [w] } :: g :: gs

/-- Two requests merged word by word: the new one's words win (R40). The merged runs are in the order of rising addresses:
the model's choice (log 55). -/
def mergeRuns (old new : List Run) : List Run :=
  groupRuns ((addressed new).foldl (fun m p => putWord m p.1 p.2)
    ((addressed old).foldl (fun m p => putWord m p.1 p.2) []))

/-! ### URGENT requests -/

/-- The entry's first burst has begun: one is done, or it holds the M-port (R40). -/
def Lde.hasBegun (q : Lde) (e : UrgentEntry) : Bool :=
  decide (0 < e.done) || (decide (q.holder = .urgent) && decide (q.urgent.head? = some e))

/-- Put a request into the source's follow-on record (R40). -/
def addFollow (f : List (UrgentSource × List Run)) (src : UrgentSource) (runs : List Run) :
    List (UrgentSource × List Run) :=
  match f with
  | [] => [(src, runs)]
  | (k, old) :: r => if k = src then (k, mergeRuns old runs) :: r else (k, old) :: addFollow r src runs

/-- An URGENT request: a new entry, or coalesced into the source's entry or follow-on record (R40). -/
def Lde.requestUrgent (q : Lde) (src : UrgentSource) (runs : List Run) : Lde :=
  match q.urgent.find? fun e => decide (e.src = src) with
  | none => { q with urgent := q.urgent ++ [{ src := src, runs := runs, done := 0 }] }
  | some e =>
    if q.hasBegun e then { q with follow := addFollow q.follow src runs }
    else { q with urgent := q.urgent.map fun x => if x.src = src then { x with runs := mergeRuns x.runs runs } else x }

/-- An URGENT request; a request with nothing to land is none (R124). -/
def State.requestUrgent (s : State) (src : UrgentSource) (runs : List Run) : State :=
  if runs.isEmpty then s else s.onLde fun q => q.requestUrgent src runs

/-! ### NORMAL requests -/

/-- 20 NORMAL entries are queued: a NORMAL request is discarded (R41). -/
def State.normalFull (s : State) : Bool := decide (Config.normalPlaces ≤ s.lde.normal.length)

/-- A NORMAL request: entered at the tail, or discarded with notice flag 15 (R41). A requester with a discard case of
its own looks at `normalFull` first: it learns of the discard at the moment of its request. -/
def State.requestNormal (s : State) (req : Requester) (runs : List Run) : State :=
  if s.normalFull then s.notify 15
  else s.onLde fun q =>
    { q with normal := q.normal ++ [{ req := req, runs := runs, entered := s.now, done := 0, got := [] }] }

/-- Request the landing of a command's result word at word address `wa` (R37). -/
def State.requestResult (s : State) (wa : Nat) (w : Word) : State :=
  s.requestNormal .result [{ addr := wa, words := [w] }]

/-! ### Starvation -/

/-- The oldest NORMAL entry has waited for the starvation limit (R43). -/
def State.waitReached (s : State) : Bool :=
  match s.lde.normal with
  | [] => false
  | e :: _ => decide (s.cfg.starveUs * Config.ticksPerUs ≤ s.now - e.entered)

end Sys2Proof.Machine
end

