-- ==== Sys2Proof/Machine/Checks.lean ====
section
/-! DEFINITION. The check values: CRC-16 of the frame blocks (R5) and CRC-32 of the flash body (R188). Both start at
all ones, take each byte most significant bit first, and are not inverted. -/

namespace Sys2Proof.Machine

/-- One bit into the CRC-16 register, polynomial x^16 + x^12 + x^5 + 1 (R5). -/
def crc16Bit (c : BitVec 16) (b : Bool) : BitVec 16 :=
  if c.msb ^^ b then (c <<< 1) ^^^ 0x1021#16 else c <<< 1

/-- One byte into the CRC-16 register, most significant bit first. -/
def crc16Byte (c : BitVec 16) (x : Byte) : BitVec 16 :=
  (List.range 8).foldl (fun c i => crc16Bit c (x.getLsbD (7 - i))) c

/-- The CRC-16 of the bytes (R5). -/
def crc16 (bs : List Byte) : BitVec 16 := bs.foldl crc16Byte 0xFFFF#16

/-- The two check bytes, most significant first. -/
def crcBytes (c : BitVec 16) : List Byte := beBytes 2 c.toNat

/-- One bit into the CRC-32 register (R188). -/
def crc32Bit (c : Word) (b : Bool) : Word :=
  if c.msb ^^ b then (c <<< 1) ^^^ 0x04C11DB7#32 else c <<< 1

/-- One byte into the CRC-32 register, most significant bit first. -/
def crc32Byte (c : Word) (x : Byte) : Word :=
  (List.range 8).foldl (fun c i => crc32Bit c (x.getLsbD (7 - i))) c

/-- The CRC-32 of the flash body (R188). -/
def crc32 (bs : List Byte) : Word := bs.foldl crc32Byte 0xFFFFFFFF#32

/-- The bytes of a block, if every symbol of it had a known value (R1). -/
def blockBytes (b : Block) : Option (List Byte) :=
  match b with
  | [] => some []
  | none :: _ => none
  | some x :: r => (blockBytes r).map (x :: ·)

/-- The bytes of a block of `n` bytes that arrived whole and good: its last two bytes are the check of the others (R5). -/
def goodBytes (n : Nat) (b : Block) : Option (List Byte) :=
  match blockBytes b with
  | some bs => if bs.length = n && decide (bs.drop (n - 2) = crcBytes (crc16 (bs.take (n - 2)))) then some bs else none
  | none => none

/-- A block as sent: the checked part and its check (R5). -/
def sealed (bs : List Byte) : Block := (bs ++ crcBytes (crc16 bs)).map some

/-- The check of a slot: over the publisher's position byte and the 16 data bytes (R114). -/
def slotCrc (p : Nat) (data : List Byte) : BitVec 16 := crc16 (BitVec.ofNat 8 p :: data)

/-- The publisher of a slot that arrived whole: the position from 0 to 31 whose check matches, if any (R114). -/
def slotPublisher (b : Block) : Option (Fin 32 × List Byte) :=
  match blockBytes b with
  | some bs =>
    if bs.length = 18 then
      ((List.finRange 32).find? fun p => decide (crcBytes (slotCrc p.val (bs.take 16)) = bs.drop 16)).map
        fun p => (p, bs.take 16)
    else none
  | none => none

end Sys2Proof.Machine
end

