-- ==== Sys2Proof/Machine/Layouts.lean ====
section
/-! DEFINITION. The layouts of the frame blocks, the cells and their payloads (R127, R200), and of slot data (R197). -/

namespace Sys2Proof.Machine

/-! ### Header -/

/-- The code of a shaft state (R200). -/
def shaftCode (x : ShaftState) : Nat :=
  match x with
  | .standstill => 0
  | .ramping => 1
  | .running => 2
  | .held => 3
  | .stopping => 4
  | .coasted => 5

/-- The shaft state of a header's state byte; a code that R200 does not give leaves the state free (log 10). -/
def shaftStateOf (x : Byte) : ShaftState :=
  match x.toNat with
  | 0 => .standstill
  | 1 => .ramping
  | 2 => .running
  | 3 => .held
  | 4 => .stopping
  | 5 => .coasted
  | _ => Config.shaftStateOfCode x

/-- The fields of a good header (R200). A kind that is neither SETUP nor RUN is treated as SETUP (R197). -/
structure HeaderFields where
  cycle : Word
  run : Bool
  hop : Nat
  dApply : Nat
  l : Nat
  shaft : HeaderShaft
  deriving DecidableEq, Repr

/-- Read a header's bytes (R200). -/
def parseHeader (bs : List Byte) : HeaderFields :=
  { cycle := BitVec.ofNat 32 (field bs 0 4), run := decide (field bs 4 1 = 2), hop := field bs 5 1,
    dApply := field bs 6 2, l := field bs 8 4,
    shaft := { angle := BitVec.ofNat 32 (field bs 12 4), rev := BitVec.ofNat 16 (field bs 16 2),
               speed := field bs 18 4, state := shaftStateOf (byteAt bs 22) } }

/-- The header the master originates, with its check: its shaft fields hold the values `h` (R15, R56, R200). -/
def buildHeader (cycle : Word) (run : Bool) (dApply : Nat) (l : Word) (h : HeaderShaft) : Block :=
  sealed (beBytes 4 cycle.toNat ++ [if run then 2 else 1, 0] ++ beBytes 2 dApply ++ beBytes 4 l.toNat ++
    beBytes 4 h.angle.toNat ++ beBytes 2 h.rev.toNat ++ beBytes 4 h.speed ++ beBytes 1 (shaftCode h.state) ++
    List.replicate 7 0)

/-- A received hop count as it is forwarded: plus 1, but 255 stays 255 (R8). -/
def nextHop (hop : Nat) : Nat := if hop = 255 then 255 else hop + 1

/-- A header with its hop count rewritten and its check recomputed (R8). Its unassigned bytes stay as received: the model's
choice (log 73). -/
def withHop (bs : List Byte) (hop : Nat) : Block :=
  sealed (bs.take 5 ++ [BitVec.ofNat 8 hop] ++ (bs.take 30).drop 6)

/-! ### Trip block -/

/-- The mask of a class. -/
def ClassMasks.of (m : ClassMasks) (c : TripClass) : Word :=
  match c with
  | .a => m.a
  | .b => m.b
  | .c => m.c
  | .d => m.d
  | .clear => 0

/-- Apply a function to all four masks. -/
def ClassMasks.map (m : ClassMasks) (f : Word → Word) : ClassMasks :=
  { a := f m.a, b := f m.b, c := f m.c, d := f m.d }

/-- No position is set in any mask. -/
def ClassMasks.isEmpty (m : ClassMasks) : Bool := decide (m = ClassMasks.empty)

/-- The fields of a trip block (5.3). -/
structure TripFields where
  masks : ClassMasks
  fault : Option FaultRecord
  gen : Byte
  presence : Word
  ready : Word
  deriving DecidableEq, Repr

/-- Read the first-fault record (R200). -/
def parseFault (bs : List Byte) : Option FaultRecord :=
  let id := field bs 16 2
  if id.testBit 15 then
    some { position := BitVec.ofNat 5 (id / 256), source := BitVec.ofNat 5 id,
           cycle16 := BitVec.ofNat 16 (field bs 18 2), phase := byteAt bs 20 }
  else none

/-- Read a trip block's bytes (R200). -/
def parseTrip (bs : List Byte) : TripFields :=
  { masks := { a := BitVec.ofNat 32 (field bs 0 4), b := BitVec.ofNat 32 (field bs 4 4),
               c := BitVec.ofNat 32 (field bs 8 4), d := BitVec.ofNat 32 (field bs 12 4) },
    fault := parseFault bs, gen := byteAt bs 21, presence := BitVec.ofNat 32 (field bs 22 4),
    ready := BitVec.ofNat 32 (field bs 26 4) }

/-- The bytes of a first-fault record; an empty one is five zero bytes (R200). -/
def faultBytes (f : Option FaultRecord) : List Byte :=
  match f with
  | some r => beBytes 2 (pack [(r.source.toNat, 5), (0, 3), (r.position.toNat, 5), (0, 2), (1, 1)]) ++
      beBytes 2 r.cycle16.toNat ++ [r.phase]
  | none => List.replicate 5 0

/-- A trip block with its check (R200). -/
def buildTrip (t : TripFields) : Block :=
  sealed (beBytes 4 t.masks.a.toNat ++ beBytes 4 t.masks.b.toNat ++ beBytes 4 t.masks.c.toNat ++
    beBytes 4 t.masks.d.toNat ++ faultBytes t.fault ++ [t.gen] ++ beBytes 4 t.presence.toNat ++
    beBytes 4 t.ready.toNat)

/-! ### Tag block and slots -/

/-- The tag of slot `s` (R200). -/
def tagBit (bs : List Byte) (s : Fin 128) : Bool := (byteAt bs (s.val / 8)).getLsbD (s.val % 8)

/-- The tag bytes with the tags of the given slots set (R113). -/
def withTags (bs : List Byte) (set : List (Fin 128)) : List Byte :=
  (List.range 16).map fun i => set.foldl
    (fun b s => if s.val / 8 = i then b ||| (1#8 <<< (s.val % 8)) else b) (byteAt bs i)

/-- The 16 data bytes of a slot image: data byte 4w + j is byte 3 − j of word w (R197). -/
def imageBytes (v : SlotImage) : List Byte := v.toList.flatMap fun w => beBytes 4 w.toNat

/-- The words of 16 received data bytes (R197). -/
def imageWords (bs : List Byte) : List Word := (List.range 4).map fun w => BitVec.ofNat 32 (field bs (4 * w) 4)

/-- A slot as an inserting node at position `p` sends it (R114). -/
def buildSlot (p : Nat) (v : SlotImage) : Block := (imageBytes v ++ crcBytes (slotCrc p (imageBytes v))).map some

/-- A slot as the master starts it: all zeros (R15). -/
def emptySlot : Block := List.replicate 18 (some 0)

/-! ### Cells -/

/-- The fields of a cell (R127). -/
structure CellFields where
  kind : Nat
  source : Nat
  dest : Nat
  stream : Nat
  imgNo : BitVec 16
  index : Nat
  len : Nat
  first : Bool
  last : Bool
  overflow : Bool
  payload : List Byte
  deriving DecidableEq, Repr

/-- Read the 272 bytes of a cell's header and payload; the payload is handed up to its length (R135, R200). -/
def parseCell (bs : List Byte) : CellFields :=
  let flags := byteAt bs 10
  { kind := field bs 0 1, source := field bs 1 1, dest := field bs 2 1, stream := field bs 3 1,
    imgNo := BitVec.ofNat 16 (field bs 4 2), index := field bs 6 2, len := field bs 8 2,
    first := flags.getLsbD 0, last := flags.getLsbD 1, overflow := flags.getLsbD 2,
    payload := ((bs.drop 16).take 256).take (field bs 8 2) }

/-- A cell with its zero fill and its check (R127, R129). -/
def buildCell (c : CellFields) : Block :=
  sealed (beBytes 1 c.kind ++ beBytes 1 c.source ++ beBytes 1 c.dest ++ beBytes 1 c.stream ++
    beBytes 2 c.imgNo.toNat ++ beBytes 2 c.index ++ beBytes 2 c.len ++
    beBytes 1 (pack [(bit c.first, 1), (bit c.last, 1), (bit c.overflow, 1)]) ++ List.replicate 5 0 ++
    (c.payload ++ List.replicate (256 - c.payload.length) 0))

/-- An EMPTY cell as the master originates it (R15, R127). -/
def emptyCell : Block :=
  buildCell { kind := 0, source := 0, dest := 0, stream := 0, imgNo := 0, index := 0, len := 0, first := false,
              last := false, overflow := false, payload := [] }

/-- The cell's kind field reads EMPTY, judged from its 16 header bytes alone (R129). An invalid symbol there does not read
EMPTY: the model's choice (log 65). -/
def readsEmpty (b : Block) : Bool := decide (16 ≤ b.length) && decide (b.head? = some (some 0))

/-- The 32 bytes of an IMG-HEAD payload (R155, R200). -/
def headPayload (imgNo : BitVec 16) (size : Nat) (h : HeadInfo) : List Byte :=
  beBytes 2 imgNo.toNat ++ beBytes 1 (pack [(bit h.noExposure, 1), (bit h.overrun, 1)]) ++ [h.stamp.phase] ++
    beBytes 4 size ++ beBytes 4 h.stamp.cycle.toNat ++ beBytes 4 h.ref.toNat ++ beBytes 4 h.count.toNat ++
    List.replicate 12 0

/-- The 32 bytes of a received IMG-HEAD payload: those beyond its payload length are free (log 33). -/
def receivedHead (p : List Byte) : List Byte := p ++ (List.range (32 - p.length)).map fun i => Config.absentHeadByte p (p.length + i)

/-- The exposure fields of an IMG-HEAD payload (R200). -/
def parseHead (bs : List Byte) : HeadInfo :=
  { stamp := { cycle := BitVec.ofNat 32 (field bs 8 4), phase := byteAt bs 3 },
    ref := BitVec.ofNat 32 (field bs 12 4), count := BitVec.ofNat 32 (field bs 16 4),
    noExposure := (byteAt bs 2).getLsbD 0, overrun := (byteAt bs 2).getLsbD 1 }

/-- The 8 bytes of a key event (R200). -/
def keyEventBytes (e : KeyEvent) : List Byte :=
  [BitVec.ofNat 8 e.key.val, if e.press then 1 else 0, e.stamp.phase, 0] ++ beBytes 4 e.stamp.cycle.toNat

end Sys2Proof.Machine
end

