-- ==== Sys2Proof/Machine/Operands.lean ====
section
/-! DEFINITION. What an address names (R27, R28, R201), what a command word carries (R197), how a result word is formed
(R199), and the parameters of the configured windows (R159, R170). -/

namespace Sys2Proof

/-! ### The window table -/

/-- Word address of a window's first word. -/
def Window.word (w : Window) : Nat := w.base / 4

/-- The window that holds byte address `a`. -/
def NodeCfg.windowAt (c : NodeCfg) (a : Nat) : Option Window :=
  c.windows.find? fun w => decide (w.base ≤ a) && decide (a < w.base + w.len)

/-- Window number `i` of kind `k`. -/
def NodeCfg.nth (c : NodeCfg) (k : WindowKind) (i : Nat) : Option Window :=
  c.windows.find? fun w => decide (w.kind = k) && decide (w.idx = i)

/-- The one window of kind `k` (NODE, SHAFT, AXIS, TRIP, KEYS). -/
def NodeCfg.only (c : NodeCfg) (k : WindowKind) : Option Window := c.nth k 0

/-- SLOT-IN window `i`: the window, its entries' slots, stale limit and trip-on-stale marking (R117). -/
def NodeCfg.slotIn (c : NodeCfg) (i : Fin 8) : Option (Window × List (Fin 128) × Nat × Bool) :=
  match c.nth .slotIn i.val with
  | some w => match w.params with
    | .slotIn es lim trip => some (w, es, lim, trip)
    | _ => none
  | none => none

/-- The slot that entry `k` of SLOT-IN window `i` names, if there is such an entry. -/
def NodeCfg.entrySlot (c : NodeCfg) (i k : Fin 8) : Option (Fin 128) :=
  match c.slotIn i with
  | some (_, es, _, _) => es[k.val]?
  | none => none

/-- The node subscribes to the slot (R117). -/
def NodeCfg.subscribes (c : NodeCfg) (s : Fin 128) : Bool :=
  (List.finRange 8).any fun i => match c.slotIn i with
    | some (_, es, _, _) => es.contains s
    | none => false

/-- Receive stream `i`: its IMG-IN window and parameters (R159). -/
def NodeCfg.stream (c : NodeCfg) (i : Fin 4) : Option (Window × StreamParams) :=
  match c.nth .imgIn i.val with
  | some w => match w.params with
    | .imgIn p => some (w, p)
    | _ => none
  | none => none

/-- A screen window's parameters. -/
def NodeCfg.screen (c : NodeCfg) (k : WindowKind) (i : Fin 2) : Option (Window × ScreenParams) :=
  match c.nth k i.val with
  | some w => match w.params with
    | .screen p => some (w, p)
    | _ => none
  | none => none

/-- Outgoing screen `i` (R170). -/
def NodeCfg.screenOut (c : NodeCfg) (i : Fin 2) : Option (Window × ScreenParams) := c.screen .screenOut i

/-- Incoming screen `i` (R177). -/
def NodeCfg.screenIn (c : NodeCfg) (i : Fin 2) : Option (Window × ScreenParams) := c.screen .screenIn i

/-- The camera channel has a CAM-OUT window (9.2). -/
def NodeCfg.hasCamOut (c : NodeCfg) (ch : Fin 4) : Bool :=
  c.windows.any fun w => decide (w.kind = .camOut) && decide (w.params = .camOut ch)

/-! ### Screen geometry (R170) -/

/-- Pixels of a tile's width: 32 at 8 bpp, 16 at 16 bpp. -/
def ScreenParams.tilePx (p : ScreenParams) : Nat := if p.depth = 16 then 16 else 32

/-- Tiles per row. -/
def ScreenParams.perRow (p : ScreenParams) : Nat := p.width / p.tilePx

/-- Tile count. -/
def ScreenParams.tiles (p : ScreenParams) : Nat := p.perRow * (p.height / 8)

/-- Window offset of row `j` of tile `t`. -/
def ScreenParams.rowOffset (p : ScreenParams) (t j : Nat) : Nat :=
  (t / p.perRow * 8 + j) * p.stride + t % p.perRow * 32

/-- The tile a byte offset falls in; none in the padding of the stride (R171). -/
def ScreenParams.tileAt (p : ScreenParams) (off : Nat) : Option Nat :=
  if off % p.stride < p.perRow * 32 then
    let t := off / p.stride / 8 * p.perRow + off % p.stride / 32
    if t < p.tiles then some t else none
  else none

namespace Machine

/-! ### Word classes (R28) -/

/-- The four word classes and the words outside every window. -/
inductive WordClass where
  | outside
  | ordinary
  | capture
  | landed
  | substituted
  deriving DecidableEq, Repr

/-- The word class of what an address names (R28). -/
def Ident.wordClass (i : Ident) : WordClass :=
  match i with
  | .outside => .outside
  | .ordinary => .ordinary
  | .noticeMask => .capture
  | .noticeClear => .capture
  | .refresh => .capture
  | .nodeLive _ => .substituted
  | .shaftCommand => .capture
  | .shaftParam => .capture
  | .axisCommand _ => .capture
  | .axisParam _ => .capture
  | .axisLive _ => .substituted
  | .tripCommand _ => .capture
  | .slotWord _ _ => .capture
  | .withdraw _ _ => .capture
  | .release _ _ => .capture
  | .camOut _ _ => .capture
  | .screenOut _ _ => .capture
  | .landed _ => .landed

/-- The capture words whose writes update a shadow: all but CAM-OUT and SCREEN-OUT (R30, R31). -/
def Ident.hasShadow (i : Ident) : Bool :=
  match i with
  | .camOut _ _ => false
  | .screenOut _ _ => false
  | i => decide (i.wordClass = .capture)

/-- The beat reaches memory: every read but a substituted one, and the writes outside windows, of ordinary and of
capture words (R28). -/
def Ident.reaches (i : Ident) (write : Bool) : Bool :=
  match i.wordClass with
  | .substituted => false
  | .landed => !write
  | _ => true

/-- The map of a NODE window (R201). -/
def nodeIdent (off : Nat) : Ident :=
  if off = 0x08 then .noticeMask else if off = 0x0C then .noticeClear else if off = 0x10 then .refresh
  else .nodeLive off

/-- The map of a SHAFT window (R201). -/
def shaftIdent (off : Nat) : Ident :=
  if off = 0x00 then .shaftCommand else if off = 0x04 ∨ off = 0x08 then .shaftParam
  else if off ≤ 0x34 then .landed .shaft else .ordinary

/-- The map of an AXIS window: a block of 64 bytes for each axis (R201). -/
def axisIdent (off : Nat) : Ident :=
  let n : Fin 8 := Fin.ofNat 8 (off / 64)
  let o := off % 64
  if o = 0x00 then .axisCommand n else if o ≤ 0x0C then .axisParam n else if o = 0x10 then .landed .axis
  else if o = 0x14 then .axisLive n else if 0x20 ≤ o then .landed .axis else .ordinary

/-- The map of a TRIP window (R201). -/
def tripIdent (off : Nat) : Ident :=
  if off ≤ 0x08 then .tripCommand (Fin.ofNat 3 (off / 4))
  else if 0x10 ≤ off ∧ off ≤ 0x18 ∨ 0x20 ≤ off ∧ off ≤ 0x38 then .landed .trip else .ordinary

/-- The map of a SLOT-OUT window (R201). -/
def slotOutIdent (first count off : Nat) : Ident :=
  if off < 16 * count then .slotWord (Fin.ofNat 128 (first + off / 16)) (off % 16 / 4)
  else if off = 16 * count then .withdraw first count else .ordinary

/-- The map of an IMG-IN window with buffer count and size (R159). -/
def imgInIdent (st : Fin 4) (p : StreamParams) (off : Nat) : Ident :=
  let d := off - p.count * p.size
  if off < p.count * p.size ∨ 32 * p.count ≤ d then .ordinary
  else if d % 32 = 28 then .release st (Fin.ofNat 16 (d / 32)) else .landed .imgIn

/-- What offset `off` of a window names, by the map of its kind (R28). Every word of a KEYS window is landed, the unnamed ones
behind the write-index word too: the model's choice (log 76). -/
def windowIdent (w : Window) (off : Nat) : Ident :=
  match w.kind, w.params with
  | .node, _ => nodeIdent off
  | .shaft, _ => shaftIdent off
  | .axis, _ => axisIdent off
  | .trip, _ => tripIdent off
  | .slotOut, .slotOut first count => slotOutIdent first count off
  | .slotIn, .slotIn es _ _ => if off / 32 < es.length ∧ off % 32 < 20 then .landed .slotIn else .ordinary
  | .camOut, .camOut ch => .camOut ch off
  | .imgIn, .imgIn p => imgInIdent (Fin.ofNat 4 w.idx) p off
  | .screenOut, _ => .screenOut (Fin.ofNat 2 w.idx) off
  | .screenIn, _ => .landed .screenIn
  | .keys, _ => .landed .keys
  | _, _ => .ordinary

/-- What a word address names; the table is empty until configuration completes (R26, R28). -/
def State.identOf (s : State) (wa : Nat) : Ident :=
  if s.configured then
    match s.cfg.windowAt (4 * wa) with
    | some w => windowIdent w (4 * wa - w.base)
    | none => .outside
  else .outside

/-- The kind of a landed word's window, for the blocked-write latch (R33). -/
def Ident.landedKind (i : Ident) : WindowKind :=
  match i with
  | .landed k => k
  | _ => .node

/-! ### Commands and results (R197, R199) -/

/-- The tag of a command word. -/
def cmdTag (w : Word) : Nat := bits w 0 8
/-- The command code of a command word. -/
def cmdCode (w : Word) : Nat := bits w 8 8
/-- The operand of a command word. -/
def cmdOperand (w : Word) : Nat := bits w 16 16

/-- The result codes (R199). -/
inductive ResultCode where
  | accepted
  | clamped
  | refusedRange
  | refusedTripped
  | refusedState
  | notMaster
  deriving DecidableEq, Repr

/-- Their numbers (R199). -/
def ResultCode.code (r : ResultCode) : Nat :=
  match r with
  | .accepted => 1
  | .clamped => 2
  | .refusedRange => 3
  | .refusedTripped => 4
  | .refusedState => 5
  | .notMaster => 6

/-- A result word: tag, code, value (R199). -/
def resultWord (tag : Nat) (code : ResultCode) (value : Nat) : Word :=
  packWord [(tag, 8), (code.code, 3), (0, 5), (value, 16)]

/-- The window kind's code in the blocked-write latch and the flash image (R201, R202). -/
def kindCode (k : WindowKind) : Nat :=
  match k with
  | .node => 1
  | .shaft => 2
  | .axis => 3
  | .trip => 4
  | .slotOut => 5
  | .slotIn => 6
  | .camOut => 7
  | .imgIn => 8
  | .screenOut => 9
  | .screenIn => 10
  | .keys => 11

end Machine
end Sys2Proof
end

