-- ==== Sys2Proof/Machine/Trip.lean ====
section
/-! DEFINITION. The Trip Unit (section 5): latch and stamps, acting class, enable lines, the trip block on both runs,
the reset token, the TRIP window's commands and the trip status record. -/

namespace Sys2Proof.Machine

/-! ### Stamps and the latch -/

/-- Stamp `x` is earlier than stamp `y` (R93). -/
def Stamp.earlier (x y : Stamp) : Bool :=
  decide (0 < signedDiff y.cycle x.cycle) || (decide (x.cycle = y.cycle) && decide (x.phase.toNat < y.phase.toNat))

/-- The class a source is latched with: source 8 by its request, the others by configuration (R88). -/
def State.sourceClass (s : State) (n : Fin 15) : TripClass := if n = 8 then s.tru.class8 else s.cfg.classes[n]

/-- The most severe class among the latched sources (R94). -/
def State.localClass (s : State) : TripClass :=
  (List.finRange 15).foldl (fun c n => if (s.tru.latch[n]).isSome then c.worst (s.sourceClass n) else c) .clear

/-- The most severe class whose remote mask holds a bit of another position (R94). -/
def State.remoteClass (s : State) : TripClass :=
  let m := s.tru.remote.map fun w => w &&& ~~~s.ownBit
  if m.a ≠ 0 then .a else if m.b ≠ 0 then .b else if m.c ≠ 0 then .c else if m.d ≠ 0 then .d else .clear

/-- Source `n` is latched with a stamp earlier than that of every latched source below it (R93). -/
def State.earliestBefore (s : State) (n : Fin 15) (st : Stamp) : Bool :=
  (List.finRange 15).all fun m => decide (n ≤ m) || (s.tru.latch[m]).all st.earlier

/-- The local first source, found from source 0 upward: the last source whose stamp is earlier than that of every source
found before it (R93). -/
def State.firstSource (s : State) : Option (Fin 15 × Stamp) :=
  (List.finRange 15).foldl (fun best n =>
    match s.tru.latch[n] with
    | none => best
    | some st => if s.earliestBefore n st then some (n, st) else best) none

/-! ### The acting class and the enable lines -/

/-- A scheduled firing not yet made is cancelled and counts as skipped (R146). -/
def State.cancelFirings (s : State) : State :=
  (s.notifyIf (s.cmu.ch.any fun c => c.sched.isSome) 13).onCmu fun u =>
    { u with ch := u.ch.map fun c => if c.sched.isSome then { c with sched := none, skipped := true, seek := true } else c }

/-- The acting class becomes `new`: the stop timer and the force of the enable lines (R102). -/
def Tru.setActing (t : Tru) (new : TripClass) : Tru :=
  match new with
  | .a => { t with acting := .a, forced := true, requests := 0 }
  | .b => if t.acting.stops then { t with acting := .b } else { t with acting := .b, timerOn := true, timerCount := 0 }
  | .c => if t.acting.stops then { t with acting := .c } else { t with acting := .c, timerOn := true, timerCount := 0 }
  | .d => { t with acting := .d, timerOn := false, timerCount := 0, forced := false }
  | .clear => { t with acting := .clear, timerOn := false, timerCount := 0, forced := false }

/-- Recompute the acting class; a change is handed at once to the Camera Unit and the enable lines (R94, R95). -/
def State.recompute (s : State) : State :=
  let new := s.localClass.worst s.remoteClass
  if new = s.tru.acting then s
  else
    let s1 := s.onTru fun t => t.setActing new
    if new.stops then s1.cancelFirings else s1

/-- A source whose class is not NONE is latched, with a stamp, when its condition becomes present and it is not latched
(R91). -/
def State.handStamped (s : State) (n : Fin 15) (present : Bool) (stamp : Stamp) : State :=
  let was := s.tru.cond[n]
  let s1 := s.onTru fun t => { t with cond := setAt t.cond n present }
  if present && !was && decide (s.cfg.classes[n] ≠ .clear) && (s.tru.latch[n]).isNone then
    (s1.onTru fun t => { t with latch := setAt t.latch n (some stamp) }).recompute
  else s1

/-- A condition is handed over: the stamp is the node's synchronized time (R91). -/
def State.handCondition (s : State) (n : Fin 15) (present : Bool) : State := s.handStamped n present s.stamp

/-- The filter of a trip input that reads active starts; with filter time 0 the condition is present at once (R89). -/
def State.startFilter (s : State) (n : Fin 8) : State :=
  if s.readsActive n s.tru.tiLevel[n] then
    if s.cfg.tiFilter[n] = 0 then s.handCondition (Fin.ofNat 15 n.val) true
    else s.onTru fun t => { t with filter := setAt t.filter n (some s.now) }
  else s

/-- The TRU's epoch work: the stop timer counts, and the lines are forced when the shadow speed is 0 or at the stop
timeout (R102). Past 65,535, the top of its field, the count is free (log 21). -/
def State.truEpoch (s : State) : State :=
  if s.tru.acting.ramps then
    s.onTru fun t =>
      let n := if !t.timerOn then t.timerCount else if t.timerCount < 65535 then t.timerCount + 1
        else (Config.stopCountPastTop s.now).toNat
      let t1 := { t with timerCount := n }
      if decide (s.lsu.shadow.speed = 0) || (t.timerOn && decide (s.cfg.stopTimeout ≤ n)) then
        { t1 with forced := true, requests := 0 }
      else t1
  else s

/-- The force and the stop timer as they stand at configuration completion (R102, R109). -/
def Tru.start (t : Tru) : Tru :=
  { t with forced := decide (t.acting = .a), timerOn := t.acting.ramps, timerCount := 0 }

/-! ### The reset token -/

/-- A reset token: the sources whose conditions are absent leave the latch, and the power-up hold is released (R105). -/
def State.takeToken (s : State) (gen : Byte) : State :=
  (s.onTru fun t =>
    { t with known := gen, class8 := .clear, hold := false,
             latch := Vector.ofFn fun n => if n = 8 then none else if t.cond[n] then t.latch[n] else none }).recompute

/-! ### Marks and the first-fault record -/

/-- The node holds a latched source of the class. -/
def State.holds (s : State) (c : TripClass) : Bool :=
  (List.finRange 15).any fun n => (s.tru.latch[n]).isSome && decide (s.sourceClass n = c)

/-- Set the node's bit in the mask of each class it holds latched (R98, R99). -/
def State.markOwn (s : State) (m : ClassMasks) : ClassMasks :=
  { a := if s.holds .a then m.a ||| s.ownBit else m.a, b := if s.holds .b then m.b ||| s.ownBit else m.b,
    c := if s.holds .c then m.c ||| s.ownBit else m.c, d := if s.holds .d then m.d ||| s.ownBit else m.d }

/-- Clear the node's bit in all four masks (R98). -/
def State.clearOwn (s : State) (m : ClassMasks) : ClassMasks := m.map fun w => w &&& ~~~s.ownBit

/-- The record's stamp with its cycle number extended from the offer's (R198). -/
def FaultRecord.extended (r : FaultRecord) (offer : Stamp) : Stamp :=
  { cycle := offer.cycle + (r.cycle16 - offer.cycle.setWidth 16).signExtend 32, phase := r.phase }

/-- The node's offer as a record: the low 16 bits of the stamp's cycle number are stored (R198). -/
def State.offerRecord (s : State) (n : Fin 15) (st : Stamp) : FaultRecord :=
  { position := BitVec.ofNat 5 s.ownPosition, source := BitVec.ofNat 5 n.val, cycle16 := st.cycle.setWidth 16,
    phase := st.phase }

/-- Offer the local first source to a first-fault record (R97). -/
def State.offer (s : State) (f : Option FaultRecord) : Option FaultRecord :=
  match s.firstSource with
  | none => f
  | some (n, st) =>
    match f with
    | none => some (s.offerRecord n st)
    | some r =>
      if st.earlier (r.extended st) || (decide (st = r.extended st) && decide (s.ownPosition < r.position.toNat)) then
        some (s.offerRecord n st)
      else some r

/-! ### The trip block -/

/-- A good out-run trip block at a member: what the node does, and the block it forwards (R98, R12, R105). -/
def State.memberTrip (s : State) (t : TripFields) (headerGood : Bool) : State × TripFields :=
  match s.flu.ring with
  | .seeking => (s.onTru fun u => { u with known := t.gen }, t)
  | .following =>
    let s1 := (s.onTru fun u => { u with remote := t.masks, known := t.gen }).recompute
    (s1, { t with masks := s1.clearOwn t.masks,
                  presence := if headerGood then t.presence ||| s.ownBit else t.presence })
  | .joined =>
    let s1 := (s.onTru fun u => { u with remote := t.masks }).recompute
    let s2 := if t.gen ≠ s1.tru.known then s1.takeToken t.gen else s1
    (s2, { t with masks := s2.markOwn (s2.clearOwn t.masks), fault := s2.offer t.fault,
                  presence := if headerGood then t.presence ||| s.ownBit else t.presence,
                  ready := if headerGood then t.ready ||| s.ownBit else t.ready })

/-- A good return trip block at a member: own marks in JOINED, and the press first-fault record (R99). -/
def State.memberReturnTrip (s : State) (t : TripFields) : State × TripFields :=
  (s.onTru fun u => { u with pressFault := t.fault },
   if s.isJoined then { t with masks := s.markOwn t.masks } else t)

/-- The press trip state at a matched return with a good trip block (R106). While a reset is pending its new
generation has not been originated yet, so no return can carry it (log 22). -/
def nextPress (t : Tru) (gen : Byte) (masks : ClassMasks) : PressState :=
  match t.press with
  | .resetting =>
    if t.resetPending || decide (gen ≠ t.known) then .resetting else if masks.isEmpty then .clear else .tripped
  | .clear => if masks.isEmpty then .clear else .tripped
  | .tripped => .tripped
  | .notApplicable => .notApplicable

/-- The master's part of a good matched return trip block: relay store, press first-fault record, press trip state
(R96, R99, R106). -/
def State.masterReturnTrip (s : State) (t : TripFields) : State :=
  s.onTru fun u =>
    { u with relay := some { masks := t.masks, presence := t.presence, fault := t.fault }, pressFault := t.fault,
             press := nextPress u t.gen t.masks }

/-- The master forms the trip block of a frame (R96): reset token, relayed masks, own marks, remote view, first-fault
record, presence and ready. -/
def State.formTrip (s : State) : State × TripFields :=
  let reset := s.tru.resetPending
  let s1 := if reset then (s.takeToken (s.tru.known + 1)).onTru fun u => { u with resetPending := false } else s
  let relayed := match s.tru.relay with
    | some r => r.masks.map fun w => (w &&& r.presence) &&& ~~~1#32
    | none => ClassMasks.empty
  let masks := s1.markOwn relayed
  let s2 := (s1.onTru fun u => { u with remote := masks }).recompute
  let carried := if reset then none else match s.tru.relay with
    | some r => r.fault
    | none => none
  (s2, { masks := masks, fault := s2.offer carried, gen := s2.tru.known, presence := 1, ready := 1 })

/-! ### Commands of the TRIP window -/

/-- The generation the master's next origination will carry (R104). -/
def Tru.nextGeneration (t : Tru) : Byte := if t.resetPending then t.known + 1 else t.known

/-- Judge a trip request with its operand (R92). -/
def State.judgeTripRequest (s : State) (operand : Nat) : ResultCode × State :=
  match TripClass.ofCode operand with
  | none => (.refusedRange, s)
  | some .clear => (.refusedRange, s)
  | some c =>
    if (s.tru.latch[(8 : Fin 15)]).isNone then
      (.accepted, (s.onTru fun t => { t with class8 := c, latch := setAt t.latch 8 (some s.stamp) }).recompute)
    else if s.tru.class8.severity < c.severity then
      (.accepted, (s.onTru fun t => { t with class8 := c }).recompute)
    else (.accepted, s)

/-- Judge a reset request (R104, R106). -/
def State.judgeReset (s : State) : ResultCode × State :=
  if !s.isMaster then (.notMaster, s)
  else if s.lsu.gen.state = .stopping then (.refusedState, s)
  else (.accepted, s.onTru fun t => { t with resetPending := true, press := .resetting })

/-- Judge an enable request for the four lines (R101). -/
def State.judgeEnable (s : State) (req : BitVec 4) : ResultCode × State :=
  if req ≠ 0 ∧ s.tru.linesForced = true then (.refusedTripped, s)
  else (.accepted, s.onTru fun t => { t with requests := req })

/-- Request the landing of the result of TRIP command `which` (R108). -/
def State.tripResult (s : State) (which : Fin 3) (w : Word) : State :=
  match s.cfg.only .trip with
  | some win => s.requestResult (win.word + 4 + which.val) w
  | none => s

/-- Take a trip request from its shadow word (R36, R92). -/
def State.takeTripRequest (s : State) (w : Word) : State :=
  let (code, s1) := if cmdCode w = 1 then s.judgeTripRequest (cmdOperand w) else (.refusedRange, s)
  s1.tripResult 0 (resultWord (cmdTag w) code 0)

/-- Take a reset request from its shadow word (R36, R104). At a member the result value is free (log 23), and so it is for
a code that is not defined (log 48). -/
def State.takeReset (s : State) (w : Word) : State :=
  if cmdCode w = 1 then
    let (code, s1) := s.judgeReset
    s1.tripResult 1 (resultWord (cmdTag w) code (if s.isMaster then s1.tru.nextGeneration.toNat else (Config.memberResetValue s.now).toNat))
  else s.tripResult 1 (resultWord (cmdTag w) .refusedRange (Config.undefinedResetValue s.now).toNat)

/-- Take an enable request from its shadow word (R36, R101). The result value for a code that is not defined is free
(log 48). Operand bits 15 to 4 are ignored: the model's choice (log 36). -/
def State.takeEnable (s : State) (w : Word) : State :=
  if cmdCode w = 1 then
    let (code, s1) := s.judgeEnable (BitVec.ofNat 4 (cmdOperand w))
    s1.tripResult 2 (resultWord (cmdTag w) code s1.tru.outputs.toNat)
  else s.tripResult 2 (resultWord (cmdTag w) .refusedRange (Config.undefinedEnableValue s.now).toNat)

/-- Take the pending TRIP command `which` (R36). -/
def State.takeTripCommand (s : State) (which : Fin 3) (w : Word) : State :=
  if which = 0 then s.takeTripRequest w else if which = 1 then s.takeReset w else s.takeEnable w

/-! ### The trip status record -/

/-- The code of the press trip state (R201). -/
def PressState.code (p : PressState) : Nat :=
  match p with
  | .notApplicable => 0
  | .tripped => 1
  | .resetting => 2
  | .clear => 3

/-- The latch as a set of source numbers. -/
def Tru.latchBits (t : Tru) : Nat := pack ((List.finRange 15).map fun n => (bit (t.latch[n]).isSome, 1))

/-- The words of the trip status record (R107, R201); the fields of an absent first source or press first-fault record are 0
(log 59). -/
def State.tripRecord (s : State) : List Word :=
  let t := s.tru
  [ BitVec.ofNat 32 t.latchBits,
    packWord [(t.acting.code, 3), (0, 1), (s.remoteClass.code, 3), (0, 1), (t.class8.code, 3), (0, 5), (t.known.toNat, 8)],
    match s.firstSource with
      | some (n, st) => packWord [(n.val, 5), (0, 3), (st.phase.toNat, 8), (0, 15), (1, 1)]
      | none => 0,
    match s.firstSource with
      | some (_, st) => st.cycle
      | none => 0,
    match t.pressFault with
      | some r => packWord [(r.source.toNat, 5), (0, 3), (r.position.toNat, 5), (0, 3), (r.phase.toNat, 8), (0, 7), (1, 1)]
      | none => 0,
    packWord [(match t.pressFault with | some r => r.cycle16.toNat | none => 0, 16), (t.press.code, 2),
      (bit t.resetPending, 1)],
    packWord [(t.requests.toNat, 4), (t.outputs.toNat, 4), (bit t.linesForced, 1), (bit t.hold, 1), (0, 6),
      (t.timerCount, 16)] ]

/-- Request the landing of the trip status record, at a node with a TRIP window (R107). -/
def State.landTripRecord (s : State) : State :=
  match s.cfg.only .trip with
  | some win => s.requestUrgent .trip [{ addr := win.word + 8, words := s.tripRecord }]
  | none => s

/-- After a step from `s0` to `s`: flag 0 at a change of latch, acting class or press first-fault record, and the
landing of the record if any field of it changed (R107). Nothing before configuration completes (R109). The class of
source 8 counts as part of the latch, as R107 lists it: the model's choice (log 56). -/
def State.reportTrip (s0 s : State) : State :=
  if s.configured then
    let changed := decide (s.tru.latch ≠ s0.tru.latch) || decide (s.tru.class8 ≠ s0.tru.class8) ||
      decide (s.tru.acting ≠ s0.tru.acting) || decide (s.tru.pressFault ≠ s0.tru.pressFault)
    let s1 := s.notifyIf changed 0
    if s.tripRecord ≠ s0.tripRecord then s1.landTripRecord else s1
  else s

end Sys2Proof.Machine
end

