-- ==== Sys2Proof/Machine/Axis.lean ====
section
/-! DEFINITION. The Axis Unit (section 4): the steps of an axis at an epoch, its commands, the setpoint record, results
and live angle. -/

namespace Sys2Proof.Machine

/-- What an axis sees of its node at an epoch: the shadow's A, the acting class, the resync mark, the fresh values, and
which slots the node subscribes to. -/
structure AxisView where
  shadow : Word
  acting : TripClass
  resync : Bool
  fresh : Vector (Option Word) 128
  subscribed : Vector Bool 128

/-- A command as an axis takes it, from its shadows (R35, R201). -/
structure AxisCommand where
  tag : Nat
  code : Nat
  operand : Nat
  n : Nat
  d : Nat
  target : Word
  slew : Nat
  deriving DecidableEq, Repr

/-- The fresh value that waits for a source (R70). -/
def AxisView.freshFor (v : AxisView) (src : AxisSource) : Option Word :=
  match src with
  | .shaft => none
  | .slot n => v.fresh[n]

/-! ### Steps 1 and 2 (R77, R78) -/

/-- Step 1: class A sends an ENGAGED axis to HOLD (R77). -/
def Axis.tripReaction (a : Axis) (v : AxisView) : Axis :=
  if v.acting = .a ∧ a.state = .engaged then { a with state := .hold } else a

/-- Step 2: the resync mark at a SHAFT-sourced axis (R78). -/
def Axis.resync (a : Axis) (v : AxisView) : Axis :=
  if v.resync = true ∧ a.source = .shaft then
    if a.state = .engaged then { a with ref := some v.shadow, state := .hold, resyncHold := true }
    else { a with ref := some v.shadow }
  else a

/-! ### Step 3 (R79 to R84) -/

/-- A SLOT-sourced axis would lose its source at once (R80). -/
def Axis.sourceless (a : Axis) (v : AxisView) : Bool :=
  match a.source with
  | .shaft => false
  | .slot _ => a.ref.isNone || (decide (a.limit ≤ a.miss) && (v.freshFor a.source).isNone)

/-- The axis at the geared phase of its source reference (R80). -/
def Axis.phased (a : Axis) : Axis :=
  let p := (a.ref.getD 0).toNat * a.n
  { a with theta := BitVec.ofNat 32 (p / a.d), r := p % a.d }

/-- ENGAGE: mode 0 CONTINUE, 1 PHASE (R80). -/
def Axis.engage (a : Axis) (v : AxisView) (mode : Nat) : ResultCode × Axis :=
  if 1 < mode then (.refusedRange, a)
  else if a.state = .engaged then (.refusedState, a)
  else if v.acting.stops then (.refusedTripped, a)
  else if a.sourceless v then (.refusedState, a)
  else
    let a1 := if mode = 0 then { a with r := 0 } else a.phased
    (.accepted, { a1 with state := .engaged, resyncHold := false, sourceLost := false, extrap := false })

/-- DISENGAGE (R81). -/
def Axis.disengage (a : Axis) : ResultCode × Axis :=
  (.accepted, { a with state := .idle, resyncHold := false, sourceLost := false, extrap := false })

/-- SET-GEAR (R82). -/
def Axis.setGear (a : Axis) (n d : Nat) : ResultCode × Axis :=
  if d = 0 then (.refusedRange, a) else (.accepted, { a with n := n, d := d, r := 0 })

/-- SET-OFFSET (R83). -/
def Axis.setOffset (a : Axis) (target : Word) (slew : Nat) : ResultCode × Axis :=
  (if 65535 < slew then .clamped else .accepted, { a with ot := target, lslew := min 65535 slew })

/-- The source a SET-SOURCE operand names; none for a slot number above 127 (R84, R201). The operand's other
bits are ignored: the model's choice (log 36). -/
def sourceOf (operand : Nat) : Option AxisSource :=
  if operand.testBit 15 then some .shaft
  else if h : operand % 256 < 128 then some (.slot ⟨operand % 256, h⟩) else none

/-- An axis after it takes a new source (R84). -/
def Axis.withSource (a : Axis) (src : AxisSource) (ref : Option Word) : Axis :=
  { a with source := src, ref := ref, miss := 0, delta := 0, sourceLost := false, extrap := false }

/-- SET-SOURCE (R84). An ENGAGED axis answers REFUSED-STATE whatever the slot number: the model's choice (log 62). -/
def Axis.setSource (a : Axis) (v : AxisView) (operand : Nat) : ResultCode × Axis :=
  if a.state = .engaged then (.refusedState, a)
  else match sourceOf operand with
    | none => (.refusedRange, a)
    | some .shaft => (.accepted, a.withSource .shaft (some v.shadow))
    | some (.slot n) => if v.subscribed[n] then (.accepted, a.withSource (.slot n) none) else (.refusedRange, a)

/-- Step 3: the command is judged; for an OFF axis every command is answered REFUSED-STATE (R79). -/
def Axis.command (a : Axis) (v : AxisView) (c : AxisCommand) : ResultCode × Axis :=
  if a.state = .off then (.refusedState, a)
  else if c.code = 1 then a.engage v c.operand
  else if c.code = 2 then a.disengage
  else if c.code = 3 then a.setGear c.n c.d
  else if c.code = 4 then a.setOffset c.target c.slew
  else if c.code = 5 then a.setSource v c.operand
  else (.refusedRange, a)

/-! ### Steps 4 to 6 (R69 to R76) -/

/-- The miss run one higher, saturating. -/
def Axis.missed (a : Axis) : Axis := { a with miss := min 255 (a.miss + 1) }

/-- An ENGAGED axis loses its source (R72). -/
def Axis.loseSource (a : Axis) : Axis := { a with state := .hold, sourceLost := true, extrap := false }

/-- Step 4: the increment of this epoch, and the axis with its source reference moved on (R69 to R72). -/
def Axis.observe (a : Axis) (v : AxisView) : Int × Axis :=
  match a.source with
  | .shaft => (signedDiff v.shadow (a.ref.getD v.shadow), { a with ref := some v.shadow })
  | .slot n =>
    match v.fresh[n], a.ref with
    | some f, some p =>
      (signedDiff f p,
       { a with delta := signedDiff f p, ref := some f, miss := 0, extrap := false, sourceLost := false })
    | some f, none => (0, { a with ref := some f, miss := 0, sourceLost := false })
    | none, r =>
      if a.state ≠ .engaged then (0, a.missed)
      else if a.miss < a.limit then
        (a.delta, { a.missed with ref := r.map (· + BitVec.ofInt 32 a.delta), extrap := true })
      else (0, a.loseSource)

/-- Step 5: the gear step (R73, R74). Floored division by D. -/
def Axis.gearStep (a : Axis) (dA : Int) : Axis :=
  if a.state = .engaged then
    let t : Int := a.r + dA * a.n
    let q := t / (a.d : Int)
    let sum : Int := a.theta.toNat + q
    { a with q := q, r := (t % (a.d : Int)).toNat, theta := BitVec.ofInt 32 sum,
             rev := a.rev + BitVec.ofInt 16 (sum / 2 ^ 32) }
  else { a with q := 0 }

/-- The slew step: the distance to the target within ±Lslew (R75). -/
def Axis.slewStep (a : Axis) : Int := max (-(a.lslew : Int)) (min a.lslew (a.ot.toInt - a.o.toInt))

/-- Step 6: the offset slews and the setpoint is formed (R75, R76). -/
def Axis.slew (a : Axis) (v : AxisView) : Axis :=
  let frozen := decide (a.state = .engaged) && v.acting.stops
  let o := if a.state = .engaged ∧ v.acting.stops = false then a.o + BitVec.ofInt 32 a.slewStep else a.o
  { a with o := o, frozen := frozen, s := a.theta + o }

/-- Steps 4 to 6 of an axis that is not OFF. -/
def Axis.move (a : Axis) (v : AxisView) : Axis := ((a.observe v).2.gearStep (a.observe v).1).slew v

/-- Steps 1 to 6 of an axis with its command, if one is pending, and the command's code (R68). -/
def Axis.epoch (a : Axis) (v : AxisView) (c : Option AxisCommand) : Option ResultCode × Axis :=
  if a.state = .off then (c.map fun c => (a.command v c).1, a)
  else
    let a1 := (a.tripReaction v).resync v
    match c with
    | some c => (some (a1.command v c).1, (a1.command v c).2.move v)
    | none => (none, a1.move v)

/-! ### The unit's epoch work (R68, R79, R85) -/

/-- The view of this node's axes at an epoch. -/
def State.axisView (s : State) (mark : Bool) : AxisView :=
  { shadow := s.lsu.shadow.angle, acting := s.tru.acting, resync := mark, fresh := s.axu.fresh,
    subscribed := Vector.ofFn s.cfg.subscribes }

/-- The pending command of axis `n`, from the shadows of its block (R35, R201). -/
def State.axisCommand (s : State) (n : Fin 8) : Option AxisCommand :=
  if s.ptu.axisPending[n] then
    (s.cfg.only .axis).map fun w =>
      let a := w.word + 16 * n.val
      let word := s.shadowAt a
      { tag := cmdTag word, code := cmdCode word, operand := cmdOperand word, n := bits (s.shadowAt (a + 1)) 0 16,
        d := bits (s.shadowAt (a + 1)) 16 16, target := s.shadowAt (a + 2), slew := (s.shadowAt (a + 3)).toNat }
  else none

/-- The code of an axis state (R201). -/
def AxisState.code (x : AxisState) : Nat :=
  match x with
  | .off => 0
  | .idle => 1
  | .engaged => 2
  | .hold => 3

/-- The setpoint record of an axis (R85, R201). -/
def Axis.record (a : Axis) (cycle : Word) (synthesized : Bool) : List Word :=
  [cycle, a.s, BitVec.ofInt 32 a.q, a.o, packWord [(a.rev.toNat, 16)],
   packWord [(a.state.code, 2), (0, 6), (bit a.resyncHold, 1), (bit a.sourceLost, 1), (bit a.frozen, 1),
     (bit a.extrap, 1), (bit synthesized, 1)],
   BitVec.ofNat 32 a.r, a.ot]

/-- The runs of the axis sweep (R85), in ascending axis number: the model's choice (log 63). -/
def State.axisSweep (s : State) (w : Window) (synthesized : Bool) : List Run :=
  (List.finRange 8).filterMap fun n =>
    if s.axu.axes[n].state = .off then none
    else some { addr := w.word + 16 * n.val + 8, words := s.axu.axes[n].record s.flu.cycle synthesized }

/-- The axes after steps 1 to 6, the fresh values consumed and the pending marks cleared (R68, R70, R35). -/
def State.axisSteps (s : State) (mark : Bool) : State :=
  let v := s.axisView mark
  (s.onAxu fun u =>
    { axes := Vector.ofFn fun n => (u.axes[n].epoch v (s.axisCommand n)).2, fresh := Vector.replicate 128 none }).onPtu
    fun p => { p with axisPending := Vector.replicate 8 false }

/-- The result runs of the commands taken at this epoch (R79), in ascending axis number: the model's choice (log 63). -/
def State.axisResults (s : State) (mark : Bool) (w : Window) : List Run :=
  let v := s.axisView mark
  (List.finRange 8).filterMap fun n =>
    match s.axisCommand n with
    | some c => ((s.axu.axes[n].epoch v (some c)).1).map fun code =>
        { addr := w.word + 16 * n.val + 4, words := [resultWord c.tag code 0] }
    | none => none

/-- The AXU's epoch work up to its landings; the condition of source 11 is handed over separately (R68, R85). -/
def State.axuEpoch (s : State) (synthesized mark : Bool) : State :=
  let s1 := s.axisSteps mark
  match s.cfg.only .axis with
  | some w =>
    let s2 := s1.requestUrgent .axis (s1.axisSweep w synthesized)
    let results := s.axisResults mark w
    if results.isEmpty then s2 else s2.requestNormal .result results
  | none => s1

/-- The condition of source 11: some axis has its source-lost flag set (R72). -/
def State.handSourceLost (s : State) : State := s.handCondition 11 (s.axu.axes.any fun a => a.sourceLost)

/-- The live angle of axis `n` at a phase: interpolated from S and q as landed; 0 for an OFF axis (R86). -/
def State.liveAngle (s : State) (n : Fin 8) : Word :=
  let a := s.axu.axes[n]
  if a.state = .off then 0 else a.s + BitVec.ofInt 32 (interpolate (BitVec.ofInt 32 a.q).toInt s.phase)

end Sys2Proof.Machine
end

