-- ==== Sys2Proof/Machine/Image.lean ====
section
/-! DEFINITION. The Image Unit (section 9): capture at the sending node, the transmit queue, receive streams, buffers and
descriptors. -/

namespace Sys2Proof.Machine

/-! ### Capture (R151 to R158) -/

/-- Change capture channel `ch`. -/
def State.onCap (s : State) (ch : Fin 4) (f : Capture → Capture) : State :=
  s.onIgu fun u => { u with cap := modAt u.cap ch f }

/-- A fragment offered now is accepted: the node is JOINED and fewer than 64 are queued (R156). -/
def State.txAccepts (s : State) : Bool := s.isJoined && decide (s.igu.tx.length < Config.txPlaces)

/-- An overrun: the fragment and the assembly area are discarded, flag 8 is set (R157). -/
def State.overrun (s : State) (ch : Fin 4) (next : CaptureState) : State :=
  (s.onCap ch fun c => { c with state := next, area := [] }).notify 8

/-- A fragment enters the transmit queue (R156). -/
def State.pushFragment (s : State) (f : Fragment) : State := s.onIgu fun u => { u with tx := u.tx ++ [f] }

/-- The bytes captured from a beat: disabled bytes as zero (R153). -/
def capturedBytes (w : Word) (be : BitVec 4) : List Byte :=
  (List.range 4).map fun i => if be.getLsbD i then wordByte w i else 0

/-- A beat at offset e is captured; a complete fragment is offered (R153). -/
def State.captureWord (s : State) (ch : Fin 4) (cam : CamCfg) (w : Word) (be : BitVec 4) : State :=
  let cap := s.igu.cap[ch]
  let area := cap.area ++ capturedBytes w be
  let e := cap.e + 4
  if e % 256 = 0 then
    let last := decide (e / 256 = cam.size / 256)
    let s1 := s.onCap ch fun c => { c with e := e, area := [], state := if last then .idle else c.state }
    let f : Fragment := { head := false, last := last, dest := cam.dest, stream := cam.stream, imgNo := cap.imgNo,
                          index := e / 256, payload := area }
    if s.txAccepts then s1.pushFragment f else s1.overrun ch (if last then .idle else .skipping)
  else s.onCap ch fun c => { c with e := e, area := area }

/-- What the Camera Unit hands over at an image start: the stored exposure or the no-exposure mark, with the overrun
indication (R148). With the no-exposure mark, stamp, reference and count are 0: the model's choice (log 60). -/
def Channel.headInfo (c : Channel) : HeadInfo :=
  match c.exposure with
  | some x => { stamp := x.stamp, ref := x.ref, count := x.count, noExposure := false, overrun := c.overrun }
  | none => { stamp := { cycle := 0, phase := 0 }, ref := 0, count := 0, noExposure := true, overrun := c.overrun }

/-- An image start (R152). Where the head is refused, e is left at 0: the model's choice (log 61). -/
def State.imageStart (s : State) (ch : Fin 4) (cam : CamCfg) (w : Word) (be : BitVec 4) : State :=
  let no := s.igu.cap[ch].imgNo + 1
  let info := s.cmu.ch[ch].headInfo
  let s1 := (s.onCap ch fun c => { c with imgNo := no, area := [], e := 0 }).onCmu fun u =>
    { u with ch := modAt u.ch ch fun c => { c with exposure := none, overrun := false } }
  let f : Fragment := { head := true, last := false, dest := cam.dest, stream := cam.stream, imgNo := no, index := 0,
                        payload := headPayload no cam.size info }
  if s.txAccepts then
    ((s1.pushFragment f).onCap ch fun c => { c with state := .capturing }).captureWord ch cam w be
  else s1.overrun ch .skipping

/-- A write beat into channel `ch`'s CAM-OUT window (R151, R154). Out of CAPTURING e keeps its last value: the model's choice
(log 61). -/
def State.camBeat (s : State) (ch : Fin 4) (off : Nat) (w : Word) (be : BitVec 4) : State :=
  match s.cfg.cams[ch] with
  | none => s
  | some cam =>
    if off = 0 then s.imageStart ch cam w be
    else match s.igu.cap[ch].state with
      | .idle => s
      | .skipping => s
      | .capturing =>
        if off = s.igu.cap[ch].e then s.captureWord ch cam w be
        else (s.onCap ch fun c => { c with state := .skipping, area := [] }).notify 8

/-- Leaving JOINED: the transmit queue is emptied, captures end in SKIPPING (R158). -/
def State.imagesLeave (s : State) : State :=
  let lost := !s.igu.tx.isEmpty || s.igu.cap.any fun c => decide (c.state = .capturing)
  (s.onIgu fun u =>
    { u with tx := [],
             cap := u.cap.map fun c => if c.state = .capturing then { c with state := .skipping, area := [] } else c
    }).notifyIf lost 8

/-! ### Receive streams (R159 to R167) -/

/-- Change receive stream `i`. -/
def State.onStream (s : State) (i : Fin 4) (f : Stream → Stream) : State :=
  s.onIgu fun u => { u with streams := modAt u.streams i f }

/-- A drop count one higher, saturating (R160). -/
def Stream.dropped (x : Stream) : Stream := { x with drop := min 65535 (x.drop + 1) }

/-- The buffer after `k` in ring order (R164). -/
def nextBuffer (count : Nat) (k : Fin 16) : Fin 16 := if count ≤ k.val + 1 then 0 else k + 1

/-- Word address of the descriptor of buffer `k` (R159). -/
def descriptorWord (w : Window) (p : StreamParams) (k : Fin 16) : Nat := w.word + p.count * p.size / 4 + 8 * k.val

/-- The landed words of a descriptor (R166, R201). -/
def descriptorWords (p : StreamParams) (a : Assembly) (complete : Bool) (order : Word) (drop : Nat) : List Word :=
  [packWord [(a.imgNo.toNat, 16), (p.pos, 5), (0, 3), (p.stream, 8)],
   packWord [(if complete then 1 else 2, 2), (0, 2), (bit a.info.noExposure, 1), (bit a.info.overrun, 1), (0, 2),
     (a.info.stamp.phase.toNat, 8), (a.landed, 16)],
   a.info.stamp.cycle, a.info.ref, a.info.count, order, packWord [(drop, 16)]]

/-- The image in assembly ends: buffer to CLOSING, completion order, descriptor request, next buffer (R164, R165). A
discarded descriptor frees the buffer and counts a drop (R166). -/
def State.endImage (s : State) (i : Fin 4) (complete : Bool) : State :=
  match s.cfg.stream i, s.igu.streams[i].asm with
  | some (w, p), some a =>
    let x := s.igu.streams[i]
    let order := x.order + 1
    let s1 := s.onStream i fun x =>
      { x with own := setAt x.own a.buffer .closing, order := order, asm := none, next := nextBuffer p.count x.next }
    let s2 := s1.requestNormal (.descriptor i a.buffer complete)
      [{ addr := descriptorWord w p a.buffer, words := descriptorWords p a complete order x.drop }]
    if s1.normalFull then
      (s2.onStream i fun x => { x with own := setAt x.own a.buffer .free }.dropped).notify 7
    else s2
  | _, _ => s

/-- A head: it ends an image in assembly, then takes the next buffer if the size fits and the buffer is FREE (R162). The
head's number is the one of its cell header, not of its payload: the model's choice (log 66). -/
def State.headArrives (s : State) (i : Fin 4) (p : StreamParams) (c : CellFields) : State :=
  let s1 := s.endImage i false
  let x := s1.igu.streams[i]
  if field (receivedHead c.payload) 4 4 = p.size ∧ x.own[x.next] = .free then
    s1.onStream i fun x =>
      { x with own := setAt x.own x.next .assembling, idle := 0,
               asm := some { imgNo := c.imgNo, buffer := x.next, info := parseHead (receivedHead c.payload), landed := 0,
                             last := 0, broken := false } }
  else (s1.onStream i Stream.dropped).notify 7

/-- A data fragment of the image in assembly (R163); the landing that brings the count to the total completes the
image (R164). -/
def State.dataArrives (s : State) (i : Fin 4) (w : Window) (p : StreamParams) (c : CellFields) : State :=
  match s.igu.streams[i].asm with
  | none => s
  | some a =>
    if a.imgNo ≠ c.imgNo then s
    else if c.index ≤ a.last ∨ p.size / 256 < c.index ∨ c.len ≠ 256 then s
    else
      let s1 := s.requestNormal .fragment
        [{ addr := w.word + a.buffer.val * p.size / 4 + (c.index - 1) * 64, words := wordsOfBytes c.payload }]
      if s.normalFull then
        s1.onStream i fun x => { x with idle := 0, asm := some { a with broken := true, last := c.index } }
      else
        let s2 := s1.onStream i fun x =>
          { x with idle := 0, asm := some { a with landed := a.landed + 1, last := c.index } }
        if a.landed + 1 = p.size / 256 then s2.endImage i true else s2

/-- The receive stream a cell belongs to (R161). -/
def State.streamOf (s : State) (c : CellFields) : Option (Fin 4) :=
  (List.finRange 4).find? fun i => match s.cfg.stream i with
    | some (_, p) => decide (p.pos = c.source) && decide (p.stream = c.stream)
    | none => false

/-- A delivered IMG-HEAD or IMG-DATA cell (R161). -/
def State.deliverImage (s : State) (head : Bool) (c : CellFields) : State :=
  match s.streamOf c with
  | none => s
  | some i =>
    match s.cfg.stream i with
    | some (w, p) => if head then s.headArrives i p c else s.dataArrives i w p c
    | none => s

/-- The timeout of stream `i` counts an epoch (R165). -/
def State.streamEpoch (s : State) (i : Fin 4) : State :=
  match s.cfg.stream i, s.igu.streams[i].asm with
  | some (_, p), some _ =>
    let s1 := s.onStream i fun x => { x with idle := x.idle + 1 }
    if p.timeout ≤ s.igu.streams[i].idle + 1 then s1.endImage i false else s1
  | _, _ => s

/-- The IGU's epoch work (R165), in ascending stream number: the model's choice (log 68). -/
def State.iguEpoch (s : State) : State := (List.finRange 4).foldl State.streamEpoch s

/-- A descriptor landing completed: the buffer is the processor's (R166). -/
def State.descriptorLanded (s : State) (i : Fin 4) (k : Fin 16) (complete : Bool) : State :=
  (s.onStream i fun x => { x with own := setAt x.own k .processor }).notify (if complete then 6 else 7)

/-- A release of buffer `k` (R167). -/
def State.takeRelease (s : State) (i : Fin 4) (k : Fin 16) : State :=
  s.onStream i fun x =>
    if x.own[k] = .processor then { x with own := setAt x.own k .free }
    else { x with relErr := min 255 (x.relErr + 1) }

/-- The initial descriptors of stream `i`, status NONE, in entries of up to 8 runs (R169): buffers 0 to 7 ascending, then the
rest: the model's choice (log 75). -/
def State.landEmptyDescriptors (s : State) (i : Fin 4) : State :=
  match s.cfg.stream i with
  | none => s
  | some (w, p) =>
    let runs := ((List.finRange 16).take p.count).map fun k =>
      ({ addr := descriptorWord w p k, words := List.replicate 7 0 } : Run)
    let s1 := s.requestNormal .emptyDescriptor (runs.take 8)
    if (runs.drop 8).isEmpty then s1 else s1.requestNormal .emptyDescriptor (runs.drop 8)

end Sys2Proof.Machine
end

