-- ==== Sys2Proof/Machine/Keys.lean ====
section
/-! DEFINITION. The Key Scanner and the key-list handling (10.4). -/

namespace Sys2Proof.Machine

/-- The key is one of the configured stop keys (R179). -/
def State.isStopKey (s : State) (k : Fin 64) : Bool :=
  match s.cfg.keys with
  | some c => c.stops.contains k
  | none => false

/-- Some key other than the stop keys is in the debounced pressed state (R181). -/
def State.ordinaryDown (s : State) : Bool :=
  (List.finRange 64).any fun k => s.ksc.debounced.getLsbD k.val && !s.isStopKey k

/-- Some stop key is in the debounced pressed state (R182). -/
def State.stopDown (s : State) : Bool :=
  (List.finRange 64).any fun k => s.ksc.debounced.getLsbD k.val && s.isStopKey k

/-- Write bit `k` of a set of keys. -/
def putKey (m : BitVec 64) (k : Fin 64) (b : Bool) : BitVec 64 :=
  if b then m ||| (1#64 <<< k.val) else m &&& ~~~(1#64 <<< k.val)

/-- A key event is offered to the key queue; at a full queue it is dropped with overflow and flag 10 (R183). -/
def State.offerKey (s : State) (k : Fin 64) (press : Bool) : State :=
  if s.ksc.queue.length < Config.keyPlaces then
    s.onKsc fun c => { c with queue := c.queue ++ [{ key := k, press := press, stamp := s.stamp }] }
  else (s.onKsc fun c => { c with overflow := true }).notify 10

/-- The lock frees when no ordinary key is debounced pressed (R181). -/
def State.freeLock (s : State) : State := if s.ordinaryDown then s else s.onKsc fun c => { c with lock := none }

/-- An accepted press or release of an ordinary key, under the first-key lock (R181). -/
def State.acceptOrdinary (s : State) (k : Fin 64) (press : Bool) : State :=
  let s1 :=
    if press then
      if s.ksc.lock.isNone then
        (s.offerKey k true).onKsc fun c => { c with lock := some k, reported := putKey c.reported k true }
      else s
    else if s.ksc.reported.getLsbD k.val then
      (s.offerKey k false).onKsc fun c => { c with reported := putKey c.reported k false }
    else s
  s1.freeLock

/-- An accepted press or release of a stop key (R182). The release clears the reported mark: the model's choice (log 71). -/
def State.acceptStop (s : State) (k : Fin 64) (press : Bool) : State :=
  let s1 := (s.offerKey k press).onKsc fun c => { c with reported := putKey c.reported k press }
  if press then s1.handCondition 9 true
  else if s1.stopDown then s1 else s1.handCondition 9 false

/-- One reading of a key: debounce, and acceptance of a change read twice (R180). -/
def State.readKey (s : State) (k : Fin 64) (pressed : Bool) : State :=
  if s.ksc.debounced.getLsbD k.val = pressed then s.onKsc fun c => { c with mark := putKey c.mark k false }
  else if s.ksc.mark.getLsbD k.val then
    let s1 := s.onKsc fun c =>
      { c with debounced := putKey c.debounced k pressed, mark := putKey c.mark k false }
    if s.isStopKey k then s1.acceptStop k pressed else s1.acceptOrdinary k pressed
  else s.onKsc fun c => { c with mark := putKey c.mark k true }

/-- The readings of the driven row, columns ascending; then the next row is driven for 1 ms (R179, R180). -/
def State.readRow (s : State) (cols : BitVec 8) : State :=
  let row := s.ksc.row
  let s1 := (List.range 8).foldl
    (fun s i => s.readKey (Fin.ofNat 64 (8 * row.val + i)) (cols.getLsbD i)) s
  s1.onKsc fun c => { c with row := row + 1, nextRead := c.nextRead + Config.rowTicks }

/-! ### The KEYS list (R184) -/

/-- The two words of a list entry (R201): the low 6 bits of the key byte, the low bit of the press byte, the low 5 bits of the
cell's source position: the model's choice where they hold more (log 70). -/
def keyListWords (bs : List Byte) (source : Nat) : List Word :=
  [packWord [((byteAt bs 0).toNat, 6), (0, 2), ((byteAt bs 1).toNat, 1), (0, 7), (source, 5), (0, 3),
     ((byteAt bs 2).toNat, 8)],
   BitVec.ofNat 32 (field bs 4 4)]

/-- The runs of `n` events from list entry `wi`: one run, or two where they wrap after entry 63. -/
def keyRuns (base wi : Nat) (events : List (List Word)) : List Run :=
  let a := events.take (64 - wi)
  let b := events.drop (64 - wi)
  { addr := base + 2 * wi, words := a.flatten } :: (if b.isEmpty then [] else [{ addr := base, words := b.flatten }])

/-- A delivered KEYS cell: its events and then the write-index word, as one NORMAL entry (R184). A source position above 31
lands with its low 5 bits in the write-index word too: the model's choice (log 70). -/
def State.deliverKeys (s : State) (c : CellFields) : State :=
  match s.cfg.only .keys with
  | none => s
  | some w =>
    if c.len % 8 ≠ 0 ∨ 128 < c.len then s
    else
      let n := c.len / 8
      let wi := (s.ksc.writeIndex + n) % 64
      let count := s.ksc.landedCount + BitVec.ofNat 16 n
      let events := (List.range n).map fun k => keyListWords ((c.payload.drop (8 * k)).take 8) c.source
      let last := packWord [(wi, 6), (0, 1), (bit c.overflow, 1), (c.source, 5), (0, 3), (count.toNat, 16)]
      let s1 := s.requestNormal .keys
        (keyRuns w.word s.ksc.writeIndex events ++ [{ addr := w.word + 128, words := [last] }])
      if s.normalFull then s1 else s1.onKsc fun k => { k with writeIndex := wi, landedCount := count }

end Sys2Proof.Machine
end

