-- ==== Sys2Proof/Machine/Screen.lean ====
section
/-! DEFINITION. The Screen Unit (10.2, 10.3): dirty maps and tile fetches, the tile send buffer, the sweep, full
refreshes and refresh requests, incoming tiles. -/

namespace Sys2Proof.Machine

/-! ### The dirty map (R171) -/

/-- Set tile `t`'s bit. -/
def setDirty (d : BitVec 8192) (t : Nat) : BitVec 8192 := d ||| (1#8192 <<< t)

/-- Clear tile `t`'s bit. -/
def clearDirty (d : BitVec 8192) (t : Nat) : BitVec 8192 := d &&& ~~~(1#8192 <<< t)

/-- Every bit of a map of `n` tiles set (R175). -/
def allDirty (n : Nat) : BitVec 8192 := BitVec.ofNat 8192 (2 ^ n - 1)

/-- The dirty count: set bits among the screen's tiles (R171). -/
def dirtyCount (p : ScreenParams) (d : BitVec 8192) : Nat := (List.range p.tiles).countP fun t => d.getLsbD t

/-- The first dirty tile from the scan pointer upward, wrapping after the last tile (R172). -/
def firstDirty (p : ScreenParams) (o : OutScreen) : Option Nat :=
  match ((List.range p.tiles).drop o.scan).find? fun t => o.dirty.getLsbD t with
  | some t => some t
  | none => ((List.range p.tiles).take o.scan).find? fun t => o.dirty.getLsbD t

/-- The tile after `t`, wrapping to 0 after the last (R172, R174). -/
def nextTile (p : ScreenParams) (t : Nat) : Nat := if p.tiles ≤ t + 1 then 0 else t + 1

/-- Change outgoing screen `i`. -/
def State.onOut (s : State) (i : Fin 2) (f : OutScreen → OutScreen) : State :=
  s.onScu fun u => { u with out := modAt u.out i f }

/-- A tile of outgoing screen `i` is marked dirty. -/
def State.markTile (s : State) (i : Fin 2) (t : Nat) : State :=
  s.onOut i fun o => { o with dirty := setDirty o.dirty t }

/-! ### Tile fetches (R172, R173) -/

/-- The first dirty tile of outgoing screen `i`, if it is configured and has one. -/
def State.dirtyTile (s : State) (i : Fin 2) : Option Nat :=
  match s.cfg.screenOut i with
  | some (_, p) => firstDirty p s.scu.out[i]
  | none => none

/-- The screen that fetches next: of two with a dirty tile, the one that did not issue the last fetch. -/
def State.fetchScreen (s : State) : Option (Fin 2) :=
  match (s.dirtyTile 0).isSome, (s.dirtyTile 1).isSome with
  | true, true => some (if s.scu.lastFetch = 0 then 1 else 0)
  | true, false => some 0
  | false, true => some 1
  | false, false => none

/-- A fetch may be issued: the node is JOINED, fewer than 2 are in flight, and fewer than 4 buffer places are spoken
for. -/
def State.canFetch (s : State) : Bool :=
  s.isJoined && decide (s.scu.inFlight.length < 2) && decide (s.scu.buffer.length + s.scu.inFlight.length < 4)

/-- The runs of tile `t`: row j is 8 words. -/
def tileRuns (w : Window) (p : ScreenParams) (t : Nat) (words : Nat → List Word) : List Run :=
  (List.range 8).map fun j => { addr := w.word + p.rowOffset t j / 4, words := words j }

/-- Issue a fetch of tile `t` of screen `i`. A discarded request sets the tile's bit again, leaves nothing in flight
and keeps the scan pointer's new value. -/
def State.fetchTile (s : State) (i : Fin 2) (w : Window) (p : ScreenParams) (t : Nat) : State :=
  let s1 := s.onOut i fun o => { o with dirty := clearDirty o.dirty t, scan := nextTile p t }
  let s2 := s1.requestNormal (.tileRead i t) (tileRuns w p t fun _ => List.replicate 8 0)
  if s.normalFull then s2.markTile i t
  else s2.onScu fun u => { u with inFlight := u.inFlight ++ [(i, t)], lastFetch := i }

/-- One attempt at a fetch; `none` when the conditions do not hold. -/
def State.fetchOnce (s : State) : Option State :=
  if s.canFetch then
    match s.fetchScreen with
    | some i =>
      match s.cfg.screenOut i, s.dirtyTile i with
      | some (w, p), some t => some (s.fetchTile i w p t)
      | _, _ => none
    | none => none
  else none

/-- Issue as many fetches as the conditions allow, at most two places being free (R172). After a discard the SCU
does not try again before another event. -/
def State.tryFetch (s : State) : State :=
  match s.fetchOnce with
  | none => s
  | some s1 =>
    if s.normalFull then s1
    else match s1.fetchOnce with
      | none => s1
      | some s2 => s2

/-- The Landing Engine completed a fetch and delivers its 64 words (R173). -/
def State.fetchDone (s : State) (i : Fin 2) (t : Nat) (words : List Word) : State :=
  let s1 := s.onScu fun u => { u with inFlight := u.inFlight.erase (i, t) }
  let s2 :=
    if s.isJoined then
      match s.cfg.screenOut i with
      | some (_, p) =>
        s1.onScu fun u =>
          { u with buffer := u.buffer ++
              [{ screen := i, dest := p.pos, number := p.number, tile := t, bytes := bytesOfWords words }] }
      | none => s1
    else s1.markTile i t
  s2.tryFetch

/-! ### Beats, sweep and refresh -/

/-- A write beat into SCREEN-OUT window `i` marks its tile (R171). -/
def State.screenBeat (s : State) (i : Fin 2) (off : Nat) : State :=
  match s.cfg.screenOut i with
  | some (_, p) =>
    match p.tileAt off with
    | some t => (s.markTile i t).tryFetch
    | none => s
  | none => s

/-- The sweep count of outgoing screen `i` counts an epoch; at P it marks the tile at the sweep pointer (R174), which
is an event for the fetches (R172). -/
def State.sweepEpoch (s : State) (i : Fin 2) : State :=
  match s.cfg.screenOut i with
  | some (_, p) =>
    if p.period = 0 then s
    else if p.period ≤ s.scu.out[i].sweepCount + 1 then
      (s.onOut i fun o =>
        { o with dirty := setDirty o.dirty o.sweep, sweep := nextTile p o.sweep, sweepCount := 0 }).tryFetch
    else s.onOut i fun o => { o with sweepCount := o.sweepCount + 1 }
  | none => s

/-- The SCU's epoch work: the sweeps of both screens (R174), screen 0's with its fetch first: the model's choice (log 68). -/
def State.scuEpoch (s : State) : State := (s.sweepEpoch 0).sweepEpoch 1

/-- Mark outgoing screen `i` for a full refresh (R175). -/
def State.fullRefresh (s : State) (i : Fin 2) : State :=
  match s.cfg.screenOut i with
  | some (_, p) => s.onOut i fun o => { o with dirty := allDirty p.tiles }
  | none => s

/-- Incoming screen `i` hands a refresh request to the message list, merged with one already there (R132, R178). -/
def State.requestRefresh (s : State) (i : Fin 2) : State :=
  match s.cfg.screenIn i with
  | some _ => s.onCls fun c => if c.requests.contains i then c else { c with requests := c.requests ++ [i] }
  | none => s

/-- Becoming JOINED: every outgoing screen fully refreshed, a request for each incoming one, fetches (R172, R175, R178).
Screen 0's request enters before screen 1's, and fetches are tried once both outgoing screens are marked: the model's choices
(logs 64 and 82). -/
def State.screensJoin (s : State) : State :=
  ((((s.fullRefresh 0).fullRefresh 1).requestRefresh 0).requestRefresh 1).tryFetch

/-- Leaving JOINED: the tile send buffer is emptied and its tiles marked again (R175). -/
def State.screensLeave (s : State) : State :=
  (s.scu.buffer.foldl (fun s b => s.markTile b.screen b.tile) s).onScu fun u => { u with buffer := [] }

/-- The refresh command's selections name only configured screens, and at least one (R176). Other operand bits are ignored: the
model's choice (log 36). -/
def State.refreshSelects (s : State) (sel : Nat) : Bool :=
  let ok := fun (b : Nat) (c : Bool) => !sel.testBit b || c
  decide (sel % 16 ≠ 0) && ok 0 (s.cfg.screenOut 0).isSome && ok 1 (s.cfg.screenOut 1).isSome &&
    ok 2 (s.cfg.screenIn 0).isSome && ok 3 (s.cfg.screenIn 1).isSome

/-- Carry out the selections of an accepted refresh command (R176); screen 0's request enters before screen 1's: the model's
choice (log 64). Only a selected outgoing screen has tiles marked dirty, an event for the fetches (R172), which are tried once
both are marked: the model's choice (log 82). -/
def State.refreshScreens (s : State) (sel : Nat) : State :=
  let s1 := if sel.testBit 0 then s.fullRefresh 0 else s
  let s2 := if sel.testBit 1 then s1.fullRefresh 1 else s1
  let s3 := if sel.testBit 2 then s2.requestRefresh 0 else s2
  let s4 := if sel.testBit 3 then s3.requestRefresh 1 else s3
  if sel.testBit 0 || sel.testBit 1 then s4.tryFetch else s4

/-- Take the screen refresh command from its shadow word; tag and code are recorded and flag 5 is set (R176). -/
def State.takeRefresh (s : State) (w : Word) : State :=
  let ok := decide (cmdCode w = 1) && s.refreshSelects (cmdOperand w)
  let code := if ok then ResultCode.accepted else ResultCode.refusedRange
  let s1 := (s.onScu fun u => { u with refresh := some (BitVec.ofNat 8 (cmdTag w), code.code) }).notify 5
  if ok then s1.refreshScreens (cmdOperand w) else s1

/-! ### Delivered cells -/

/-- A TILE cell is landed into the incoming screen of its source and number (R177). -/
def State.deliverTile (s : State) (c : CellFields) : State :=
  match (List.finRange 2).find? fun i => match s.cfg.screenIn i with
    | some (_, p) => decide (p.pos = c.source) && decide (p.number = c.stream)
    | none => false with
  | some i =>
    match s.cfg.screenIn i with
    | some (w, p) =>
      if c.index < p.tiles ∧ c.len = 256 then
        s.requestNormal (.tileLand i) (tileRuns w p c.index fun j => wordsOfBytes ((c.payload.drop (32 * j)).take 32))
      else s
    | none => s
  | none => s

/-- A SCREEN-REQ cell refreshes the outgoing screen of its destination and number (R135, R175). The number is the one of its
cell header, not of its payload: the model's choice (log 69). -/
def State.deliverScreenReq (s : State) (c : CellFields) : State :=
  match (List.finRange 2).find? fun i => match s.cfg.screenOut i with
    | some (_, p) => decide (p.pos = c.source) && decide (p.number = c.stream)
    | none => false with
  | some i => (s.fullRefresh i).tryFetch
  | none => s

/-- The landing of a tile completed (R177). -/
def State.tileLanded (s : State) (i : Fin 2) : State := s.onScu fun u => { u with landed := modAt u.landed i (· + 1) }

end Sys2Proof.Machine
end

