-- ==== Sys2Proof/Machine/Cells.lean ====
section
/-! DEFINITION. The Cell Scheduler (section 7): the fill order, claiming on the out-run, starvation, and delivery on the
return run. -/

namespace Sys2Proof.Machine

/-! ### Claiming (R128 to R132) -/

/-- The start of a claim passage (R128). -/
def State.startClaims (s : State) : State :=
  s.onCls fun c => { c with claimed := 0, messageSent := false, reserveTiles := 0 }

/-- A cell of this node with the fields its kind does not use at zero (R127). -/
def State.cellFor (s : State) (kind dest stream : Nat) (payload : List Byte) : CellFields :=
  { kind := kind, source := s.ownPosition, dest := dest, stream := stream, imgNo := 0, index := 0,
    len := payload.length, first := false, last := false, overflow := false, payload := payload }

/-- The cell of a fragment of the transmit queue (R127, R155). -/
def State.fragmentCell (s : State) (f : Fragment) : CellFields :=
  { s.cellFor (if f.head then 1 else 2) f.dest f.stream f.payload with
      imgNo := f.imgNo, index := f.index, first := f.head, last := f.last }

/-- The cell of a tile (R127). -/
def State.tileCell (s : State) (t : TileItem) : CellFields :=
  { s.cellFor 3 t.dest t.number t.bytes with index := t.tile }

/-- The cell of a KEYS message: every event of the key queue, and the overflow indication (R131). -/
def State.keysCell (s : State) (k : KeyCfg) : CellFields :=
  { s.cellFor 4 k.dest 0 (s.ksc.queue.flatMap keyEventBytes) with overflow := s.ksc.overflow }

/-- The cell of a refresh request: one byte of screen number and three zero bytes (R200). -/
def State.requestCell (s : State) (p : ScreenParams) : CellFields :=
  s.cellFor 5 p.pos p.number [BitVec.ofNat 8 p.number, 0, 0, 0]

/-- The KEYS entry of the message list is taken (R131). -/
def State.takeKeys (s : State) : State := s.onKsc fun k => { k with queue := [], overflow := false }

/-- Step 1 of the fill order: the first entry of the message list, KEYS first (R130, R132). -/
def State.takeMessage (s : State) : Option (State × CellFields) :=
  if s.cls.messageSent then none
  else
    let sent := s.onCls fun c => { c with messageSent := true }
    match s.ksc.queue, s.cfg.keys with
    | _ :: _, some k => some (sent.takeKeys, s.keysCell k)
    | _, _ =>
      match s.cls.requests with
      | [] => none
      | i :: rest =>
        match s.cfg.screenIn i with
        | some (_, p) => some (sent.onCls fun c => { c with requests := rest }, s.requestCell p)
        | none => none

/-- The oldest tile leaves the tile send buffer, which frees a place for a fetch (R131, R172). -/
def State.takeTile (s : State) : Option (State × CellFields) :=
  match s.scu.buffer with
  | [] => none
  | t :: rest => some ((s.onScu fun u => { u with buffer := rest }).tryFetch, s.tileCell t)

/-- The fragment at the head leaves the transmit queue (R131). -/
def State.takeFragment (s : State) : Option (State × CellFields) :=
  match s.igu.tx with
  | [] => none
  | f :: rest => some (s.onIgu fun u => { u with tx := rest }, s.fragmentCell f)

/-- Step 2 of the fill order: a tile under the screen reserve (R130). -/
def State.takeReserved (s : State) : Option (State × CellFields) :=
  if s.cls.reserveTiles < s.cfg.reserve then
    (s.onCls fun c => { c with reserveTiles := c.reserveTiles + 1 }).takeTile
  else none

/-- The item of the fill order: the first step that yields one (R130). -/
def State.nextItem (s : State) : Option (State × CellFields) :=
  match s.takeMessage with
  | some r => some r
  | none => match s.takeReserved with
    | some r => some r
    | none => match s.takeFragment with
      | some r => some r
      | none => s.takeTile

/-- The decision on one cell of a claim passage: the cell as it leaves (R129). -/
def State.decideCell (s : State) (b : Block) : State × Block :=
  if readsEmpty b && decide (s.cls.claimed < s.cfg.allowance) then
    match s.nextItem with
    | some (s1, c) => (s1.onCls fun x => { x with claimed := x.claimed + 1 }, (buildCell c).take b.length)
    | none => (s, b)
  else (s, b)

/-- The end of a claim passage: cell starvation (R133). -/
def State.endClaims (s : State) : State :=
  s.notifyIf (decide (s.cls.claimed < s.cfg.allowance) && s.nextItem.isSome) 12

/-! ### Delivery (R134, R135) -/

/-- A delivered cell is handed to the owner of its kind (R135). -/
def State.handCell (s : State) (c : CellFields) : State :=
  if c.kind = 1 then s.deliverImage true c
  else if c.kind = 2 then s.deliverImage false c
  else if c.kind = 3 then s.deliverTile c
  else if c.kind = 4 then s.deliverKeys c
  else if c.kind = 5 then s.deliverScreenReq c
  else s

/-- A cell of a delivery passage, judged at its check (R134). -/
def State.deliverCell (s : State) (b : Block) : State :=
  match goodBytes 274 b with
  | some bs =>
    let c := parseCell bs
    if 1 ≤ c.len ∧ c.len ≤ 256 ∧ s.flu.position = some c.dest then s.handCell c else s
  | none => s

end Sys2Proof.Machine
end

