-- ==== Sys2Proof/Machine/Shaft.lean ====
section
/-! DEFINITION. The Line Shaft Unit (section 3): ramps, the generator, the shadow shaft, the SHAFT command and the
shaft record. -/

namespace Sys2Proof.Machine

/-! ### Ramps and integration (R53 to R55) -/

/-- The speed after k steps of a ramp (R53). -/
def Ramp.speed (r : Ramp) : Nat :=
  if r.v0 ≤ r.vt then r.v0 + (r.vt - r.v0) * r.k / r.n else r.v0 - (r.v0 - r.vt) * r.k / r.n

/-- n_stop (R54). -/
def stopLength (c : NodeCfg) (v : Nat) (cls : TripClass) : Nat :=
  max 1 (min 65535 ((v * (if cls = .b then c.tqs else c.tcs) + c.vref - 1) / c.vref))

/-- A stop ramp from speed `v` (R49, R60). -/
def stopRamp (c : NodeCfg) (v : Nat) (cls : TripClass) : Ramp :=
  { v0 := v, vt := 0, n := stopLength c v cls, k := 0, cls := cls }

/-- The angle after an advance by `v` (R55). -/
def advanceAngle (a : Word) (v : Nat) : Word := a + BitVec.ofNat 32 v

/-- The revolution count after an advance by `v`: it counts each wrap of the angle (R55). -/
def advanceRev (a : Word) (rev : BitVec 16) (v : Nat) : BitVec 16 := rev + BitVec.ofNat 16 ((a.toNat + v) / 2 ^ 32)

/-! ### The generator (R48 to R53) -/

/-- The generator starts a stop ramp of a class (R49). -/
def Gen.startStop (g : Gen) (c : NodeCfg) (cls : TripClass) : Gen :=
  { g with state := .stopping, ramp := some (stopRamp c g.speed cls) }

/-- The reaction to class B or C by the generator's state (R49). -/
def Gen.reactStop (g : Gen) (c : NodeCfg) (cls : TripClass) : Gen :=
  match g.state with
  | .coasted => g
  | .stopping =>
    match g.ramp with
    | some r => if r.cls = .c ∧ cls = .b then g.startStop c .b else g
    | none => g
  | .standstill => if g.speed = 0 then { g with ramp := none } else g.startStop c cls
  | .ramping => if g.speed = 0 then { g with state := .standstill, ramp := none } else g.startStop c cls
  | .running => if g.speed = 0 then { g with state := .standstill, ramp := none } else g.startStop c cls
  | .held => if g.speed = 0 then { g with state := .standstill, ramp := none } else g.startStop c cls

/-- The trip reaction (R49, R50), in SETUP as in RUN: class A makes a generator in SETUP COASTED, which its headers do not
show (R16, R56; log 50). -/
def Gen.react (g : Gen) (c : NodeCfg) (acting : TripClass) : Gen :=
  match acting with
  | .a => if g.state = .coasted then g else { g with state := .coasted, ramp := none }
  | .b => g.reactStop c .b
  | .c => g.reactStop c .c
  | .d => if g.state = .coasted then { g with state := .standstill } else g
  | .clear => if g.state = .coasted then { g with state := .standstill } else g

/-- Judge SET-TARGET at the master (R51). -/
def Gen.setTarget (g : Gen) (c : NodeCfg) (acting : TripClass) (run : Bool) (vt n : Nat) : ResultCode × Gen :=
  if !run then (.refusedState, g)
  else if g.state = .stopping ∨ g.state = .coasted ∨ acting.stops = true then (.refusedTripped, g)
  else
    let code := if c.vmax < vt ∨ n = 0 then ResultCode.clamped else .accepted
    (code, { g with state := .ramping,
                    ramp := some { v0 := g.speed, vt := min vt c.vmax, n := max 1 n, k := 0, cls := .clear } })

/-- Judge HOLD at the master (R52). -/
def Gen.holdRamp (g : Gen) : ResultCode × Gen :=
  if g.state = .ramping ∧ (g.ramp.any fun r => decide (r.cls = .clear)) = true then
    (.accepted, { g with state := .held })
  else (.refusedState, g)

/-- The speed step (R53, R50). -/
def Gen.stepSpeed (g : Gen) : Gen :=
  match g.state with
  | .ramping =>
    match g.ramp with
    | some r =>
      let r1 := { r with k := r.k + 1 }
      let st : ShaftState := if r1.n ≤ r1.k then (if r1.vt = 0 then .standstill else .running) else .ramping
      { g with speed := r1.speed, ramp := some r1, state := st }
    | none => g
  | .stopping =>
    match g.ramp with
    | some r =>
      let r1 := { r with k := r.k + 1 }
      if r1.speed = 0 then { g with speed := 0, ramp := none, state := .standstill }
      else { g with speed := r1.speed, ramp := some r1 }
    | none => g
  | .running => g
  | .held => g
  | .standstill => { g with speed := 0 }
  | .coasted => { g with speed := 0 }

/-- The integration (R55). -/
def Gen.integrate (g : Gen) : Gen :=
  { g with angle := advanceAngle g.angle g.speed, rev := advanceRev g.angle g.rev g.speed }

/-! ### The shadow shaft (R58 to R63) -/

/-- An epoch made from a header (R58, R63). -/
def Shadow.header (c : NodeCfg) (h : HeaderShaft) (mark : Bool) : Shadow :=
  { angle := h.angle, rev := h.rev, speed := min h.speed c.vmax, state := h.state, ramp := none, localStop := false,
    clamped := decide (c.vmax < h.speed), resync := mark }

/-- The shadow's integration (R55). -/
def Shadow.integrate (x : Shadow) : Shadow :=
  { x with angle := advanceAngle x.angle x.speed, rev := advanceRev x.angle x.rev x.speed }

/-- One step of the local ramp record (R60). -/
def Shadow.stepRamp (x : Shadow) : Shadow :=
  match x.ramp with
  | some r =>
    let r1 := { r with k := r.k + 1 }
    if r1.speed = 0 then { x with speed := 0, ramp := none, state := .standstill }
    else { x with speed := r1.speed, ramp := some r1 }
  | none => x

/-- The shadow starts a local stop ramp (R60). -/
def Shadow.startStop (x : Shadow) (c : NodeCfg) (cls : TripClass) : Shadow :=
  { x with state := .stopping, localStop := true, ramp := some (stopRamp c x.speed cls) }

/-- The reaction to class B or C at a synthesized epoch (R60). -/
def Shadow.reactStop (x : Shadow) (c : NodeCfg) (cls : TripClass) : Shadow :=
  match x.ramp with
  | some r => if r.cls = .c ∧ cls = .b then x.startStop c .b else x
  | none => if x.speed = 0 then { x with state := .standstill } else x.startStop c cls

/-- A synthesized epoch (R59 to R61). -/
def Shadow.synthesize (x : Shadow) (c : NodeCfg) (acting : TripClass) : Shadow :=
  let x0 := { x with resync := false }
  let x1 := if acting ≠ .a ∧ x0.state = .coasted ∧ x0.localStop = true then { x0 with state := .standstill } else x0
  match acting with
  | .a => { x1 with speed := 0, state := .coasted, localStop := true, ramp := none }
  | .b => (x1.reactStop c .b).stepRamp.integrate
  | .c => (x1.reactStop c .c).stepRamp.integrate
  | .d => x1.stepRamp.integrate
  | .clear => x1.stepRamp.integrate

/-! ### The SHAFT command and the records (R51, R52, R57) -/

/-- The SHAFT command pending at this epoch: its command word and parameters Vt and n, from their shadows (R35). -/
def State.shaftCommand (s : State) : Option (Window × Word × Nat × Nat) :=
  if s.ptu.shaftPending then
    (s.cfg.only .shaft).map fun w =>
      (w, s.shadowAt w.word, (s.shadowAt (w.word + 1)).toNat, bits (s.shadowAt (w.word + 2)) 0 16)
  else none

/-- Judge a SHAFT command: SET-TARGET is code 1, HOLD code 2 (R36, R51, R52, R201). -/
def State.judgeShaft (s : State) (g : Gen) (w : Word) (vt n : Nat) : ResultCode × Gen :=
  if cmdCode w = 1 then
    if s.isMaster then g.setTarget s.cfg s.tru.acting (decide (s.flu.mstate = .run)) vt n else (.notMaster, g)
  else if cmdCode w = 2 then
    if s.isMaster then g.holdRamp else (.notMaster, g)
  else (.refusedRange, g)

/-- The code of a ramp record's class field; 0 when the record is empty (log 59). -/
def rampClass (r : Option Ramp) : Nat := match r with | some r => r.cls.code | none => 0

/-- V0, Vt and the word of n and k of a ramp record; zeros when it is empty (R57 at a member; log 59). -/
def rampWords (r : Option Ramp) : List Word :=
  match r with
  | some r => [BitVec.ofNat 32 r.v0, BitVec.ofNat 32 r.vt, packWord [(r.n, 16), (r.k, 16)]]
  | none => [0, 0, 0]

/-- The shaft record (R57, R201). -/
def State.shaftRecord (s : State) (synthesized : Bool) : List Word :=
  let x := s.lsu.shadow
  let g := s.lsu.gen
  [s.flu.cycle, x.angle, BitVec.ofNat 32 x.speed,
   packWord [(x.rev.toNat, 16), (shaftCode x.state, 3), (0, 5), (bit synthesized, 1), (bit x.resync, 1),
     (bit x.localStop, 1), (bit x.clamped, 1)]] ++
  (if s.isMaster then
     [g.angle, BitVec.ofNat 32 g.speed, packWord [(shaftCode g.state, 3), (0, 1), (rampClass g.ramp, 3)]] ++
       rampWords g.ramp
   else [0, 0, packWord [(0, 4), (rampClass x.ramp, 3)]] ++ rampWords x.ramp)

/-- The generator's steps 1 to 4 at the master, with the result of the command taken (R48). -/
def State.generatorEpoch (s : State) : State × Option (Window × Word) :=
  let g0 := if s.isMaster then s.lsu.gen.react s.cfg s.tru.acting else s.lsu.gen
  let taken := s.shaftCommand
  let judged := taken.map fun c => s.judgeShaft g0 c.2.1 c.2.2.1 c.2.2.2
  let g1 := match judged with | some j => j.2 | none => g0
  let g2 := if s.isMaster then g1.stepSpeed.integrate else g1
  let result := match taken, judged with
    | some c, some j => some (c.1, resultWord (cmdTag c.2.1) j.1 0)
    | _, _ => none
  ((s.onLsu fun u => { u with gen := g2 }).onPtu fun p => { p with shaftPending := false }, result)

/-- The LSU's epoch work: generator, shadow, record and result (R48, R57 to R64). `hdr` is the header's shaft values,
none at a synthesized epoch. -/
def State.lsuEpoch (s : State) (hdr : Option HeaderShaft) (mark : Bool) : State :=
  let r := s.generatorEpoch
  let s1 := r.1.onLsu fun u =>
    { u with shadow := match hdr with
        | some h => Shadow.header s.cfg h mark
        | none => u.shadow.synthesize s.cfg s.tru.acting }
  let s2 := match s.cfg.only .shaft with
    | some w => s1.requestUrgent .shaft [{ addr := w.word + 4, words := s1.shaftRecord hdr.isNone }]
    | none => s1
  match r.2 with
  | some (w, word) => s2.requestResult (w.word + 3) word
  | none => s2

end Sys2Proof.Machine
end

