-- ==== Sys2Proof/Machine/Slots.lean ====
section
/-! DEFINITION. The Slot Unit (section 6): commit and withdraw, the insertion decision and the slots that pass,
reception, ageing, and the landings of the SLOT-IN windows. -/

namespace Sys2Proof.Machine

/-! ### Publishing (R110 to R112) -/

/-- The staging image of the slot whose word 3 stands at word address `wa`: its four capture shadows (R111). -/
def State.stagingAt (s : State) (wa : Nat) : SlotImage := Vector.ofFn fun i => s.shadowAt (wa + i.val - 3)

/-- A commit of slot `n` whose word 3 stands at word address `wa`; an UNUSED slot commits nothing (R111). -/
def State.takeCommit (s : State) (n : Fin 128) (wa : Nat) : State :=
  if s.slu.publish[n] = .unused then s
  else
    let image := s.stagingAt wa
    s.onSlu fun u => { u with committed := setAt u.committed n image, publish := setAt u.publish n .live }

/-- A withdraw taken from its shadow word, for a window of `count` slots from slot `first` (R112). -/
def State.takeWithdraw (s : State) (first count : Nat) (w : Word) : State :=
  let n := bits w 0 8
  if h : n < 128 then
    if first ≤ n ∧ n < first + count ∧ s.slu.publish[n] ≠ .unused then
      s.onSlu fun u => { u with publish := setAt u.publish ⟨n, h⟩ .withdrawn }
    else s
  else s

/-! ### Insertion (R113 to R115) -/

/-- The LIVE slots (R110). -/
def State.liveSlots (s : State) : List (Fin 128) := (List.finRange 128).filter fun n => decide (s.slu.publish[n] = .live)

/-- The decision of an insertion passage on the tags as they arrived: the conflicts, and the slots to insert (R113,
R115). -/
def State.decideSlots (s : State) (tags : List Byte) : State × List (Fin 128) :=
  let conflicts := s.liveSlots.filter fun n => tagBit tags n
  let inserted := s.liveSlots.filter fun n => !tagBit tags n
  if conflicts.isEmpty then (s.handCondition 13 false, inserted)
  else
    (((s.onSlu fun u => { u with conflicts := conflicts.foldl (fun m n => m ||| (1#128 <<< n.val)) u.conflicts
       }).notify 3).handCondition 13 true, inserted)

/-- Slot `n` as it passes: an inserted one carries the committed image and the node's check, as far as it arrived
(R113, R114). -/
def State.passSlot (s : State) (inserted : List (Fin 128)) (n : Fin 128) (b : Block) : Block :=
  if inserted.contains n then (buildSlot s.ownPosition s.slu.committed[n]).take b.length else b

/-- The slot area as it passes. -/
def State.passSlots (s : State) (inserted : List (Fin 128)) (slots : List Block) : List Block :=
  ((List.finRange 128).zip slots).map fun p => s.passSlot inserted p.1 p.2

/-- The tag block as it is forwarded: with a tag set, its check is formed again (R113). -/
def passTags (tags : List Byte) (inserted : List (Fin 128)) : Block :=
  if inserted.isEmpty then tags.map some else sealed (withTags (tags.take 16) inserted)

/-! ### Reception (R117 to R120, R125) -/

/-- The status word of an entry (R125, R201); the publisher bits are 0 while no publisher is known (log 59). -/
def SlotEntry.status (e : SlotEntry) : Word :=
  packWord [(e.seq.toNat, 8), (bit e.stale, 1), (bit e.publisher.isSome, 1), (0, 6),
    ((e.publisher.map Fin.val).getD 0, 5)]

/-- Word address of the block of entry `k`. -/
def entryWord (w : Window) (k : Nat) : Nat := w.word + 8 * k

/-- Some entry of a window marked trip-on-stale is stale (R122). -/
def State.tripStale (s : State) : Bool :=
  (List.finRange 8).any fun i => match s.cfg.slotIn i with
    | some (_, es, _, true) => (List.finRange 8).any fun k => decide (k.val < es.length) && s.slu.entries[i][k].stale
    | _ => false

/-- The condition of source 12 is handed over where it has changed since `s0` (R122). -/
def State.handStale (s0 s : State) : State :=
  if s.tripStale = s0.tripStale then s else s.handCondition 12 s.tripStale

/-- An entry after a valid reception from position `p` (R120). -/
def SlotEntry.receive (e : SlotEntry) (p : Fin 32) : SlotEntry :=
  { seq := e.seq + 1, age := 0, stale := false, publisher := some p, mark := true }

/-- A valid reception at entry `k` of SLOT-IN window `i` (R120). -/
def Slu.receiveAt (u : Slu) (i k : Fin 8) (p : Fin 32) (data : List Byte) : Slu :=
  let e := u.entries[i][k].receive p
  { u with entries := modAt u.entries i (setAt · k e),
           landing := modAt u.landing i (setAt · k (some (imageWords data ++ [e.status]))) }

/-- A valid reception of slot `n` at every entry that names it, and its fresh value (R70, R120). -/
def State.receiveSlot (s : State) (n : Fin 128) (p : Fin 32) (data : List Byte) : State :=
  if s.cfg.subscribes n then
    let s1 := s.onSlu fun u =>
      (List.finRange 8).foldl (fun u i =>
        (List.finRange 8).foldl (fun u k =>
          if s.cfg.entrySlot i k = some n then u.receiveAt i k p data else u) u) u
    let s2 := s1.onAxu fun a => { a with fresh := setAt a.fresh n (some (BitVec.ofNat 32 (field data 0 4))) }
    State.handStale s s2
  else s

/-- The landing request of SLOT-IN window `i` for the return passage (R124). -/
def State.landSlots (s : State) (i : Fin 8) : State :=
  match s.cfg.slotIn i with
  | some (w, _, _, _) =>
    let runs := (List.finRange 8).filterMap fun k =>
      (s.slu.landing[i][k]).map fun ws => ({ addr := entryWord w k.val, words := ws } : Run)
    (s.requestUrgent (.slotIn i) runs).onSlu fun u => { u with landing := setAt u.landing i (Vector.replicate 8 none) }
  | none => s

/-- The end of the slot area of a return passage (R124); the windows request in ascending number: the model's choice
(log 68). -/
def State.endSlotArea (s : State) : State := (List.finRange 8).foldl State.landSlots s

/-! ### Ageing (R121, R122) -/

/-- One epoch of an entry under a stale limit (R121). -/
def SlotEntry.aged (e : SlotEntry) (limit : Nat) : SlotEntry :=
  if e.mark then { e with mark := false }
  else
    let age := min 255 (e.age + 1)
    { e with age := age, stale := e.stale || decide (limit ≤ age) }

/-- The ageing of SLOT-IN window `i`: its entries, and the landing of those that became stale (R121, R124), in entry order: the
model's choice (log 75). -/
def State.ageWindow (s : State) (i : Fin 8) : State :=
  match s.cfg.slotIn i with
  | some (w, es, limit, _) =>
    let ks := (List.finRange 8).filter fun k => decide (k.val < es.length)
    let newly := ks.filter fun k => (s.slu.entries[i][k].aged limit).stale && !s.slu.entries[i][k].stale
    let runs := newly.map fun k =>
      ({ addr := entryWord w k.val + 4, words := [(s.slu.entries[i][k].aged limit).status] } : Run)
    let s1 := s.onSlu fun u =>
      { u with entries := modAt u.entries i fun row =>
          ks.foldl (fun row k => modAt row k fun e => e.aged limit) row }
    (s1.notifyIf (!newly.isEmpty) 2).requestUrgent (.slotIn i) runs
  | none => s

/-- The SLU's epoch work: every window ages, then a change of source 12 is handed over (R121, R122). The windows request in
ascending number: the model's choice (log 68). -/
def State.sluEpoch (s : State) : State := State.handStale s ((List.finRange 8).foldl State.ageWindow s)

/-! ### Configuration completion (R110, R123) -/

/-- The initial status words of SLOT-IN window `i` (R123), in entry order: the model's choice (log 75). -/
def State.landInitialStatus (s : State) (i : Fin 8) : State :=
  match s.cfg.slotIn i with
  | some (w, es, _, _) =>
    s.requestUrgent (.slotIn i) ((List.range es.length).map fun k =>
      { addr := entryWord w k + 4, words := [SlotEntry.reset.status] })
  | none => s

end Sys2Proof.Machine
end

