-- ==== Sys2Proof/Machine/Epoch.lean ====
section
/-! DEFINITION. Ring states and the end-node condition (R9 to R14), the pending list and the epochs (R20 to R23), and the
epoch work of every block. -/

namespace Sys2Proof.Machine

/-! ### The end-node condition (R13) -/

/-- The node is the end node: a configured member whose downstream receiver is DARK or whose return-watch count is 2 or
more. -/
def State.isEndNode (s : State) : Bool :=
  s.isMember && (decide (s.flu.down.state = .dark) || decide (2 ≤ s.flu.returnWatch))

/-- Notice flag 1 at a change of the end-node condition since `s0` (R14). -/
def State.noticeEnd (s0 s : State) : State := s.notifyIf (decide (s.isEndNode ≠ s0.isEndNode)) 1

/-! ### Entering and leaving JOINED (R9 to R11) -/

/-- A member passes to JOINED (R9). -/
def State.enterJoined (s : State) : State :=
  (((s.onFlu fun u => { u with ring := .joined, mismatch := false }).notify 1).handCondition 10 false).screensJoin

/-- What a passage from JOINED adds: the resync mark is armed, and the Image, Screen and Camera Units act (R10, R146, R158,
R175). -/
def State.leaveJoined (s : State) : State :=
  ((s.onFlu fun u => { u with resyncArmed := true }).imagesLeave).screensLeave.cancelFirings

/-- A member leaves FOLLOWING or JOINED for SEEKING (R10, R11). Its remote view is emptied once its latch holds source 10
(R94), so that a class that stays acting acts without a gap (R102). -/
def State.leaveRing (s : State) : State :=
  let s1 := if s.flu.ring = .joined then s.handCondition 10 true else s
  let s2 := s1.onFlu fun u => { u with ring := .seeking, position := none, meas := [], mismatch := false }
  let s3 := ((s2.onTru fun t => { t with remote := ClassMasks.empty }).recompute).notify 1
  if s.flu.ring = .joined then s3.leaveJoined else s3

/-! ### The work of an epoch -/

/-- A ring loss at a synthesized epoch, with the sweep of this epoch before it or not (R10, R174; log 6). -/
def State.loseRing (s : State) (sweepFirst : Bool) : State := (if sweepFirst then s.scuEpoch else s).leaveRing

/-- The blocks' epoch work in the one order the rules give, with the four orders they leave open as arguments: whether
a ring loss is taken before the blocks' work (R10, 3.4), whether the sweep is made before the loss (R172, R174), whether the
slots age before the blocks' work (R122), and whether the condition of source 11 reaches the Trip Unit before the Camera
Unit works (R72, R140) (log 6). All four camera channels fall on one side of each of these changes of class and ring state,
while R139 and R140 would let single channels fall on different sides: the model's choice (log 85). -/
def State.epochIn (s : State) (lossFirst sweepFirst ageFirst lostFirst : Bool) (hdr : Option HeaderShaft)
    (mark loss : Bool) : State :=
  let s1 := if loss && lossFirst then s.loseRing sweepFirst else s
  let s2 := if ageFirst then s1.sluEpoch else s1
  let s3 := ((s2.lsuEpoch hdr mark).truEpoch).axuEpoch hdr.isNone mark
  let s4 := if lostFirst then s3.handSourceLost.cmuEpoch mark else (s3.cmuEpoch mark).handSourceLost
  let s5 := if ageFirst then s4 else s4.sluEpoch
  let s6 := if loss && !lossFirst then s5.loseRing sweepFirst else s5
  if loss && sweepFirst then s6.iguEpoch else s6.iguEpoch.scuEpoch

/-- The work of an epoch, with the open orders drawn (log 6). -/
def State.epochWork (s : State) (hdr : Option HeaderShaft) (mark loss : Bool) : State :=
  { s with free := s.free + 4 }.epochIn (Config.takenFirst s.free) (Config.takenFirst (s.free + 1))
    (Config.takenFirst (s.free + 2)) (Config.takenFirst (s.free + 3)) hdr mark loss

/-- The return-watch count counts an epoch without a good return header (R13). -/
def State.watchEpoch (s : State) : State :=
  State.noticeEnd s (s.onFlu fun u =>
    { u with returnWatch := if u.goodReturn then u.returnWatch else min 255 (u.returnWatch + 1), goodReturn := false })

/-! ### Epochs from headers (R21, R22) -/

/-- The interval after a header epoch of a cycle at instant `now` (R22). -/
def Flu.measuredInterval (u : Flu) (cycle : Word) (now : Nat) : Nat :=
  match u.lastHeaderEpoch with
  | some (c, t) => if cycle = c + 1 ∧ 31000 ≤ now - t ∧ now - t ≤ 31500 then now - t else u.interval
  | none => u.interval

/-- The FLU at an epoch made from an entry: an armed resync mark goes with the epoch and is disarmed (R21, R22; log 18). -/
def Flu.headerEpoch (u : Flu) (e : PendingEntry) (now : Nat) : Flu :=
  let i := u.measuredInterval e.cycle now
  { u with cycle := e.cycle, epochAt := now, miss := 0, applyLate := e.late,
           resyncArmed := false, interval := i, lastHeaderEpoch := some (e.cycle, now),
           expected := now + i }

/-- An epoch from an entry, which is discarded if its cycle number is the node's own (R20). The epoch carries the resync mark if
it is armed, whenever the entry was placed (R21; log 18). -/
def State.takeEntry (s : State) (e : PendingEntry) : State :=
  if e.cycle = s.flu.cycle then s.onFlu fun u => { u with miss := 0 }
  else
    (((s.onFlu fun u => u.headerEpoch e s.now).notifyIf e.late 11).watchEpoch).epochWork (some e.shaft)
      s.flu.resyncArmed false

/-- The oldest entry leaves the list and is taken. -/
def State.takeOldest (s : State) : State :=
  match s.flu.entries with
  | [] => s
  | e :: rest => (s.onFlu fun u => { u with entries := rest }).takeEntry e

/-- The oldest entry's apply instant has arrived. -/
def State.entryDue (s : State) : Bool :=
  match s.flu.entries with
  | [] => false
  | e :: _ => decide (e.instant ≤ s.now)

/-- Entries whose apply instants have arrived are taken one after another, `fuel` at most (R20). -/
def State.takeDue (s : State) (fuel : Nat) : State :=
  match fuel with
  | 0 => s
  | fuel + 1 => if s.entryDue then s.takeOldest.takeDue fuel else s

/-- A good header's entry, with the resync mark as it is armed then, enters the list; the oldest of 3 is taken first (R20). -/
def State.placeEntry (s : State) (e : Bool → PendingEntry) : State :=
  let s1 := if 3 ≤ s.flu.entries.length then s.takeOldest.takeDue 2 else s
  s1.onFlu fun u => { u with entries := u.entries ++ [e u.resyncArmed] }

/-- The entry of a good header whose first byte came at `tf`, at a node of delay `dk`, with its resync mark (R20). -/
def entryOf (h : HeaderFields) (tf dk : Nat) (mark : Bool) : PendingEntry :=
  let late := decide (h.dApply < dk + Config.applyMargin)
  { cycle := h.cycle, instant := tf + (if late then Config.applyMargin else h.dApply - dk), shaft := h.shaft,
    late := late, mark := mark }

/-! ### Synthesized epochs (R23) -/

/-- The local cycle timer has expired: 625 ticks after the expected instant, at a member (R22, R23). -/
def State.timerDue (s : State) : Bool := s.isMember && decide (s.flu.expected + Config.timerDelay ≤ s.now)

/-- An entry of the next cycle is pending (R23). -/
def State.nextPending (s : State) : Bool := s.flu.entries.any fun e => decide (e.cycle = s.flu.cycle + 1)

/-- The FLU at a synthesized epoch (R22, R23). -/
def Flu.synthesize (u : Flu) (now : Nat) : Flu :=
  { u with cycle := u.cycle + 1, epochAt := now, miss := min 65535 (u.miss + 1), applyLate := false,
           expected := u.expected + u.interval }

/-- The synthesized epoch brings the miss count to ring_loss_limit in FOLLOWING or JOINED (R10, R23). -/
def State.losesRing (s : State) : Bool :=
  decide (s.flu.ring ≠ .seeking) && decide (min 65535 (s.flu.miss + 1) = s.cfg.lossLimit)

/-- A synthesized epoch (R23). -/
def State.synthesize (s : State) : State :=
  ((s.onFlu fun u => u.synthesize s.now).watchEpoch).epochWork none false s.losesRing

/-- The expiry of the local cycle timer (R23). -/
def State.takeTimer (s : State) : State :=
  if s.nextPending then s.onFlu fun u => { u with expected := u.expected + u.interval } else s.synthesize

/-- The epoch event that is due: an apply instant, or else the local cycle timer; nothing if neither is. -/
def State.dueEpoch (s : State) : State :=
  if s.configured && s.entryDue then s.takeDue 3 else if s.timerDue then s.takeTimer else s

end Sys2Proof.Machine
end

