-- ==== Sys2Proof/Machine/Fibre.lean ====
section
/-! DEFINITION. The Fibre Line Unit's receivers and frames (section 1): link states, the start and end of a frame, and the
blocks of a frame on the out-run and on the return run. -/

namespace Sys2Proof.Machine

/-! ### Frames that end (R1) -/

/-- The out-run passage is a claim passage: a JOINED node, a good header, kind RUN; the master's own frame is one in RUN
(R128). At a member the same three make it an insertion passage once its tag block is good (R113). The ring state is judged at
each block: the model's choice (log 81). -/
def State.sends (s : State) : Bool := s.isJoined && s.flu.out.good && s.flu.out.run

/-- The out-run frame ends: its cell area ends with it (R1, R133). A member that has left JOINED within the passage makes no
check there: the model's choice (log 81). A claim passage whose frame ends early is checked once its tag block or slots have
come, also where the frame ends inside its slot area and no cell has come; one that ends before them is not: the model's
choice (log 84). -/
def State.endOut (s : State) : State :=
  let s1 := if s.flu.out.stage = .cells ∧ s.sends = true then s.endClaims else s
  s1.onFlu fun u => { u with out := Passage.idle }

/-- The master's run-up count is reset while it is in SETUP (R16). -/
def State.resetRunUp (s : State) : State :=
  if s.isMaster ∧ s.flu.mstate = .setup then s.onFlu fun u => { u with runUp := 0 } else s

/-- A return passage ends at its stage: a slot area in progress ends with it (R1, R124). -/
def State.endReturnStage (s : State) (p : Passage) : State :=
  if p.stage = .slots ∧ p.used = true then s.endSlotArea else s

/-- The return frame from downstream ends: a header or trip block not received whole counts as bad (R1, R16). That any bad
header counts as the return frame's is the model's choice (log 74). -/
def State.endRet (s : State) : State :=
  let s1 := s.endReturnStage s.flu.ret
  let s2 := if s.flu.ret.stage = .header ∨ s.flu.ret.stage = .trip ∧ s.flu.ret.isMatched = true then s1.resetRunUp
    else s1
  s2.onFlu fun u => { u with ret := Passage.idle }

/-- The turned-around copy ends. -/
def State.endCopy (s : State) : State :=
  (s.endReturnStage s.flu.copy).onFlu fun u => { u with copy := Passage.idle }

/-! ### Receivers (R2) -/

/-- The receiver of a port. -/
def Flu.link (u : Flu) (p : Port) : Link :=
  match p with
  | .upstream => u.up
  | .downstream => u.down

/-- Write the receiver of a port. -/
def Flu.setLink (u : Flu) (p : Port) (l : Link) : Flu :=
  match p with
  | .upstream => { u with up := l }
  | .downstream => { u with down := l }

/-- The frame in reception on a port ends; the master receives none upstream, its out-run frame being its own (R1, R15). -/
def State.endReception (s : State) (p : Port) : State :=
  match p with
  | .upstream => if s.isMaster then s else s.endOut
  | .downstream => s.endRet

/-- A receiver goes DARK: the frame in reception ends, and the end-node condition is judged (R2, R13). -/
def State.goDark (s : State) (p : Port) : State :=
  let s1 := s.endReception p
  State.noticeEnd s (s1.onFlu fun u => u.setLink p { state := .dark, since := (u.link p).since })

/-- Light is detected (R2). -/
def State.lightOn (s : State) (p : Port) : State :=
  if (s.flu.link p).state = .dark then
    State.noticeEnd s (s.onFlu fun u => u.setLink p { state := .locking, since := s.now })
  else s

/-- The lock interval has expired (R2). -/
def State.lockDone (s : State) (p : Port) : State :=
  if (s.flu.link p).state = .locking ∧ (s.flu.link p).since + Config.lockTicks ≤ s.now then
    s.onFlu fun u => u.setLink p { (u.link p) with state := .locked }
  else s

/-- The recovered clock leaves its band (R2). -/
def State.clockBad (s : State) (p : Port) : State :=
  match (s.flu.link p).state with
  | .dark => s
  | .locking => s.onFlu fun u => u.setLink p { state := .locking, since := s.now }
  | .locked => s.goDark p

/-- Light is lost (R2). -/
def State.lightOff (s : State) (p : Port) : State :=
  match (s.flu.link p).state with
  | .dark => s
  | .locking => s.goDark p
  | .locked => s.goDark p

/-! ### The out-run header (R8, R9, R11, R19, R20) -/

/-- R_avg, meaningful when 16 measurements are held (R19). -/
def Flu.avg (u : Flu) : Nat := u.meas.sum / 16

/-- A measurement enters the set; a full set loses its oldest (R19). -/
def addMeas (m : List Nat) (r : Nat) : List Nat :=
  (if Config.measCount ≤ m.length then m.drop 1 else m) ++ [r]

/-- d_k from the header's L (R20). -/
def Flu.delay (u : Flu) (l : Nat) : Nat := if u.meas.length = Config.measCount then (l - u.avg) / 2 else 0

/-- The position conditions of R9. -/
def State.positionFits (s : State) (p : Nat) : Bool :=
  decide (p ≤ 31) && (decide (s.cfg.expected = 0) || decide (p = s.cfg.expected))

/-- A good header in FOLLOWING takes the counted position; a change of it empties the measurements (R8, R9), and so does the
first position after SEEKING: the model's choice (log 38). The mismatch flag
of a position above 31 clears at a position that fits, with expected position 0 too: the model's choice (log 67). -/
def State.follow (s : State) (p : Nat) : State :=
  s.onFlu fun u =>
    { u with position := some p, mismatch := !s.positionFits p, meas := if u.position = some p then u.meas else [] }

/-- The ring state and the position at a good out-run header with counted position `p` (R8, R11). -/
def State.ringHeader (s : State) (p : Nat) : State :=
  match s.flu.ring with
  | .seeking => ((s.onFlu fun u => { u with ring := .following }).notify 1).follow p
  | .following => s.follow p
  | .joined =>
    if s.flu.position = some p then s
    else ((s.onFlu fun u => { u with changed := true }).notify 1).leaveRing

/-- The t_f of a cycle enters the set, in place of an earlier one of the same cycle (R19). -/
def recordTf (l : List (Word × Nat)) (cycle : Word) (tf : Nat) : List (Word × Nat) :=
  (l.filter fun p => decide (p.1 ≠ cycle)) ++ [(cycle, tf)]

/-- A good out-run header of a cycle begins its measurement: its t_f waits for the return run (log 57). A node that turns
the frame around measures its round trip, 96 ticks, at the header (R19; log 11), also one that ends JOINED (log 38). -/
def State.beginMeasure (s : State) (cycle : Word) : State :=
  if s.flu.turning then s.onFlu fun u => { u with meas := addMeas u.meas Config.residence }
  else s.onFlu fun u => { u with tf := recordTf u.tf cycle u.out.start }

/-- A member that was FOLLOWING when the header came joins with 16 measurements and its position conditions (R9). -/
def State.tryJoin (s : State) (was : RingState) (p : Nat) : State :=
  if was = .following ∧ s.flu.ring = .following ∧ s.flu.meas.length = Config.measCount ∧ s.positionFits p = true then
    s.enterJoined
  else s

/-- The passage carries a good header (R6). -/
def Passage.headed (p : Passage) (h : HeaderFields) : Passage := { p with good := true, run := h.run, cycle := h.cycle }

/-- A good out-run header at a member (R8, R9, R11, R19, R20), and the copy of a frame that is turned around carries the same
header (R13). The claims of a claim passage start with it (R128); at any other header the passage counts keep what they hold:
the model's choice (log 83). The oldest of three entries is taken after the work on the ring state, the last of the header's
effects: the model's choice (log 77). -/
def State.goodHeader (s : State) (h : HeaderFields) : State :=
  let p := h.hop + 1
  let s1 := ((s.ringHeader p).beginMeasure h.cycle).tryJoin s.flu.ring p
  let dk := s1.flu.delay h.l
  let s2 := s1.onFlu fun u =>
    { u with dk := dk, lastL := BitVec.ofNat 32 h.l, out := { u.out.headed h with stage := .trip },
             copy := if u.turning then u.copy.headed h else u.copy }
  (if s2.sends then s2.startClaims else s2).placeEntry (entryOf h s2.flu.out.start dk)

/-- The downstream frame's header as it leaves. -/
def State.sendHeader (s : State) (b : Block) : State := s.onFlu fun u => { u with txDown := { u.txDown with header := b } }

/-- An out-run header arrives (R6, R8). A repeater checks nothing (R4). -/
def State.outHeader (s : State) (b : Block) : State :=
  if s.flu.out.stage ≠ .header then s
  else
    match goodBytes 32 b with
    | some bs =>
      if s.isMember then
        let h := parseHeader bs
        (s.sendHeader (withHop bs (nextHop h.hop))).goodHeader h
      else (s.sendHeader b).onFlu fun u => { u with out := { u.out with stage := .trip } }
    | none => (s.sendHeader b).onFlu fun u => { u with out := { u.out with stage := .trip } }

/-! ### The out-run trip block, tag block, slots and cells -/

/-- A trip block as it is forwarded: as received where nothing of it changed (R5). -/
def passTrip (b : Block) (t t1 : TripFields) : Block := if t1 = t then b else buildTrip t1

/-- The out-run trip block arrives (R7, R12, R98). -/
def State.outTrip (s : State) (b : Block) : State :=
  if s.flu.out.stage ≠ .trip then s
  else
    let r := match goodBytes 32 b with
      | some bs =>
        if s.isMember then
          let r := s.memberTrip (parseTrip bs) s.flu.out.good
          (r.1, passTrip b (parseTrip bs) r.2)
        else (s, b)
      | none => (s, b)
    r.1.onFlu fun u => { u with out := { u.out with stage := .tags }, txDown := { u.txDown with trip := r.2 } }

/-- The tag block and the slot area pass; in an insertion passage the LIVE slots are inserted (R7, R113). The cell area is
awaited from here on, also where the frame ends inside the slot area: the model's choice (log 84). -/
def State.outSlots (s : State) (tags : Block) (slots : List Block) : State :=
  if s.flu.out.stage ≠ .tags then s
  else
    let r := match goodBytes 18 tags with
      | some bs =>
        if s.sends then
          let r := s.decideSlots bs
          (r.1, passTags bs r.2, r.1.passSlots r.2 slots)
        else (s, tags, slots)
      | none => (s, tags, slots)
    r.1.onFlu fun u =>
      { u with out := { u.out with stage := .cells, next := 0 }, txDown := { u.txDown with tags := r.2.1, slots := r.2.2 } }

/-- The cell as it stands before the node's decision: the one that arrives, or at the master an EMPTY one (R15). -/
def State.cellBefore (s : State) (b : Block) : Block := if s.isMaster then emptyCell else b

/-- The next cell of the out-run passes, or is formed at the master (R15, R129). -/
def State.outCell (s : State) (b : Block) : State :=
  if s.flu.out.stage = .cells ∧ s.flu.out.next < 96 then
    let r := if s.sends then s.decideCell (s.cellBefore b) else (s, s.cellBefore b)
    r.1.onFlu fun u =>
      { u with out := { u.out with next := u.out.next + 1 }, txDown := { u.txDown with cells := u.txDown.cells ++ [r.2] } }
  else s

/-- The cell area of the out-run has ended (R133). -/
def State.outEnd (s : State) : State :=
  if s.flu.out.stage = .cells ∧ s.flu.out.next = 96 then s.endOut else s

/-! ### The return run -/

/-- The passage a return block belongs to. -/
def Flu.returnPassage (u : Flu) (copy : Bool) : Passage := if copy then u.copy else u.ret

/-- Change that passage. -/
def State.onReturn (s : State) (copy : Bool) (f : Passage → Passage) : State :=
  s.onFlu fun u => if copy then { u with copy := f u.copy } else { u with ret := f u.ret }

/-- A good return header on the downstream receiver: the return-watch count, and so R14 (R13). -/
def State.seeReturn (s : State) : State :=
  State.noticeEnd s (s.onFlu fun u => { u with returnWatch := 0, goodReturn := true })

/-- A forwarding member's round trip: t_b is the arrival plus the residence. A cycle is measured once, in every ring state
(R19; log 38). -/
def State.measure (s : State) (cycle : Word) : State :=
  match s.flu.tf.find? fun p => decide (p.1 = cycle) with
  | some (_, tf) =>
    s.onFlu fun u =>
      { u with meas := addMeas u.meas (u.ret.start + Config.residence - tf),
               tf := u.tf.filter fun p => decide (p.1 ≠ cycle) }
  | none => s

/-- The master matches a good return header to its cycle and takes L (R17). -/
def State.matchReturn (s : State) (cycle : Word) : State :=
  if cycle = s.flu.origCount ∧ s.flu.originated = true ∧ s.flu.returnSeen = false then
    s.onFlu fun u =>
      { u with lastL := BitVec.ofNat 32 (u.ret.start - u.originAt), returnSeen := true,
               ret := { u.ret with isMatched := true } }
  else s

/-- A good return header from downstream (R13, R17, R19). A repeater checks nothing, so it knows no header as good (R4; log 78). -/
def State.goodReturn (s : State) (h : HeaderFields) : State :=
  let s1 := s.onReturn false fun p => { p.headed h with stage := .trip }
  if s.isMaster then s1.matchReturn h.cycle
  else if s.isMember then
    let s2 := s1.seeReturn
    if s.flu.ret.used then s2.measure h.cycle else s2
  else s.onReturn false fun p => { p with stage := .trip }

/-- The upstream frame's header as it leaves. -/
def State.sendUp (s : State) (b : Block) : State := s.onFlu fun u => { u with txUp := { u.txUp with header := b } }

/-- A return header (R6, R17, R19); the copy's is the header the node sent downstream, which was judged as it arrived. At the
master any bad one resets the run-up count, also after the cycle's return was matched: the model's choice (R16; log 74). -/
def State.retHeader (s : State) (src : ReturnSource) : State :=
  match src with
  | .copy =>
    if s.flu.copy.stage = .header ∧ s.flu.txDown.header ≠ [] then
      (s.sendUp s.flu.txDown.header).onReturn true fun p => { p with stage := .trip }
    else s
  | .arrived b =>
    if s.flu.ret.stage ≠ .header then s
    else
      let s1 := if s.flu.ret.used && !s.isMaster then s.sendUp b else s
      match goodBytes 32 b with
      | some bs => s1.goodReturn (parseHeader bs)
      | none => (s1.resetRunUp).onReturn false fun p => { p with stage := .trip }

/-! ### The return trip block -/

/-- Both masks hold every required position (R16). -/
def State.allReady (s : State) (t : TripFields) : Bool :=
  decide (t.presence &&& s.cfg.required = s.cfg.required) && decide (t.ready &&& s.cfg.required = s.cfg.required)

/-- The run-up count at a good matched return trip block in SETUP; at 16 the master passes to RUN (R16, R18). -/
def State.runUpTrip (s : State) (t : TripFields) : State :=
  if s.allReady t then
    if 16 ≤ s.flu.runUp + 1 then
      (s.onFlu fun u => { u with runUp := 16, mstate := .run, absence := Vector.replicate 32 0 }).notify 1
    else s.onFlu fun u => { u with runUp := u.runUp + 1 }
  else s.onFlu fun u => { u with runUp := 0 }

/-- The absence counts after a trip block with a presence mask (R18). -/
def nextAbsence (required presence : Word) (a : Vector Nat 32) : Vector Nat 32 :=
  Vector.ofFn fun p =>
    if required.getLsbD p.val then (if presence.getLsbD p.val then 0 else min 255 (a[p] + 1)) else a[p]

/-- Some required position's absence count is at or above ring_loss_limit (R18). -/
def State.nodeAbsent (s : State) : Bool :=
  (List.finRange 32).any fun p => s.cfg.required.getLsbD p.val && decide (s.cfg.lossLimit ≤ s.flu.absence[p])

/-- The absence counts and the node-missing condition in RUN (R18). The condition is handed over at the return trip block
that makes it present (R18, R90), and its stamp has phase 0 (R91; log 54). -/
def State.absenceTrip (s : State) (t : TripFields) : State :=
  let s1 := s.onFlu fun u => { u with absence := nextAbsence s.cfg.required t.presence u.absence }
  s1.handStamped 14 s1.nodeAbsent { cycle := s.flu.cycle, phase := 0 }

/-- A good matched return trip block at the master (R16, R18, R96, R99, R106). -/
def State.masterTrip (s : State) (t : TripFields) : State :=
  let s1 := s.masterReturnTrip t
  if s1.flu.mstate = .setup then s1.runUpTrip t else s1.absenceTrip t

/-- A trip block on the return run of a member: handled, and forwarded upstream (R99). -/
def State.memberRetTrip (s : State) (b : Block) : State :=
  let r := match goodBytes 32 b with
    | some bs =>
      let r := s.memberReturnTrip (parseTrip bs)
      (r.1, passTrip b (parseTrip bs) r.2)
    | none => (s, b)
  r.1.onFlu fun u => { u with txUp := { u.txUp with trip := r.2 } }

/-- The return trip block from downstream, by role: at the master it counts in a matched frame only; a repeater forwards
it; a disregarded frame's is not looked at (R4, R13, R16, R99). -/
def State.arrivedTrip (s : State) (b : Block) : State :=
  if s.isMaster then
    if s.flu.ret.isMatched then
      match goodBytes 32 b with
      | some bs => s.masterTrip (parseTrip bs)
      | none => s.resetRunUp
    else s
  else if !s.flu.ret.used then s
  else if s.isMember then s.memberRetTrip b
  else s.onFlu fun u => { u with txUp := { u.txUp with trip := b } }

/-- A return trip block (R99); the slot area comes next. -/
def State.retTrip (s : State) (src : ReturnSource) : State :=
  match src with
  | .copy =>
    if s.flu.copy.stage = .trip ∧ s.flu.txDown.trip ≠ [] then
      (s.memberRetTrip s.flu.txDown.trip).onReturn true fun p => { p with stage := .slots, next := 0 }
    else s
  | .arrived b =>
    if s.flu.ret.stage = .trip then (s.arrivedTrip b).onReturn false fun p => { p with stage := .slots, next := 0 }
    else s

/-! ### Slots and cells of the return run -/

/-- The node receives slots: FOLLOWING or JOINED (R119), judged at each slot: the model's choice (log 81). -/
def State.receives (s : State) : Bool := s.configured && decide (s.flu.ring ≠ .seeking)

/-- A slot of a return passage with its tag block (R119, R120). -/
def State.slotArrives (s : State) (p : Passage) (n : Fin 128) (tags slot : Block) : State :=
  if s.receives && p.good && p.used then
    match goodBytes 18 tags, slotPublisher slot with
    | some bs, some (pub, data) => if tagBit bs n then s.receiveSlot n pub data else s
    | _, _ => s
  else s

/-- Slot `n` of a return passage, no slot at or after it having passed (R120). -/
def State.retSlot (s : State) (n : Fin 128) (src : SlotSource) : State :=
  match src with
  | .copy =>
    if s.flu.copy.stage = .slots ∧ s.flu.copy.next ≤ n.val then
      match s.flu.txDown.slots[n.val]? with
      | some b => (s.slotArrives s.flu.copy n s.flu.txDown.tags b).onReturn true fun p => { p with next := n.val + 1 }
      | none => s
    else s
  | .arrived tags b =>
    if s.flu.ret.stage = .slots ∧ s.flu.ret.next ≤ n.val then
      (s.slotArrives s.flu.ret n tags b).onReturn false fun p => { p with next := n.val + 1 }
    else s

/-- The source is the node's own copy. -/
def fromCopy (src : AreaSource) : Bool :=
  match src with
  | .arrived _ _ => false
  | .copy => true

/-- A return passage goes upstream: the copy, or an arriving one that the node uses and is not the master's (R3, R4, R13,
R15). -/
def State.goesUp (s : State) (copy : Bool) : Bool := copy || (s.flu.ret.used && !s.isMaster)

/-- Tag block and slots of a return passage leave upstream as they arrived, or as the copy holds them (R3, R4, R13). -/
def State.sendArea (s : State) (src : AreaSource) : State :=
  if s.goesUp (fromCopy src) then
    match src with
    | .arrived tags slots => s.onFlu fun u => { u with txUp := { u.txUp with tags := tags, slots := slots } }
    | .copy => s.onFlu fun u => { u with txUp := { u.txUp with tags := u.txDown.tags, slots := u.txDown.slots } }
  else s

/-- The end of the slot area of a return passage (R124). -/
def State.retSlotsEnd (s : State) (src : AreaSource) : State :=
  let p := s.flu.returnPassage (fromCopy src)
  if p.stage = .slots then
    let s1 := if p.used then s.endSlotArea else s
    (s1.sendArea src).onReturn (fromCopy src) fun p => { p with stage := .cells, next := 0 }
  else s

/-- The passage after one more cell; the 96th ends the frame. -/
def Passage.cellPassed (p : Passage) : Passage := if 96 ≤ p.next + 1 then Passage.idle else { p with next := p.next + 1 }

/-- A cell of a delivery passage: a good header, at a JOINED member or the master (R134). The ring state is judged at each cell:
the model's choice (log 81). -/
def State.cellArrives (s : State) (p : Passage) (b : Block) : State :=
  if s.isJoined && p.good && p.used then s.deliverCell b else s

/-- A cell of a return passage leaves upstream as it arrived (R3, R4, R134). -/
def State.sendCell (s : State) (copy : Bool) (b : Block) : State :=
  if s.goesUp copy then s.onFlu fun u => { u with txUp := { u.txUp with cells := u.txUp.cells ++ [b] } } else s

/-- A cell of a return passage: delivered where it is this node's, and sent on (R134). -/
def State.passCell (s : State) (copy : Bool) (b : Block) : State :=
  ((s.cellArrives (s.flu.returnPassage copy) b).sendCell copy b).onReturn copy Passage.cellPassed

/-- The next cell of a return passage (R134). -/
def State.retCell (s : State) (src : ReturnSource) : State :=
  match src with
  | .copy =>
    if s.flu.copy.stage = .cells then
      match s.flu.txDown.cells[s.flu.copy.next]? with
      | some b => s.passCell true b
      | none => s
    else s
  | .arrived b => if s.flu.ret.stage = .cells then s.passCell false b else s

/-! ### The start of a frame (R1, R3, R13) -/

/-- A passage whose first header byte comes at `start`. -/
def Passage.started (start : Nat) (used : Bool) : Passage :=
  { stage := .header, start := start, good := false, run := false, cycle := 0, isMatched := false, used := used, next := 0 }

/-- A frame leaving from instant `start`, nothing of it sent yet. -/
def TxFrame.started (start : Nat) : TxFrame := { TxFrame.idle with start := some start }

/-- What is left of the copy in its residence leaves upstream and is received: all of it arrived before the next frame
starts (R1, R3, R13; log 14). -/
def State.drainCopy (s : State) : State :=
  let s1 := (s.retHeader .copy).retTrip .copy
  let s2 := ((List.finRange 128).foldl (fun s n => s.retSlot n .copy) s1).retSlotsEnd .copy
  ((List.range 96).foldl (fun s _ => s.retCell .copy) s2).endCopy

/-- The return frame in passage is disregarded from here on: it is received no further and no more of it goes upstream, the
copy taking its place (R13); what it brought so far lands (R124; log 27). -/
def State.disregardRet (s : State) : State :=
  (s.endReturnStage s.flu.ret).onFlu fun u => { u with ret := { u.ret with used := false } }

/-- A frame starts on the upstream receiver, the master's being disregarded: the previous frame ends, and the node
decides whether it turns this one around (R1, R13, R14). -/
def State.startOut (s : State) : State :=
  if s.isMaster then s
  else
    let s1 := s.endOut.drainCopy
    let turn := s.isEndNode
    let t := s.now + 1
    (if turn then s1.disregardRet else s1).onFlu fun u =>
      { u with out := Passage.started t true, turning := turn, txDown := TxFrame.started (t + Config.residence),
               copy := if turn then Passage.started t true else Passage.idle,
               txUp := if turn then TxFrame.started (t + Config.residence) else u.txUp }

/-- A frame starts on the downstream receiver. An end node, and a node still turning frames around, disregards it except
for its header (R13, R14). -/
def State.startRet (s : State) : State :=
  let s1 := s.endRet
  let used := !s.isEndNode && !s.flu.turning
  let t := s.now + 1
  s1.onFlu fun u =>
    { u with ret := Passage.started t used,
             txUp := if used && !s.isMaster then TxFrame.started (t + Config.residence) else u.txUp }

/-- A start symbol on a LOCKED receiver (R1, R2). -/
def State.startFrame (s : State) (p : Port) : State :=
  if (s.flu.link p).state = .locked then
    match p with
    | .upstream => s.startOut
    | .downstream => s.startRet
  else s

end Sys2Proof.Machine
end

