-- ==== Sys2Proof/Machine/Origin.lean ====
section
/-! DEFINITION. The master's origination (R15 to R18, R56, R96, R113, R128). The cells of its frame are Fibre.lean's. -/

namespace Sys2Proof.Machine

/-- The return-miss count at an origination: the previous cycle's return frame is judged, from the second origination on
(R17); a missing one resets the run-up count (R16). -/
def State.judgeReturn (s : State) : State :=
  if s.flu.originated = false then s
  else if s.flu.returnSeen then s.onFlu fun u => { u with returnMiss := 0 }
  else (s.onFlu fun u => { u with returnMiss := min 255 (u.returnMiss + 1) }).resetRunUp

/-- The condition of source 10 at the master, handed over at its origination: the stamp has phase 0 (R17, R90, R91), and its
cycle number is the node's own: the model's choice (log 53). -/
def State.handMasterLoss (s : State) : State :=
  s.handStamped 10 (decide (s.cfg.lossLimit ≤ s.flu.returnMiss)) { cycle := s.flu.cycle, phase := 0 }

/-- The next frame's cycle number and t_f (R15). -/
def State.countFrame (s : State) : State :=
  s.onFlu fun u =>
    { u with originated := true, origCount := u.origCount + 1, originAt := s.now, nextOrigin := u.nextOrigin + Config.cycleTicks,
             returnSeen := false }

/-- The master's tag block and slots: empty, with its own insertions in RUN (R15, R113). -/
def State.formSlots (s : State) : State × Block × List Block :=
  let empty := List.replicate 128 emptySlot
  if s.flu.mstate = .run then
    let r := s.decideSlots (List.replicate 16 0)
    (r.1, passTags (List.replicate 16 0 ++ crcBytes (crc16 (List.replicate 16 0))) r.2, r.1.passSlots r.2 empty)
  else (s, sealed (List.replicate 16 0), empty)

/-- The cells of the previous frame that are still to be formed are formed before the next frame begins, and its cell area
ends (R15, R129, R133; log 24). -/
def State.finishCells (s : State) : State :=
  if s.flu.out.stage = .cells then ((List.range 96).foldl (fun s _ => s.outCell emptyCell) s).endOut else s

/-- The claim passage of the master's own frame begins in RUN (R128); at an origination in SETUP the passage counts keep what
they hold: the model's choice (log 83). -/
def State.openClaims (s : State) : State := if s.flu.mstate = .run then s.startClaims else s

/-- The master's own frame in passage: its cells come next (R15). -/
def Passage.own (start : Nat) (run : Bool) (cycle : Word) : Passage :=
  { Passage.started start true with stage := .cells, good := true, run := run, cycle := cycle }

/-- The shaft values of the header of a frame, of kind RUN or SETUP. A RUN header carries the generator's as they stand (R56). A SETUP header
shows V = 0 and STANDSTILL (R16, R56), also while class A holds the generator COASTED (R49): which of these rules gives way
there is the model's choice (log 50). -/
def Gen.header (g : Gen) (run : Bool) : HeaderShaft :=
  { angle := g.angle, rev := g.rev, speed := if run then g.speed else 0, state := if run then g.state else .standstill }

/-- The fields of the master's own header, as R20 takes them. -/
def State.ownHeader (s : State) : HeaderFields :=
  { cycle := s.flu.origCount, run := decide (s.flu.mstate = .run), hop := 0, dApply := s.cfg.dApply,
    l := s.flu.lastL.toNat, shaft := s.lsu.gen.header (decide (s.flu.mstate = .run)) }

/-- One origination: return judged, frame begun and sent, own header taken as a good header with d_0 = 0 (R15 to R17,
R20). Header, trip block, tag block and slots are formed at its t_f (log 24); the cells are formed one by one behind them
(R129). The master's header brings no measurement of R19, whose measurements a member keeps: the model's choice (log 49).
The header sent and the entry of the master's own epoch hold the same shaft values (R56, R58). -/
def State.originate (s : State) : State :=
  let s1 := ((s.finishCells.judgeReturn).handMasterLoss).countFrame
  let own := s1.ownHeader
  let header := buildHeader own.cycle own.run own.dApply s1.flu.lastL own.shaft
  let trip := s1.formTrip
  let slots := trip.1.formSlots
  let s2 := slots.1.openClaims.onFlu fun u =>
    { u with out := Passage.own s.now (decide (u.mstate = .run)) u.origCount,
             txDown := { start := some s.now, header := header, trip := buildTrip trip.2, tags := slots.2.1,
                         slots := slots.2.2, cells := [] } }
  s2.placeEntry (entryOf own s.now 0)

/-- The origination timer has expired (R15). -/
def State.originDue (s : State) : Bool := s.isMaster && decide (s.flu.nextOrigin ≤ s.now)

/-- The expiry of the origination timer (R15). -/
def State.takeOrigin (s : State) : State := if s.originDue then s.originate else s

end Sys2Proof.Machine
end

