-- ==== Sys2Proof/Machine/Status.lean ====
section
/-! DEFINITION. The substituted words (R34): notice record, synchronized time, ring status, blocked-write latch,
configuration status record and live angles, laid out by R201. -/

namespace Sys2Proof.Machine

/-! ### Notice record, time and blocked-write latch (R194, R25, R33) -/

/-- The notice record's first word. -/
def Cnu.noticeWord (c : Cnu) : Word := packWord [(c.flags.toNat, 16), (c.mask.toNat, 16)]

/-- The blocked-write latch's first word; 0 while it is empty (log 59). -/
def latchWord (l : Option BlockedLatch) : Word :=
  match l with
  | some l => packWord [(4 * l.addr, 26), (0, 4), (bit l.further, 1), (1, 1)]
  | none => 0

/-- The blocked-write latch's second word; 0 while it is empty (log 59). -/
def latchKind (l : Option BlockedLatch) : Word :=
  match l with
  | some l => packWord [(l.be.toNat, 4), (0, 4), (kindCode l.kind, 4)]
  | none => 0

/-! ### Ring status record (R25) -/

/-- The code of the ring state; REPEATER until configured. -/
def State.ringCode (s : State) : Nat :=
  if s.configured then
    match s.flu.ring with
    | .seeking => 0
    | .following => 1
    | .joined => 2
  else 4

/-- The code of a link state. -/
def LinkState.code (x : LinkState) : Nat :=
  match x with
  | .dark => 0
  | .locking => 1
  | .locked => 2

/-- Position bits, unassigned and beyond-range bits. While no position is held the position bits are free (log 46). -/
def positionFields (p : Option Nat) : List (Nat × Nat) :=
  let free := (Config.unheldPosition p).toNat
  match p with
  | some n => if n ≤ 31 then [(n, 5), (0, 1), (0, 1)] else [(free, 5), (0, 1), (1, 1)]
  | none => [(free, 5), (1, 1), (0, 1)]

/-- Word 0 of the ring status record. -/
def State.ringWord (s : State) : Word :=
  let u := s.flu
  packWord ([(s.ringCode, 3), (u.up.state.code, 2), (u.down.state.code, 2), (bit s.isEndNode, 1)] ++
    positionFields u.position ++
    [(bit u.mismatch, 1), (bit u.changed, 1), (u.meas.length, 5), (bit u.applyLate, 1)])

/-- Word 1: R_avg and d_k, 0 while fewer than 16 measurements are held, saturating. -/
def Flu.delayWord (u : Flu) : Word :=
  if u.meas.length = Config.measCount then packWord [(min 65535 u.avg, 16), (min 65535 u.dk, 16)] else 0

/-- Word 3: the counts and, at the master, its state. -/
def State.countWord (s : State) : Word :=
  let u := s.flu
  if s.isMaster then
    packWord [(u.miss, 16), (u.returnMiss, 8), (u.runUp, 5), (0, 2), (bit (decide (u.mstate = .run)), 1)]
  else packWord [(u.miss, 16)]

/-! ### Configuration status record (R192, R115, R149, R168, R185) -/

/-- Words 0 to 2 of a camera channel; the scheduled phase is 0 while no firing is scheduled (log 59). -/
def State.cameraWord (s : State) (i : Fin 4) (w : Nat) : Word :=
  let c := s.cmu.ch[i]
  if w = 0 then
    packWord [(bit (s.cfg.cams[i]).isSome, 1), (c.pointer, 3), (bit c.sched.isSome, 1), (bit c.pulse.isSome, 1),
      (bit c.exposure.isSome, 1), (bit c.overrun, 1), (bit c.skipped, 1), (c.sched.getD 0, 8), (c.lapPhase, 8)]
  else if w = 1 then packWord [(c.lapCount.toNat, 16)] else c.count

/-- The code of a capture state. -/
def CaptureState.code (x : CaptureState) : Nat :=
  match x with
  | .idle => 0
  | .capturing => 1
  | .skipping => 2

/-- The code of a buffer's ownership. -/
def Ownership.code (x : Ownership) : Nat :=
  match x with
  | .free => 0
  | .assembling => 1
  | .closing => 2
  | .processor => 3

/-- Words 0 to 3 of a receive stream; with no image in assembly its broken mark, buffer index, landed count and image number
are 0 (log 59). -/
def Stream.statusWord (x : Stream) (w : Nat) : Word :=
  if w = 0 then
    match x.asm with
    | some a => packWord [(1, 1), (bit a.broken, 1), (a.buffer.val, 4), (x.next.val, 4), (a.landed, 15)]
    | none => packWord [(0, 1), (0, 1), (0, 4), (x.next.val, 4), (0, 15)]
  else if w = 1 then packWord [(match x.asm with | some a => a.imgNo.toNat | none => 0, 16), (x.drop, 16)]
  else if w = 2 then packWord (x.own.toList.map fun o => (o.code, 2))
  else x.order

/-- The word of an outgoing screen. -/
def State.outScreenWord (s : State) (i : Fin 2) : Word :=
  let o := s.scu.out[i]
  match s.cfg.screenOut i with
  | some (_, p) => packWord [(1, 1), (dirtyCount p o.dirty, 14), (o.scan, 13)]
  | none => packWord [(0, 1), (0, 14), (o.scan, 13)]

/-- The word of the incoming screens and the transmit queue. -/
def State.inScreenWord (s : State) : Word :=
  packWord [(bit (s.cfg.screenIn 0).isSome, 1), (bit (s.cfg.screenIn 1).isSome, 1),
    (bit (s.cls.requests.contains 0), 1), (bit (s.cls.requests.contains 1), 1), (s.scu.landed[(0 : Fin 2)].toNat, 16),
    (s.igu.tx.length, 7)]

/-- The word of the latest refresh command, whose tag and code are 0 before the first (log 59). -/
def State.refreshWord (s : State) : Word :=
  match s.scu.refresh with
  | some (tag, code) => packWord [(s.scu.landed[(1 : Fin 2)].toNat, 16), (tag.toNat, 8), (code, 3)]
  | none => packWord [(s.scu.landed[(1 : Fin 2)].toNat, 16)]

/-- The word of the keys; the lock key is 0 while the lock is free (R181). -/
def State.keysWord (s : State) : Word :=
  let k := s.ksc
  packWord ([(bit s.cfg.keys.isSome, 1), (bit k.lock.isSome, 1), ((k.lock.map Fin.val).getD 0, 6), (k.queue.length, 5),
    (bit k.overflow, 1)] ++
    match s.cfg.keys with
    | some c => c.stops.map fun n => (bit (k.debounced.getLsbD n.val), 1)
    | none => [])

/-- The configuration status record from offset 0xE0 on. -/
def State.tailWord (s : State) (off : Nat) : Word :=
  if off = 0xE0 then s.outScreenWord 0
  else if off = 0xE4 then s.outScreenWord 1
  else if off = 0xE8 then
    packWord [(s.scu.out[(0 : Fin 2)].sweep, 13), (s.scu.out[(1 : Fin 2)].sweep, 13), (s.scu.buffer.length, 3),
      (s.scu.inFlight.length, 2)]
  else if off = 0xEC then s.inScreenWord
  else if off = 0xF0 then s.refreshWord
  else if off = 0xF4 then s.keysWord
  else if off = 0xF8 then packWord [(s.ksc.writeIndex, 6), (s.ksc.landedCount.toNat, 16)]
  else 0

/-- The configuration status record below offset 0xE0. The expected offset e shows its low 22 bits, 0 after an image of 4 MiB: the
model's choice (log 61). -/
def State.statusWord (s : State) (off : Nat) : Word :=
  if off = 0x34 then packWord [(s.cnu.status.cst, 3), (bit s.cfg.master, 1), (s.cfg.expected, 5)]
  else if off = 0x38 then (s.cnu.flash.map FlashHeader.ident).getD 0
  else if off = 0x3C then (s.cnu.flash.map FlashHeader.length).getD 0
  else if off = 0x40 then (s.cnu.flash.map FlashHeader.crc).getD 0
  else if off < 0x54 then s.slu.conflicts.extractLsb' (8 * (off - 0x44)) 32
  else if off < 0x84 then s.cameraWord (Fin.ofNat 4 ((off - 0x54) / 12)) ((off - 0x54) % 12 / 4)
  else if off < 0x94 then
    packWord [(s.igu.cap[Fin.ofNat 4 ((off - 0x84) / 4)].e, 22), (s.igu.cap[Fin.ofNat 4 ((off - 0x84) / 4)].state.code, 2)]
  else if off = 0x94 then packWord [(s.igu.cap[(0 : Fin 4)].imgNo.toNat, 16), (s.igu.cap[(1 : Fin 4)].imgNo.toNat, 16)]
  else if off = 0x98 then packWord [(s.igu.cap[(2 : Fin 4)].imgNo.toNat, 16), (s.igu.cap[(3 : Fin 4)].imgNo.toNat, 16)]
  else if off = 0x9C then packWord (s.igu.streams.toList.map fun x => (x.relErr, 8))
  else if off < 0xE0 then s.igu.streams[Fin.ofNat 4 ((off - 0xA0) / 16)].statusWord ((off - 0xA0) % 16 / 4)
  else s.tailWord off

/-- The substituted word at offset `off` of the NODE window (R25, R33, R194, R201). -/
def State.nodeWord (s : State) (off : Nat) : Word :=
  if off = 0x00 then s.cnu.noticeWord
  else if off = 0x04 then packWord [(s.pendingNumber, 5)]
  else if off = 0x14 then s.flu.cycle
  else if off = 0x18 then packWord [(s.phase, 8)]
  else if off = 0x1C then latchWord s.ptu.latch
  else if off = 0x20 then latchKind s.ptu.latch
  else if off = 0x24 then s.ringWord
  else if off = 0x28 then s.flu.delayWord
  else if off = 0x2C then s.flu.lastL
  else if off = 0x30 then s.countWord
  else s.statusWord off

/-- The value of a substituted word in the present state (R34, R86); 0 for a word of another class. -/
def State.liveWord (s : State) (id : Ident) : Word :=
  match id with
  | .nodeLive off => s.nodeWord off
  | .axisLive n => s.liveAngle n
  | _ => 0

end Sys2Proof.Machine
end

