-- ==== Sys2Proof/Machine/Port.lean ====
section
/-! DEFINITION. The P-port cycle and the M-port (section 2): classification and snapshot, what each accepted beat does, the
commands taken at a cycle's completion, arbitration, and the completion of a burst. -/

namespace Sys2Proof.Machine

/-! ### Beats (R26, R28 to R35) -/

/-- A blocked write beat in the latch (R32, R33). -/
def State.blockBeat (s : State) (b : PBeat) : State :=
  (s.onPtu fun p =>
    { p with latch := match p.latch with
        | none => some { addr := b.addr, be := b.be, kind := b.id.landedKind, further := false }
        | some l => some { l with further := true } }).notify 4

/-- What the owner of a capture word does at an accepted write beat, the shadow being updated: pending marks, the commit,
and the commands taken at the cycle's completion (R30, R31, R35, R36, R111). -/
def State.ownerBeat (s : State) (b : PBeat) : State :=
  let take := s.onPtu fun p => { p with cycle := p.cycle.map fun c => { c with takes := c.takes ++ [b] } }
  match b.id with
  | .noticeMask => take
  | .noticeClear => take
  | .refresh => take
  | .tripCommand _ => take
  | .withdraw _ _ => take
  | .release _ _ => take
  | .shaftCommand => s.onPtu fun p => { p with shaftPending := true }
  | .axisCommand n => s.onPtu fun p => { p with axisPending := setAt p.axisPending n true }
  | .slotWord n i => if i = 3 then s.takeCommit n b.addr else s
  | .camOut ch off => s.camBeat ch off b.data b.be
  | .screenOut i off => s.screenBeat i off
  | .shaftParam => s
  | .axisParam _ => s
  | .outside => s
  | .ordinary => s
  | .nodeLive _ => s
  | .axisLive _ => s
  | .landed _ => s

/-- A write beat is accepted (R26, R29 to R34). A write to a substituted word is absorbed. -/
def State.writeBeat (s : State) (b : PBeat) : State :=
  match b.id.wordClass with
  | .landed => s.blockBeat b
  | .substituted => s
  | .outside => s.onMem fun m => Memory.setWord m b.addr b.data b.be
  | .ordinary => s.onMem fun m => Memory.setWord m b.addr b.data b.be
  | .capture =>
    let s1 := s.onMem fun m => Memory.setWord m b.addr b.data b.be
    let s2 := if b.id.hasShadow then s1.setShadow b.addr b.data b.be else s1
    s2.ownerBeat b

/-- The word a read beat returns: memory, or the snapshot's answer (R26, R30, R34). -/
def State.readWord (s : State) (b : PBeat) : Word := if b.id.reaches false then Memory.word s.mem b.addr else b.ans

/-- A beat of the cycle in progress is accepted. -/
def State.acceptBeat (s : State) (write : Bool) (b : PBeat) : State :=
  if write then s.writeBeat b
  else s.onPtu fun p => { p with cycle := p.cycle.map fun c => { c with answers := c.answers ++ [s.readWord b] } }

/-- Beats accepted in order. -/
def State.acceptBeats (s : State) (write : Bool) (bs : List PBeat) : State :=
  bs.foldl (fun s b => s.acceptBeat write b) s

/-! ### Commands taken at a cycle's completion (R36) -/

/-- The flags cleared by a write of the notice clear word: the bits that are one in its enabled bytes (R195). -/
def clearedFlags (b : PBeat) : BitVec 16 := (mergeBytes 0 b.data b.be).setWidth 16

/-- What the clearing of flags 1, 3, 4 and 13 clears with them (R195). -/
def State.clearKept (s : State) (f : BitVec 16) : State :=
  let s1 := if f.getLsbD 1 then s.onFlu fun u => { u with changed := false } else s
  let s2 := if f.getLsbD 3 then s1.onSlu fun u => { u with conflicts := 0 } else s1
  let s3 := if f.getLsbD 4 then s2.onPtu fun p => { p with latch := none } else s2
  if f.getLsbD 13 then s3.onCmu fun u => { u with ch := u.ch.map fun c => { c with skipped := false } } else s3

/-- The notice clear is taken (R195). -/
def State.takeClear (s : State) (b : PBeat) : State :=
  (s.onCnu fun c => { c with flags := c.flags &&& ~~~(clearedFlags b) }).clearKept (clearedFlags b)

/-- The notice mask is taken from its shadow: bits 1 to 15 (R193). -/
def State.takeMask (s : State) (w : Word) : State := s.onCnu fun c => { c with mask := w.setWidth 16 &&& ~~~1#16 }

/-- A command is taken at the completion of the cycle that wrote it (R36). -/
def State.takeBeat (s : State) (b : PBeat) : State :=
  match b.id with
  | .noticeMask => s.takeMask (s.shadowAt b.addr)
  | .noticeClear => s.takeClear b
  | .refresh => s.takeRefresh (s.shadowAt b.addr)
  | .tripCommand which => s.takeTripCommand which (s.shadowAt b.addr)
  | .withdraw first count => s.takeWithdraw first count (s.shadowAt b.addr)
  | .release st k => s.takeRelease st k
  | _ => s

/-- The cycle in progress completes: its data are returned and its commands taken (R26, R36). Several commands of one burst
are taken in beat order: the model's choice (log 51). -/
def State.endCycle (s : State) : State :=
  match s.ptu.cycle with
  | some c =>
    c.takes.foldl State.takeBeat (s.onPtu fun p =>
      { p with cycle := none, readData := if c.write then p.readData else c.answers })
  | none => s

/-! ### Runs of a cycle (R28, R44) -/

/-- Beats that need no memory, at the front of those left, are accepted (R44). -/
def State.passBeats (s : State) : State :=
  match s.ptu.cycle with
  | some c =>
    let go := c.beats.takeWhile fun b => !b.id.reaches c.write
    let rest := c.beats.dropWhile fun b => !b.id.reaches c.write
    (s.onPtu fun p => { p with cycle := some { c with beats := rest } }).acceptBeats c.write go
  | none => s

/-- The maximal run at the front is accepted as its M-port burst completes, with the beats behind it that need no memory
(R28; log 5). -/
def State.passRun (s : State) : State :=
  match s.ptu.cycle with
  | some c =>
    let go := c.beats.takeWhile fun b => b.id.reaches c.write
    let rest := c.beats.dropWhile fun b => b.id.reaches c.write
    ((s.onPtu fun p => { p with cycle := some { c with beats := rest } }).acceptBeats c.write go).passBeats
  | none => s

/-- No beat of the cycle in progress is left. -/
def State.cycleSpent (s : State) : Bool := s.ptu.cycle.any fun c => c.beats.isEmpty

/-! ### Arbitration (R42 to R44) -/

/-- Give the M-port to a holder. -/
def State.giveTo (s : State) (h : Holder) : State := s.onLde fun q => { q with holder := h }

/-- The foremost P-port cycle waits for the M-port (R44). -/
def State.cycleWaits (s : State) : Bool := s.ptu.cycle.any fun c => !c.granted

/-- WAIT# is active: some P-port cycle is held (R44). -/
def State.waitActive (s : State) : Bool := s.cycleWaits || !s.ptu.behind.isEmpty

/-- The P-port cycle is granted: WAIT# is released and its beats before the first run are accepted (R44). -/
def State.grantCycle (s : State) : State :=
  ((s.giveTo .cycle).onPtu fun p => { p with cycle := p.cycle.map fun c => { c with granted := true } }).passBeats

/-- The oldest NORMAL entry is starved once its wait reaches the limit, until it completes (R43). -/
def State.starve (s : State) : State := if s.waitReached then s.onLde fun q => { q with starved := true } else s

/-- The arbiter grants the next burst where the M-port is free (R42). -/
def State.arbitrate (s : State) : State :=
  if s.lde.holder ≠ .free then s
  else
    let s1 := s.starve
    if !s1.lde.urgent.isEmpty then s1.giveTo .urgent
    else if s1.cycleWaits && !(s1.lde.starved && !s1.lde.normal.isEmpty) then s1.grantCycle
    else if !s1.lde.normal.isEmpty then s1.giveTo .normal
    else s1

/-! ### Bursts that complete (R37, R40, R42, R45) -/

/-- The words of a landing burst are in memory (R45). -/
def State.writeRun (s : State) (r : Run) : State := s.onMem fun m => Memory.setWords m r.addr r.words

/-- The follow-on record of a source enters the queue at the tail of its class (R40). -/
def Lde.takeFollow (q : Lde) (src : UrgentSource) : Lde :=
  match q.follow.find? fun f => decide (f.1 = src) with
  | some f =>
    { q with urgent := q.urgent ++ [{ src := src, runs := f.2, done := 0 }],
             follow := q.follow.filter fun g => decide (g.1 ≠ src) }
  | none => q

/-- A burst of the oldest URGENT entry completes; after its last the entry leaves (R40, R42). -/
def State.urgentBurst (s : State) : State :=
  match s.lde.urgent with
  | [] => s
  | e :: rest =>
    let bursts := burstsOf e.runs
    let s1 := match bursts[e.done]? with
      | some r => s.writeRun r
      | none => s
    if bursts.length ≤ e.done + 1 then
      s1.onLde fun q => { q with urgent := rest }.takeFollow e.src
    else s1.onLde fun q => { q with urgent := { e with done := e.done + 1 } :: rest }

/-- The requester of a NORMAL entry learns of its completion (R37, R45, R166, R173, R177, R184). -/
def State.entryDone (s : State) (req : Requester) (got : List Word) : State :=
  match req with
  | .result => s.notify 5
  | .fragment => s
  | .descriptor st buf complete => s.descriptorLanded st buf complete
  | .emptyDescriptor => s
  | .tileRead i t => s.fetchDone i t got
  | .tileLand i => s.tileLanded i
  | .keys => s.notify 9

/-- The entry is a tile read. -/
def Requester.isRead (r : Requester) : Bool :=
  match r with
  | .tileRead _ _ => true
  | _ => false

/-- A burst of the oldest NORMAL entry completes; after its last the entry leaves and its requester learns of it (R42,
R43, R45). -/
def State.normalBurst (s : State) : State :=
  match s.lde.normal with
  | [] => s
  | e :: rest =>
    let bursts := burstsOf e.runs
    let run := bursts.getD e.done { addr := 0, words := [] }
    let got := if e.req.isRead then e.got ++ Memory.words s.mem run.addr run.words.length else e.got
    let s1 := if e.req.isRead then s else s.writeRun run
    if bursts.length ≤ e.done + 1 then
      (s1.onLde fun q => { q with normal := rest, starved := false }).entryDone e.req got
    else s1.onLde fun q => { q with normal := { e with done := e.done + 1, got := got } :: rest }

/-- The M-port is free again. -/
def State.freePort (s : State) : State := s.giveTo .free

/-- The P-port cycle presented next waits for the M-port in its turn (R44, steps 6 and 7 of 2.9; log 58). -/
def State.nextCycle (s : State) : State :=
  match s.ptu.behind with
  | c :: rest => s.onPtu fun p => { p with cycle := some c, behind := rest }
  | [] => s

/-- A burst of the P-port cycle completes; the cycle keeps the M-port until its last (R42). -/
def State.cycleBurst (s : State) : State :=
  let s1 := s.passRun
  if s1.cycleSpent then s1.freePort.endCycle.nextCycle else s1

/-- The M-port burst in flight completes (R42). -/
def State.burstDone (s : State) : State :=
  match s.lde.holder with
  | .free => s
  | .urgent => s.freePort.urgentBurst
  | .normal => s.freePort.normalBurst
  | .cycle => s.cycleBurst

/-! ### The P-port (R26, R28, R34, R44) -/

/-- A beat as classified at the presentation of its cycle, with the snapshot's answer (R26, R28, R34). Word addresses have
24 bits. -/
def State.classify (s : State) (addr : BitVec 24) (i : Nat) (b : Beat) : PBeat :=
  let a := (addr.toNat + i) % 2 ^ 24
  { addr := a, be := b.be, data := b.data, id := s.identOf a, ans := s.liveWord (s.identOf a) }

/-- The cycle as presented. -/
def State.cycleOf (s : State) (write : Bool) (addr : BitVec 24) (beats : List Beat) : PCycle :=
  { write := write, beats := beats.zipIdx.map fun b => s.classify addr b.2 b.1, answers := [], takes := [],
    granted := false }

/-- A cycle without a beat that reaches memory completes at once, whatever cycle is in progress (R44; log 58). -/
def State.answerNow (s : State) (c : PCycle) : State :=
  ((s.onPtu fun p => { p with cycle := some c }).passBeats.endCycle).onPtu fun p => { p with cycle := s.ptu.cycle }

/-- A cycle that needs the M-port is held on WAIT#, behind those presented before it (R44). -/
def State.holdCycle (s : State) (c : PCycle) : State :=
  if s.ptu.cycle.isNone then s.onPtu fun p => { p with cycle := some c }
  else s.onPtu fun p => { p with behind := p.behind ++ [c] }

/-- A P-port cycle is presented, classified, and held or answered (R26, R28, R34, R44). -/
def State.present (s : State) (write : Bool) (addr : BitVec 24) (beats : List Beat) : State :=
  let c := s.cycleOf write addr beats
  if c.beats.any fun b => b.id.reaches write then s.holdCycle c else s.answerNow c

/-! ### The end of every event -/

/-- What follows every event at once: changes of the trip status record (R107), then the arbiter (R42), which sees all that the
event requested: the model's choice (log 79). -/
def State.settle (s0 s : State) : State := (State.reportTrip s0 s).arbitrate

/-- An event that comes `dt` ticks after the one before it. -/
def State.event (s : State) (dt : Nat) (f : State → State) : Host.Outcome State Fault Refusal :=
  .next (State.settle (s.elapse dt) (f (s.elapse dt)))

/-- An event whose operands must be ones it can bring (log 7). -/
def State.checked (s : State) (ok : Bool) (dt : Nat) (f : State → State) : Host.Outcome State Fault Refusal :=
  if ok then s.event dt f else .refused .illFormed

end Sys2Proof.Machine
end

