-- ==== Sys2Proof/Machine/FibreRows.lean ====
section
/-! DEFINITION. The meanings of the rows of the two fibre ports: receivers, frame blocks of both runs, and the master's
originations. A row that names an outcome is the whole event, taken when it has that outcome (log 4). -/

namespace Sys2Proof.Machine

/-- An event taken when it has the outcome its row names; otherwise only time passes (log 4). -/
def State.whenOutcome (s : State) (f : State → State) (p : State → State → Bool) : State := if p s (f s) then f s else s

/-- LIGHT_DETECTED (R2). -/
def execLightDetected (dt : Nat) (p : Port) (s : State) : Host.Outcome State Fault Refusal :=
  s.event dt fun s => s.lightOn p

/-- LOCK_INTERVAL_EXPIRY (R2). -/
def execLockIntervalExpiry (dt : Nat) (p : Port) (s : State) : Host.Outcome State Fault Refusal :=
  s.event dt fun s => s.lockDone p

/-- CLOCK_OUT_OF_BAND (R2). -/
def execClockOutOfBand (dt : Nat) (p : Port) (s : State) : Host.Outcome State Fault Refusal :=
  s.event dt fun s => s.clockBad p

/-- LIGHT_LOST (R2). -/
def execLightLost (dt : Nat) (p : Port) (s : State) : Host.Outcome State Fault Refusal :=
  s.event dt fun s => s.lightOff p

/-- START_SYMBOL (R1). -/
def execStartSymbol (dt : Nat) (p : Port) (s : State) : Host.Outcome State Fault Refusal :=
  s.event dt fun s => s.startFrame p

/-- OUT_RUN_HEADER (R8). -/
def execOutRunHeader (dt : Nat) (b : Block) (s : State) : Host.Outcome State Fault Refusal :=
  s.checked (Instr.outRunHeader dt b).wf dt fun s => s.outHeader b

/-- The header took the member from FOLLOWING to JOINED (R9). -/
def joins (s t : State) : Bool := decide (s.flu.ring = .following) && decide (t.flu.ring = .joined)

/-- ENTRY_INTO_JOINED (R9): the out-run header that brings it about. -/
def execEntryIntoJoined (dt : Nat) (b : Block) (s : State) : Host.Outcome State Fault Refusal :=
  s.checked (Instr.entryIntoJoined dt b).wf dt fun s => s.whenOutcome (fun s => s.outHeader b) joins

/-- OUT_RUN_TRIP_BLOCK (R98). -/
def execOutRunTripBlock (dt : Nat) (b : Block) (s : State) : Host.Outcome State Fault Refusal :=
  s.checked (Instr.outRunTripBlock dt b).wf dt fun s => s.outTrip b

/-- INSERTION_DECISION (R113). -/
def execInsertionDecision (dt : Nat) (tags : Block) (slots : List Block) (s : State) :
    Host.Outcome State Fault Refusal :=
  s.checked (Instr.insertionDecision dt tags slots).wf dt fun s => s.outSlots tags slots

/-- CELL_DECISION (R129). -/
def execCellDecision (dt : Nat) (b : Block) (s : State) : Host.Outcome State Fault Refusal :=
  s.checked (Instr.cellDecision dt b).wf dt fun s => s.outCell b

/-- CLAIM_PASSAGE_END (R133). -/
def execClaimPassageEnd (dt : Nat) (s : State) : Host.Outcome State Fault Refusal := s.event dt State.outEnd

/-- RETURN_HEADER (R19). -/
def execReturnHeader (dt : Nat) (src : ReturnSource) (s : State) : Host.Outcome State Fault Refusal :=
  s.checked (Instr.returnHeader dt src).wf dt fun s => s.retHeader src

/-- RETURN_TRIP_BLOCK (R99). -/
def execReturnTripBlock (dt : Nat) (src : ReturnSource) (s : State) : Host.Outcome State Fault Refusal :=
  s.checked (Instr.returnTripBlock dt src).wf dt fun s => s.retTrip src

/-- The return trip block took the master to RUN (R16). -/
def entersRun (s t : State) : Bool := decide (s.flu.mstate = .setup) && decide (t.flu.mstate = .run)

/-- PASSAGE_TO_RUN (R16): the return trip block that brings it about. -/
def execPassageToRun (dt : Nat) (b : Block) (s : State) : Host.Outcome State Fault Refusal :=
  s.checked (Instr.passageToRun dt b).wf dt fun s => s.whenOutcome (fun s => s.retTrip (.arrived b)) entersRun

/-- SLOT_RECEPTION (R120). -/
def execSlotReception (dt : Nat) (n : Fin 128) (src : SlotSource) (s : State) : Host.Outcome State Fault Refusal :=
  s.checked (Instr.slotReception dt n src).wf dt fun s => s.retSlot n src

/-- SLOT_AREA_END (R124). -/
def execSlotAreaEnd (dt : Nat) (src : AreaSource) (s : State) : Host.Outcome State Fault Refusal :=
  s.checked (Instr.slotAreaEnd dt src).wf dt fun s => s.retSlotsEnd src

/-- CELL_DELIVERY (R134). -/
def execCellDelivery (dt : Nat) (src : ReturnSource) (s : State) : Host.Outcome State Fault Refusal :=
  s.checked (Instr.cellDelivery dt src).wf dt fun s => s.retCell src

/-- ORIGINATION (R15). -/
def execOrigination (dt : Nat) (s : State) : Host.Outcome State Fault Refusal := s.event dt State.takeOrigin

/-- The origination brought the return-miss count to ring_loss_limit (R17). -/
def losesReturn (s t : State) : Bool :=
  decide (s.flu.returnMiss < s.cfg.lossLimit) && decide (s.cfg.lossLimit ≤ t.flu.returnMiss)

/-- MASTER_RING_LOSS (R17): the origination that brings it about. -/
def execMasterRingLoss (dt : Nat) (s : State) : Host.Outcome State Fault Refusal :=
  s.event dt fun s => s.whenOutcome State.takeOrigin losesReturn

/-- The return trip block brought an absence count to ring_loss_limit (R18). -/
def missesNode (s t : State) : Bool :=
  (List.finRange 32).any fun p =>
    decide (s.flu.absence[p] < s.cfg.lossLimit) && decide (s.cfg.lossLimit ≤ t.flu.absence[p])

/-- NODE_MISSING (R18): the return trip block that brings it about. -/
def execNodeMissing (dt : Nat) (b : Block) (s : State) : Host.Outcome State Fault Refusal :=
  s.checked (Instr.nodeMissing dt b).wf dt fun s => s.whenOutcome (fun s => s.retTrip (.arrived b)) missesNode

end Sys2Proof.Machine
end

