-- ==== Sys2Proof/Machine/EpochRows.lean ====
section
/-! DEFINITION. The meanings of the rows of an epoch: the two events that make one, and the rows that name what an epoch
brings about. Each of the latter is the epoch that is due, taken when it has that outcome (log 4). -/

namespace Sys2Proof.Machine

/-- APPLY_INSTANT (R21): the oldest entry, and those after it whose instants have passed (R20). -/
def execApplyInstant (dt : Nat) (s : State) : Host.Outcome State Fault Refusal :=
  s.event dt fun s => if s.configured then s.takeDue 3 else s

/-- LOCAL_CYCLE_TIMER_EXPIRY (R23). -/
def execLocalCycleTimerExpiry (dt : Nat) (s : State) : Host.Outcome State Fault Refusal :=
  s.event dt fun s => if s.timerDue then s.takeTimer else s

/-- The epoch that is due, taken when it has an outcome (log 4). -/
def State.epochWith (s : State) (dt : Nat) (p : State → State → Bool) : Host.Outcome State Fault Refusal :=
  s.event dt fun s => s.whenOutcome State.dueEpoch p

/-- A member left FOLLOWING or JOINED (R10). -/
def leavesRing (s t : State) : Bool := decide (s.flu.ring ≠ .seeking) && decide (t.flu.ring = .seeking)

/-- RING_LOSS (R10). -/
def execRingLoss (dt : Nat) (s : State) : Host.Outcome State Fault Refusal := s.epochWith dt leavesRing

/-- The node became the end node (R13). -/
def becomesEnd (s t : State) : Bool := !s.isEndNode && t.isEndNode

/-- END_NODE_CONDITION (R13). -/
def execEndNodeCondition (dt : Nat) (s : State) : Host.Outcome State Fault Refusal := s.epochWith dt becomesEnd

/-- The SHAFT command was taken, with this code (R36). -/
def takesShaft (code : Nat → Bool) (s t : State) : Bool :=
  !t.ptu.shaftPending && s.shaftCommand.any fun c => code (cmdCode c.2.1)

/-- The generator holds the record of a commanded ramp that has reached its last step (R53). -/
def Gen.rampEnded (g : Gen) : Bool :=
  decide (g.state = .running ∨ g.state = .standstill) &&
    g.ramp.any fun r => decide (r.cls = .clear) && decide (r.n ≤ r.k)

/-- A commanded ramp reached its last step: the record has changed, or a SET-TARGET of the same values was accepted (R51,
R53). A SET-TARGET refused at the master in RUN leaves no such record behind it (R49). -/
def endsRamp (s t : State) : Bool :=
  t.lsu.gen.rampEnded && (decide (s.lsu.gen.ramp ≠ t.lsu.gen.ramp) ||
    (s.isMaster && decide (s.flu.mstate = .run) && takesShaft (fun c => decide (c = 1)) s t))

/-- RAMP_END (R53). -/
def execRampEnd (dt : Nat) (s : State) : Host.Outcome State Fault Refusal := s.epochWith dt endsRamp

/-- A stop ramp of the generator reached speed 0 (R50). -/
def endsStop (s t : State) : Bool :=
  decide (0 < s.lsu.gen.speed) && decide (t.lsu.gen.state = .standstill) && t.lsu.gen.ramp.isNone

/-- STOP_RAMP_END (R50). -/
def execStopRampEnd (dt : Nat) (s : State) : Host.Outcome State Fault Refusal := s.epochWith dt endsStop

/-- A local stop ramp of the shadow reached speed 0 (R60). -/
def endsLocalStop (s t : State) : Bool :=
  decide (0 < s.lsu.shadow.speed) && decide (t.lsu.shadow.state = .standstill) && t.lsu.shadow.localStop

/-- LOCAL_STOP_END (R60). -/
def execLocalStopEnd (dt : Nat) (s : State) : Host.Outcome State Fault Refusal := s.epochWith dt endsLocalStop

/-- Axis `n` lost its source (R72). -/
def losesSource (n : Fin 8) (s t : State) : Bool := !s.axu.axes[n].sourceLost && t.axu.axes[n].sourceLost

/-- SOURCE_LOST (R72). -/
def execSourceLost (dt : Nat) (n : Fin 8) (s : State) : Host.Outcome State Fault Refusal := s.epochWith dt (losesSource n)

/-- The stop timer's count reached the stop timeout (R102). -/
def stopTimesOut (s t : State) : Bool :=
  s.tru.timerOn && decide (s.tru.timerCount < s.cfg.stopTimeout) && decide (s.cfg.stopTimeout ≤ t.tru.timerCount)

/-- STOP_TIMEOUT (R102). -/
def execStopTimeout (dt : Nat) (s : State) : Host.Outcome State Fault Refusal := s.epochWith dt stopTimesOut

/-- The image in assembly of stream `n` ended (R165). -/
def streamTimesOut (n : Fin 4) (s t : State) : Bool :=
  s.igu.streams[n].asm.isSome && t.igu.streams[n].asm.isNone

/-- STREAM_TIMEOUT (R165). -/
def execStreamTimeout (dt : Nat) (n : Fin 4) (s : State) : Host.Outcome State Fault Refusal :=
  s.epochWith dt (streamTimesOut n)

/-- Outgoing screen `n`'s sweep count reached its period (R174). -/
def sweeps (n : Fin 2) (s t : State) : Bool :=
  match s.cfg.screenOut n with
  | some (_, p) =>
    decide (0 < p.period) && decide (p.period ≤ s.scu.out[n].sweepCount + 1) && decide (t.scu.out[n].sweepCount = 0) &&
      decide (s.flu.cycle ≠ t.flu.cycle)
  | none => false

/-- SWEEP (R174). -/
def execSweep (dt : Nat) (n : Fin 2) (s : State) : Host.Outcome State Fault Refusal := s.epochWith dt (sweeps n)

/-- Entry `k` of SLOT-IN window `w` became stale (R121). -/
def goesStale (w k : Fin 8) (s t : State) : Bool := !s.slu.entries[w][k].stale && t.slu.entries[w][k].stale

/-- SLOT_STALE (R121). -/
def execSlotStale (dt : Nat) (w k : Fin 8) (s : State) : Host.Outcome State Fault Refusal :=
  s.epochWith dt (goesStale w k)

/-- SET_TARGET (R51). -/
def execSetTarget (dt : Nat) (s : State) : Host.Outcome State Fault Refusal :=
  s.epochWith dt (takesShaft fun c => decide (c = 1))

/-- HOLD (R52). -/
def execHold (dt : Nat) (s : State) : Host.Outcome State Fault Refusal :=
  s.epochWith dt (takesShaft fun c => decide (c = 2))

/-- Axis `n`'s command was taken, with this code (R36). -/
def takesAxis (n : Fin 8) (code : Nat → Bool) (s t : State) : Bool :=
  !t.ptu.axisPending[n] && (s.axisCommand n).any fun c => code c.code

/-- ENGAGE (R80). -/
def execEngage (dt : Nat) (n : Fin 8) (s : State) : Host.Outcome State Fault Refusal :=
  s.epochWith dt (takesAxis n fun c => decide (c = 1))

/-- DISENGAGE (R81). -/
def execDisengage (dt : Nat) (n : Fin 8) (s : State) : Host.Outcome State Fault Refusal :=
  s.epochWith dt (takesAxis n fun c => decide (c = 2))

/-- SET_GEAR (R82). -/
def execSetGear (dt : Nat) (n : Fin 8) (s : State) : Host.Outcome State Fault Refusal :=
  s.epochWith dt (takesAxis n fun c => decide (c = 3))

/-- SET_OFFSET (R83). -/
def execSetOffset (dt : Nat) (n : Fin 8) (s : State) : Host.Outcome State Fault Refusal :=
  s.epochWith dt (takesAxis n fun c => decide (c = 4))

/-- SET_SOURCE (R84). -/
def execSetSource (dt : Nat) (n : Fin 8) (s : State) : Host.Outcome State Fault Refusal :=
  s.epochWith dt (takesAxis n fun c => decide (c = 5))

end Sys2Proof.Machine
end

