-- ==== Sys2Proof/Machine/BusRows.lean ====
section
/-! DEFINITION. The meanings of the rows of the P-port and the M-port. A row that names one kind of word is a single-beat
write cycle to a word of that kind, carried to its completion unless it is held on WAIT# (log 5). -/

namespace Sys2Proof.Machine

/-- P_PORT_CYCLE (R28). -/
def execPPortCycle (dt : Nat) (write : Bool) (addr : BitVec 24) (beats : List Beat) (s : State) :
    Host.Outcome State Fault Refusal :=
  s.checked (Instr.pPortCycle dt write addr beats).wf dt fun s => s.present write addr beats

/-- M_PORT_BURST_COMPLETION (R42). -/
def execMPortBurstCompletion (dt : Nat) (s : State) : Host.Outcome State Fault Refusal := s.event dt State.burstDone

/-- STARVATION (R43). -/
def execStarvation (dt : Nat) (s : State) : Host.Outcome State Fault Refusal := s.event dt State.starve

/-! ### Single-beat writes -/

/-- The M-port burst of a cycle that has been granted completes. -/
def State.carry (s : State) : State := if s.lde.holder = .cycle then s.burstDone else s

/-- A write cycle of one beat at word address `a`, carried to completion unless it waits for the M-port or behind another
cycle (R44; log 5). -/
def State.writeOne (s : State) (a : Nat) (b : Beat) : State :=
  let s1 := s.present true (BitVec.ofNat 24 a) [b]
  if s.ptu.cycle.isSome then s1 else s1.arbitrate.carry

/-- A write of one beat to a word of a kind; a word of another kind is another row's. -/
def State.writeIf (s : State) (p : Ident → Bool) (a : BitVec 24) (b : Beat) : State :=
  if p (s.identOf a.toNat) then s.writeOne a.toNat b else s

/-- Word `off` of the one window of a kind. -/
def State.fixedWord (s : State) (k : WindowKind) (off : Nat) : Option Nat :=
  if s.configured then (s.cfg.only k).map fun w => w.word + off else none

/-- A write of one beat to that word, whose resulting command word has a wanted code. -/
def State.writeFixed (s : State) (k : WindowKind) (off : Nat) (code : Nat → Bool) (b : Beat) : State :=
  match s.fixedWord k off with
  | some a => if code (cmdCode (mergeBytes (s.shadowAt a) b.data b.be)) then s.writeOne a b else s
  | none => s

/-- The code is the one the word defines. -/
def definedCode (c : Nat) : Bool := decide (c = 1)

/-- TRIP_REQUEST (R92). -/
def execTripRequest (dt : Nat) (b : Beat) (s : State) : Host.Outcome State Fault Refusal :=
  s.event dt fun s => s.writeFixed .trip 0 definedCode b

/-- RESET_REQUEST (R104). -/
def execResetRequest (dt : Nat) (b : Beat) (s : State) : Host.Outcome State Fault Refusal :=
  s.event dt fun s => s.writeFixed .trip 1 definedCode b

/-- ENABLE_REQUEST (R101). -/
def execEnableRequest (dt : Nat) (b : Beat) (s : State) : Host.Outcome State Fault Refusal :=
  s.event dt fun s => s.writeFixed .trip 2 definedCode b

/-- NOTICE_MASK (R193). -/
def execNoticeMask (dt : Nat) (b : Beat) (s : State) : Host.Outcome State Fault Refusal :=
  s.event dt fun s => s.writeFixed .node 2 (fun _ => true) b

/-- NOTICE_CLEAR (R195). -/
def execNoticeClear (dt : Nat) (b : Beat) (s : State) : Host.Outcome State Fault Refusal :=
  s.event dt fun s => s.writeFixed .node 3 (fun _ => true) b

/-- SCREEN_REFRESH_COMMAND (R176). -/
def execScreenRefreshCommand (dt : Nat) (b : Beat) (s : State) : Host.Outcome State Fault Refusal :=
  s.event dt fun s => s.writeFixed .node 4 definedCode b

/-- UNDEFINED_COMMAND_CODE (R36): at the epoch that takes the SHAFT or AXIS command, or the write of the word. -/
def execUndefinedCommandCode (dt : Nat) (site : CommandSite) (s : State) : Host.Outcome State Fault Refusal :=
  match site with
  | .shaft => s.epochWith dt (takesShaft fun c => decide (c ≠ 1 ∧ c ≠ 2))
  | .axis n => s.epochWith dt (takesAxis n fun c => decide (c = 0 ∨ 5 < c))
  | .trip which b => s.event dt fun s => s.writeFixed .trip which.val (fun c => !definedCode c) b
  | .refresh b => s.event dt fun s => s.writeFixed .node 4 (fun c => !definedCode c) b

/-- Word 3 of a slot image (R111). -/
def Ident.isCommit (i : Ident) : Bool := match i with | .slotWord _ w => decide (w = 3) | _ => false

/-- COMMIT (R111). -/
def execCommit (dt : Nat) (addr : BitVec 24) (b : Beat) (s : State) : Host.Outcome State Fault Refusal :=
  s.event dt fun s => s.writeIf Ident.isCommit addr b

/-- A withdraw word (R112). -/
def Ident.isWithdraw (i : Ident) : Bool := match i with | .withdraw _ _ => true | _ => false

/-- WITHDRAW (R112). -/
def execWithdraw (dt : Nat) (addr : BitVec 24) (b : Beat) (s : State) : Host.Outcome State Fault Refusal :=
  s.event dt fun s => s.writeIf Ident.isWithdraw addr b

/-- A release word (R167). -/
def Ident.isRelease (i : Ident) : Bool := match i with | .release _ _ => true | _ => false

/-- RELEASE (R167). -/
def execRelease (dt : Nat) (addr : BitVec 24) (b : Beat) (s : State) : Host.Outcome State Fault Refusal :=
  s.event dt fun s => s.writeIf Ident.isRelease addr b

/-- A word of a CAM-OUT window (R151). -/
def Ident.isCamOut (i : Ident) : Bool := match i with | .camOut _ _ => true | _ => false

/-- CAM_OUT_BEAT (R151). -/
def execCamOutBeat (dt : Nat) (addr : BitVec 24) (b : Beat) (s : State) : Host.Outcome State Fault Refusal :=
  s.event dt fun s => s.writeIf Ident.isCamOut addr b

/-- A word of a SCREEN-OUT window (R171). -/
def Ident.isScreenOut (i : Ident) : Bool := match i with | .screenOut _ _ => true | _ => false

/-- SCREEN_OUT_BEAT (R171). -/
def execScreenOutBeat (dt : Nat) (addr : BitVec 24) (b : Beat) (s : State) : Host.Outcome State Fault Refusal :=
  s.event dt fun s => s.writeIf Ident.isScreenOut addr b

/-- A landed word (R32). -/
def Ident.isLanded (i : Ident) : Bool := match i with | .landed _ => true | _ => false

/-- BLOCKED_WRITE (R33). -/
def execBlockedWrite (dt : Nat) (addr : BitVec 24) (b : Beat) (s : State) : Host.Outcome State Fault Refusal :=
  s.event dt fun s => s.writeIf Ident.isLanded addr b

/-- A parameter, SHAFT or AXIS command, staging or substituted word (R30, R34, R35). -/
def Ident.isRegister (i : Ident) : Bool :=
  match i with
  | .shaftCommand => true
  | .shaftParam => true
  | .axisCommand _ => true
  | .axisParam _ => true
  | .slotWord _ w => decide (w < 3)
  | .nodeLive _ => true
  | .axisLive _ => true
  | _ => false

/-- REGISTER_WRITE (R35). -/
def execRegisterWrite (dt : Nat) (addr : BitVec 24) (b : Beat) (s : State) : Host.Outcome State Fault Refusal :=
  s.event dt fun s => s.writeIf Ident.isRegister addr b

end Sys2Proof.Machine
end

