-- ==== Sys2Proof/Machine/Flash.lean ====
section
/-! DEFINITION. The configuration flash (section 11): the image's fields (R202), the header's checks (R188), the record
checks (R189), configuration completion (R190) and rejection (R191). -/

namespace Sys2Proof.Machine

/-! ### The node record (R202), with the substitutes of the rules -/

/-- A configured 0 is taken as 1. -/
def atLeastOne (n : Nat) : Nat := max 1 n

/-- Bit 0 of a flag byte (R202). -/
def flag (bs : List Byte) (off : Nat) : Bool := (byteAt bs off).getLsbD 0

/-- A class byte; one that names no class is rejected before it is used (R189). -/
def classAt (bs : List Byte) (off : Nat) : TripClass := (TripClass.ofCode (byteAt bs off).toNat).getD .clear

/-- The axis record at `off` (R66, R202). -/
def axisAt (bs : List Byte) (off : Nat) : AxisCfg :=
  { configured := flag bs off, source := (sourceOf (field bs (off + 1) 2)).getD .shaft, n := field bs (off + 3) 2,
    d := field bs (off + 5) 2, lslew := field bs (off + 7) 2, limit := min 15 (field bs (off + 9) 1) }

/-! ### The window table and its parameter records -/

/-- The kind of a kind code (R201). -/
def kindOf (n : Nat) : Option WindowKind :=
  match n with
  | 1 => some .node
  | 2 => some .shaft
  | 3 => some .axis
  | 4 => some .trip
  | 5 => some .slotOut
  | 6 => some .slotIn
  | 7 => some .camOut
  | 8 => some .imgIn
  | 9 => some .screenOut
  | 10 => some .screenIn
  | 11 => some .keys
  | _ => none

/-- How often a kind may occur (R27). -/
def kindMax (k : WindowKind) : Nat :=
  match k with
  | .node => 1
  | .shaft => 1
  | .axis => 1
  | .trip => 1
  | .slotOut => 8
  | .slotIn => 8
  | .camOut => 4
  | .imgIn => 4
  | .screenOut => 2
  | .screenIn => 2
  | .keys => 1

/-- The window table's count field. -/
def windowCount (bs : List Byte) : Nat := field bs 192 4

/-- Base, length and kind code of window `i`. -/
def windowRow (bs : List Byte) (i : Nat) : Nat × Nat × Nat :=
  (field bs (196 + 12 * i) 4, field bs (200 + 12 * i) 4, field bs (204 + 12 * i) 1)

/-- The parameter record of window `i`. -/
def paramRecord (bs : List Byte) (i : Nat) : List Byte := (bs.drop (860 + 32 * i)).take 32

/-- The parameters of a screen window (R170, R202). -/
def screenParams (r : List Byte) : ScreenParams :=
  { pos := field r 0 1, number := field r 1 1, depth := field r 2 1, width := field r 4 2, height := field r 6 2,
    stride := field r 8 4, period := field r 12 2 }

/-- The parameters of a window of a kind (R202), with the substitutes of R117 and R159. -/
def windowParams (k : WindowKind) (r : List Byte) : WindowParams :=
  match k with
  | .slotOut => .slotOut (field r 0 1) (field r 1 1)
  | .slotIn => .slotIn ((List.range (field r 0 1)).map fun j => Fin.ofNat 128 (field r (3 + j) 1))
      (atLeastOne (field r 1 1)) (flag r 2)
  | .camOut => .camOut (Fin.ofNat 4 (field r 0 1))
  | .imgIn => .imgIn { pos := field r 0 1, stream := field r 1 1, count := field r 2 1, size := field r 4 4,
                       timeout := atLeastOne (field r 8 2) }
  | .screenOut => .screen (screenParams r)
  | .screenIn => .screen (screenParams r)
  | .node => .plain
  | .shaft => .plain
  | .axis => .plain
  | .trip => .plain
  | .keys => .plain

/-- The rows of the table with their kinds, in table order; a row of no kind is left out (it is rejected). -/
def windowRows (bs : List Byte) : List (Nat × Nat × Nat × WindowKind) :=
  (List.range (windowCount bs)).filterMap fun i =>
    (kindOf (windowRow bs i).2.2).map fun k => (i, (windowRow bs i).1, (windowRow bs i).2.1, k)

/-- The window table; windows of one kind are numbered in table order (log 20). -/
def parseWindows (bs : List Byte) : List Window :=
  (windowRows bs).map fun w =>
    { base := w.2.1, len := w.2.2.1, kind := w.2.2.2,
      idx := ((windowRows bs).filter fun v => decide (v.1 < w.1) && decide (v.2.2.2 = w.2.2.2)).length,
      params := windowParams w.2.2.2 (paramRecord bs w.1) }

/-! ### Camera and key records -/

/-- The camera record of channel `c` (R137, R202): none when it is not present. -/
def parseCam (bs : List Byte) (c : Nat) : Option CamCfg :=
  let o := 596 + 64 * c
  if flag bs o then
    some { ref := match field bs (o + 1) 1 with
             | 0 => .shaft
             | n + 1 => .axis (Fin.ofNat 8 n),
           list := (List.range (field bs (o + 2) 1)).map fun j => BitVec.ofNat 32 (field bs (o + 3 + 4 * j) 4),
           pacing := atLeastOne (field bs (o + 35) 1), width := atLeastOne (field bs (o + 36) 1),
           minSpeed := field bs (o + 37) 4, activeLow := flag bs (o + 41), dest := field bs (o + 42) 1,
           stream := field bs (o + 43) 1, size := field bs (o + 44) 4 }
  else none

/-- The key record (R179, R202): none when it is not present. -/
def parseKeys (bs : List Byte) : Option KeyCfg :=
  if flag bs 852 then
    some { dest := field bs 853 1,
           stops := (List.range (field bs 854 1)).map fun j => Fin.ofNat 64 (field bs (855 + j) 1) }
  else none

/-- The configured values of an image (R202). V_max and V_ref are taken as configured above the top of their range too
(R47; log 30). -/
def parseImage (bs : List Byte) : NodeCfg :=
  { master := flag bs 0, expected := field bs 1 1, lossLimit := min 15 (atLeastOne (field bs 2 1)),
    reserve := min 4 (field bs 3 1), allowance := field bs 4 1, dApply := atLeastOne (field bs 5 2),
    starveUs := min 64 (atLeastOne (field bs 7 1)), required := BitVec.ofNat 32 (field bs 8 4),
    vmax := field bs 12 4, vref := atLeastOne (field bs 16 4), tqs := atLeastOne (field bs 20 2),
    tcs := atLeastOne (field bs 22 2), stopTimeout := atLeastOne (field bs 24 2),
    classes := Vector.ofFn fun n => if n = 8 then .clear else classAt bs (26 + n.val),
    tiLow := Vector.ofFn fun n => flag bs (41 + 2 * n.val), tiFilter := Vector.ofFn fun n => field bs (42 + 2 * n.val) 1,
    axes := Vector.ofFn fun n => axisAt bs (57 + 16 * n.val), windows := parseWindows bs,
    publish := BitVec.ofNat 128 ((List.range 16).foldr (fun j acc => field bs (580 + j) 1 + 256 * acc) 0),
    cams := Vector.ofFn fun c => parseCam bs c.val, keys := parseKeys bs }

/-! ### The checks of R189 -/

/-- A length rounded up to 64 bytes. -/
def roundUp (n : Nat) : Nat := (n + 63) / 64 * 64

/-- No two entries of a list are equal. -/
def allDistinct {α : Type} [DecidableEq α] (l : List α) : Bool :=
  match l with
  | [] => true
  | x :: r => !r.contains x && allDistinct r

/-- Consecutive windows ascend and do not overlap (R189). Equal bases do not ascend: the model's choice (log 72). -/
def ascending (ws : List (Nat × Nat × Nat)) : Bool :=
  match ws with
  | [] => true
  | [_] => true
  | a :: b :: r => decide (a.1 < b.1) && decide (a.1 + a.2.1 ≤ b.1) && ascending (b :: r)

/-- The window table check (R189). -/
def tableOk (bs : List Byte) : Bool :=
  let n := windowCount bs
  let rows := (List.range n).map (windowRow bs)
  decide (1 ≤ n) && decide (n ≤ 32) && ascending rows &&
    rows.all (fun r => decide (r.1 % 64 = 0) && decide (r.2.1 % 64 = 0) && decide (r.1 + r.2.1 ≤ Memory.size) &&
      match kindOf r.2.2 with
      | some k => decide (rows.countP (fun q => decide (kindOf q.2.2 = some k)) ≤ kindMax k)
      | none => false)

/-- An image size is 256 B to 4 MiB and a multiple of 256. -/
def sizeOk (n : Nat) : Bool := decide (256 ≤ n) && decide (n ≤ 4194304) && decide (n % 256 = 0)

/-- The length a window's kind and parameters give (R189). -/
def lengthOf (c : NodeCfg) (w : Window) : Nat :=
  match w.kind, w.params with
  | .node, _ => 256
  | .shaft, _ => 64
  | .axis, _ => 512
  | .trip, _ => 256
  | .keys, _ => 576
  | _, .slotOut _ count => roundUp (16 * count + 4)
  | _, .slotIn es _ _ => roundUp (32 * es.length)
  | _, .camOut ch => match c.cams[ch] with | some cam => cam.size | none => 0
  | _, .imgIn p => roundUp (p.count * (p.size + 32))
  | _, .screen p => roundUp (p.stride * p.height)
  | _, .plain => 0

/-- The slot numbers every SLOT-OUT window covers. -/
def coveredSlots (c : NodeCfg) : List Nat :=
  c.windows.flatMap fun w => match w.params with
    | .slotOut first count => (List.range count).map (first + ·)
    | _ => []

/-- A SLOT-IN window's entry count and slot numbers, read from its record. -/
def entriesOk (r : List Byte) : Bool :=
  decide (1 ≤ field r 0 1) && decide (field r 0 1 ≤ 8) &&
    (List.range (field r 0 1)).all fun j => decide (field r (3 + j) 1 < 128)

/-- A window's own parameters (R189), beside its record as stored. -/
def windowOk (c : NodeCfg) (w : Window) (r : List Byte) : Bool :=
  decide (w.len = lengthOf c w) &&
  match w.params with
  | .plain => true
  | .slotOut first count => decide (1 ≤ count) && decide (first + count ≤ 128)
  | .slotIn _ _ _ => entriesOk r
  | .camOut ch => decide (field r 0 1 < 4) && (c.cams[ch]).isSome
  | .imgIn p => decide (2 ≤ p.count) && decide (p.count ≤ 16) && sizeOk p.size && decide (p.pos ≤ 31)
  | .screen p =>
    decide (p.depth = 8 ∨ p.depth = 16) && decide (p.width % p.tilePx = 0) && decide (p.height % 8 = 0) &&
      decide (p.stride % 32 = 0) && decide (p.width * (p.depth / 8) ≤ p.stride) && decide (p.tiles ≤ 8192) &&
      decide (p.number ≤ 1) && decide (p.pos ≤ 31)

/-- What may not occur twice: covered slots, CAM-OUT channels, accepted streams, screens (R189). -/
def uniqueOk (c : NodeCfg) : Bool :=
  allDistinct (coveredSlots c) &&
  allDistinct (c.windows.filterMap fun w => match w.params with | .camOut ch => some ch | _ => none) &&
  allDistinct (c.windows.filterMap fun w => match w.params with | .imgIn p => some (p.pos, p.stream) | _ => none) &&
  allDistinct (c.windows.filterMap fun w => match w.kind, w.params with
    | .screenOut, .screen p => some p.number
    | _, _ => none) &&
  allDistinct (c.windows.filterMap fun w => match w.kind, w.params with
    | .screenIn, .screen p => some (p.pos, p.number)
    | _, _ => none)

/-- A list is strictly ascending. -/
def strictlyUp (l : List Word) : Bool :=
  match l with
  | [] => true
  | [_] => true
  | a :: b :: r => decide (a.toNat < b.toNat) && strictlyUp (b :: r)

/-- The camera record of channel `i` with its reference byte (R189). -/
def camOk (bs : List Byte) (c : NodeCfg) (i : Fin 4) : Bool :=
  match c.cams[i] with
  | none => true
  | some cam =>
    decide (1 ≤ cam.list.length) && decide (cam.list.length ≤ 8) && strictlyUp cam.list && sizeOk cam.size &&
      decide (field bs (596 + 64 * i.val + 1) 1 ≤ 8) && decide (cam.dest ≤ 31)

/-- An axis record of the node record (R189). -/
def axisOk (bs : List Byte) (c : NodeCfg) (n : Fin 8) : Bool :=
  let a := c.axes[n]
  !a.configured || (decide (a.d ≠ 0) &&
    match sourceOf (field bs (57 + 16 * n.val + 1) 2) with
    | some .shaft => true
    | some (.slot s) => c.subscribes s
    | none => false)

/-- The node record, the key record and the positions (R189). -/
def nodeOk (bs : List Byte) (c : NodeCfg) : Bool :=
  decide (c.allowance ≤ 96) && decide (c.expected ≤ 31) && (!c.master || decide (c.expected = 0)) &&
  (List.finRange 15).all (fun n => decide (n = 8) || (TripClass.ofCode (byteAt bs (26 + n.val)).toNat).isSome) &&
  (List.finRange 8).all (fun n => axisOk bs c n) &&
  match c.keys with
  | none => true
  | some k => decide (k.dest ≤ 31) && decide (field bs 854 1 ≤ 4) &&
      (List.range (field bs 854 1)).all fun j => decide (field bs (855 + j) 1 ≤ 63)

/-- The groups of R189 after the window table. -/
def recordsOk (bs : List Byte) (c : NodeCfg) : Bool :=
  (c.windows.zipIdx.all fun w => windowOk c w.1 (paramRecord bs w.2)) && uniqueOk c &&
    (List.finRange 4).all (fun i => camOk bs c i) && nodeOk bs c

/-- The checks on a body with a good CRC: the failing group, or the configured values. A body too short for the window
table fails before it, one too short for the parameter records after it (R188, R189; log 25). -/
def judgeBody (bs : List Byte) : ConfigStatus ⊕ NodeCfg :=
  if bs.length < 580 then .inl .records
  else if !tableOk bs then .inl .windows
  else if bs.length < 860 + 32 * windowCount bs then .inl .records
  else if recordsOk bs (parseImage bs) then .inr (parseImage bs) else .inl .records

/-! ### Completion (R190) -/

/-- FLU at configuration completion (R13, R15, R22, R25): link states and frames in passage are kept; the master does not
use what arrives upstream. A header that passed before it is not known as good (R4; log 78). -/
def Flu.complete (u : Flu) (master : Bool) (now : Nat) : Flu :=
  { Flu.reset with
      up := u.up, down := u.down, ring := if master then .joined else .seeking,
      position := if master then some 0 else none, returnWatch := 2, epochAt := now,
      expected := now + Config.cycleTicks, nextOrigin := now + Config.cycleTicks,
      out := if master then Passage.idle else u.out, ret := u.ret,
      txDown := if master then TxFrame.idle else u.txDown, txUp := if master then TxFrame.idle else u.txUp }

/-- An axis at configuration completion (R66). -/
def axisInitial (a : AxisCfg) (present : Bool) : Axis :=
  if a.configured && present then
    { Axis.reset with state := .idle, source := a.source, n := a.n, d := a.d, lslew := a.lslew, limit := a.limit,
                      ref := if a.source = .shaft then some 0 else none }
  else Axis.reset

/-- TRU at configuration completion (R109): source 10 stays latched unless its class is NONE. -/
def Tru.complete (t : Tru) (c : NodeCfg) : Tru :=
  { t with latch := if c.classes[(10 : Fin 15)] = TripClass.clear then setAt t.latch 10 none else t.latch,
           cond := setAt t.cond 10 (!c.master), acting := c.classes[(10 : Fin 15)],
           press := if c.master then .tripped else .notApplicable }.start

/-- SLU at configuration completion (R126). -/
def sluComplete (c : NodeCfg) : Slu :=
  { Slu.reset with publish := Vector.ofFn fun n => if c.publish.getLsbD n.val then .silent else .unused }

/-- A camera channel at configuration completion (R150); the line's level is a pin. -/
def Channel.complete (ch : Channel) (present : Bool) : Channel :=
  { Channel.reset with expLevel := ch.expLevel, seek := present }

/-- Every block takes its configured values (R190). -/
def State.takeConfig (s : State) (c : NodeCfg) : State :=
  { s with
      cfg := c
      flu := s.flu.complete c.master s.now
      lsu := Lsu.reset
      axu := { axes := Vector.ofFn fun n => axisInitial c.axes[n] (c.only .axis).isSome, fresh := Vector.replicate 128 none }
      tru := s.tru.complete c
      slu := sluComplete c
      cls := Cls.reset
      cmu := { ch := Vector.ofFn fun i => s.cmu.ch[i].complete (c.cams[i]).isSome }
      igu := Igu.reset
      scu := Scu.reset
      ksc := { Ksc.reset with nextRead := s.now + Config.rowTicks }
      cnu := { s.cnu with status := .configured, fcs := false } }

/-- The landings requested at completion: trip status record, SLOT-IN status words, empty descriptors (R107, R123,
R169), in this order and by ascending window and stream: the model's choice (log 75). -/
def State.initialLandings (s : State) : State :=
  (List.finRange 4).foldl State.landEmptyDescriptors ((List.finRange 8).foldl State.landInitialStatus s.landTripRecord)

/-- Configuration completion (R190). The master is JOINED from this instant (R172, R175, R178). -/
def State.completeConfig (s : State) (c : NodeCfg) : State :=
  let s1 := ((s.takeConfig c).notify 14).initialLandings
  let s2 := if c.master then s1.screensJoin else s1
  State.reportTrip s2 ((List.finRange 8).foldl State.startFilter s2)

/-- A failed check ends the load (R191). -/
def State.rejectConfig (s : State) (reason : ConfigStatus) : State :=
  (s.onCnu fun c => { c with status := reason, fcs := false }).notify 14

/-! ### Loading (R187, R188) -/

/-- The header's three fields. -/
def parseFlashHeader (bs : List Byte) : FlashHeader :=
  { ident := BitVec.ofNat 32 (field bs 0 4), length := BitVec.ofNat 32 (field bs 4 4),
    crc := BitVec.ofNat 32 (field bs 8 4) }

/-- The flash header has been read (R188). It is read once in a load. -/
def State.readHeader (s : State) (bs : List Byte) : State :=
  if s.cnu.status = .loading ∧ s.cnu.flash = none then
    let h := parseFlashHeader bs
    let s1 := s.onCnu fun c => { c with flash := some h }
    if h.ident ≠ 0x53580240#32 then s1.rejectConfig .noImage
    else if h.length.toNat < 64 ∨ 32768 < h.length.toNat then s1.rejectConfig .header
    else s1
  else s

/-- The last body byte has been read (R188 to R191). -/
def State.readBody (s : State) (bs : List Byte) : State :=
  match s.cnu.status, s.cnu.flash with
  | .loading, some h =>
    if bs.length = h.length.toNat then
      if crc32 bs ≠ h.crc then s.rejectConfig .crc
      else match judgeBody bs with
        | .inl reason => s.rejectConfig reason
        | .inr c => s.completeConfig c
    else s
  | _, _ => s

end Sys2Proof.Machine
end

