-- ==== Sys2Proof/Machine/ConfigRows.lean ====
section
/-! DEFINITION. The meanings of PIN_RESET, FLASH_HEADER_READ and FLASH_BODY_READ. -/

namespace Sys2Proof.Machine

/-- The levels at the TI and EXP pins, which no reset changes. -/
def State.withPins (s old : State) : State :=
  { s with
      tru := { s.tru with tiLevel := old.tru.tiLevel }
      cmu := { ch := Vector.ofFn fun i => { s.cmu.ch[i] with expLevel := old.cmu.ch[i].expLevel } } }

/-- Every block at its pin-reset values; memory, pins, time and the waiting commands are not the part's (R46, R187). -/
def State.pinReset (s : State) : State :=
  { State.reset with now := s.now, free := s.free, pending := s.pending, mem := s.mem }.withPins s

/-- PIN_RESET (R187). -/
def execPinReset (dt : Nat) (s : State) : Host.Outcome State Fault Refusal := .next (s.elapse dt).pinReset

/-- FLASH_HEADER_READ (R188). -/
def execFlashHeaderRead (dt : Nat) (bytes : List Byte) (s : State) : Host.Outcome State Fault Refusal :=
  s.checked (Instr.flashHeaderRead dt bytes).wf dt fun s => s.readHeader bytes

/-- FLASH_BODY_READ (R188 to R191): completion makes its own report of the trip record (R109). -/
def execFlashBodyRead (dt : Nat) (bytes : List Byte) (s : State) : Host.Outcome State Fault Refusal :=
  if (Instr.flashBodyRead dt bytes).wf then .next ((s.elapse dt).readBody bytes).arbitrate else .refused .illFormed

end Sys2Proof.Machine
end

