-- ==== Sys2Proof/Machine/LineRows.lean ====
section
/-! DEFINITION. The meanings of the rows of the trip inputs, the camera lines and the key matrix. -/

namespace Sys2Proof.Machine

/-! ### Trip inputs (R89) -/

/-- Line TI`n` goes to a level: reading active starts the filter, reading inactive ends the condition. -/
def State.tripLine (s : State) (n : Fin 8) (level : Bool) : State :=
  let s1 := s.onTru fun t => { t with tiLevel := setAt t.tiLevel n level }
  if s.configured && decide (s.tru.tiLevel[n] ≠ level) then
    if s1.readsActive n level then s1.startFilter n
    else (s1.onTru fun t => { t with filter := setAt t.filter n none }).handCondition (Fin.ofNat 15 n.val) false
  else s1

/-- TRIP_INPUT_ACTIVE (R89): a level that reads inactive is the other row's. Before configuration no level reads. -/
def execTripInputActive (dt : Nat) (n : Fin 8) (level : Bool) (s : State) : Host.Outcome State Fault Refusal :=
  s.event dt fun s => if s.configured && !s.readsActive n level then s else s.tripLine n level

/-- TRIP_INPUT_INACTIVE (R89): a level that reads active is the other row's. -/
def execTripInputInactive (dt : Nat) (n : Fin 8) (level : Bool) (s : State) : Host.Outcome State Fault Refusal :=
  s.event dt fun s => if s.configured && s.readsActive n level then s else s.tripLine n level

/-- The filter of input `n` has run for its filter time, all of it counted in the interval I as it stands now: the condition
becomes present (R89; the model's choice, log 80). -/
def State.filterDone (s : State) (n : Fin 8) : State :=
  match s.tru.filter[n] with
  | some start =>
    if s.unitsPassed s.flu.interval start s.cfg.tiFilter[n] then
      (s.onTru fun t => { t with filter := setAt t.filter n none }).handCondition (Fin.ofNat 15 n.val) true
    else s
  | none => s

/-- FILTER_EXPIRY (R89). -/
def execFilterExpiry (dt : Nat) (n : Fin 8) (s : State) : Host.Outcome State Fault Refusal :=
  s.event dt fun s => s.filterDone n

/-! ### Camera lines (R145, R147) -/

/-- EXPOSURE_EDGE (R147). -/
def execExposureEdge (dt : Nat) (n : Fin 4) (level : Bool) (s : State) : Host.Outcome State Fault Refusal :=
  s.event dt fun s => s.expLine n level

/-- The scheduled firing of channel `n` is made once the phase has reached it (R145). -/
def State.takeFiring (s : State) (n : Fin 4) : State :=
  match s.cmu.ch[n].sched with
  | some p => if p ≤ s.phase then s.onChannel n fun c => c.fire s.now s.flu.interval else s
  | none => s

/-- FIRING (R145). -/
def execFiring (dt : Nat) (n : Fin 4) (s : State) : Host.Outcome State Fault Refusal :=
  s.event dt fun s => s.takeFiring n

/-- The pulse timer of channel `n` has run for its width in units of the interval it started with: TRIG becomes inactive
(R145). -/
def State.pulseDone (s : State) (n : Fin 4) : State :=
  match s.cmu.ch[n].pulse, s.cfg.cams[n] with
  | some (start, i), some cam =>
    if s.unitsPassed i start cam.width then s.onChannel n fun c => { c with pulse := none } else s
  | _, _ => s

/-- PULSE_TIMER_EXPIRY (R145). -/
def execPulseTimerExpiry (dt : Nat) (n : Fin 4) (s : State) : Host.Outcome State Fault Refusal :=
  s.event dt fun s => s.pulseDone n

/-! ### Key matrix (R179, R180) -/

/-- The driven row is read at the end of its millisecond, at a node with a key record. -/
def State.scanRow (s : State) (cols : BitVec 8) : State :=
  if s.configured && s.cfg.keys.isSome && decide (s.ksc.nextRead ≤ s.now) then s.readRow cols else s

/-- KEY_ROW_READING (R180). -/
def execKeyRowReading (dt : Nat) (cols : BitVec 8) (s : State) : Host.Outcome State Fault Refusal :=
  s.event dt fun s => s.scanRow cols

end Sys2Proof.Machine
end

