-- ==== Sys2Proof/Machine/Dispatch.lean ====
section
/-! DEFINITION. The meaning of every command: one arm per constructor of Instr. -/

namespace Sys2Proof.Machine

def exec (i : Instr) (s : State) : Host.Outcome State Fault Refusal :=
  match i with
  | .pinReset dt => Sys2Proof.Machine.execPinReset dt s
  | .flashHeaderRead dt bytes => Sys2Proof.Machine.execFlashHeaderRead dt bytes s
  | .flashBodyRead dt bytes => Sys2Proof.Machine.execFlashBodyRead dt bytes s
  | .lightDetected dt p => Sys2Proof.Machine.execLightDetected dt p s
  | .lockIntervalExpiry dt p => Sys2Proof.Machine.execLockIntervalExpiry dt p s
  | .clockOutOfBand dt p => Sys2Proof.Machine.execClockOutOfBand dt p s
  | .lightLost dt p => Sys2Proof.Machine.execLightLost dt p s
  | .startSymbol dt p => Sys2Proof.Machine.execStartSymbol dt p s
  | .outRunHeader dt b => Sys2Proof.Machine.execOutRunHeader dt b s
  | .entryIntoJoined dt b => Sys2Proof.Machine.execEntryIntoJoined dt b s
  | .outRunTripBlock dt b => Sys2Proof.Machine.execOutRunTripBlock dt b s
  | .insertionDecision dt tags slots => Sys2Proof.Machine.execInsertionDecision dt tags slots s
  | .cellDecision dt b => Sys2Proof.Machine.execCellDecision dt b s
  | .claimPassageEnd dt => Sys2Proof.Machine.execClaimPassageEnd dt s
  | .returnHeader dt src => Sys2Proof.Machine.execReturnHeader dt src s
  | .returnTripBlock dt src => Sys2Proof.Machine.execReturnTripBlock dt src s
  | .passageToRun dt b => Sys2Proof.Machine.execPassageToRun dt b s
  | .slotReception dt n src => Sys2Proof.Machine.execSlotReception dt n src s
  | .slotAreaEnd dt src => Sys2Proof.Machine.execSlotAreaEnd dt src s
  | .cellDelivery dt src => Sys2Proof.Machine.execCellDelivery dt src s
  | .origination dt => Sys2Proof.Machine.execOrigination dt s
  | .masterRingLoss dt => Sys2Proof.Machine.execMasterRingLoss dt s
  | .nodeMissing dt b => Sys2Proof.Machine.execNodeMissing dt b s
  | .applyInstant dt => Sys2Proof.Machine.execApplyInstant dt s
  | .localCycleTimerExpiry dt => Sys2Proof.Machine.execLocalCycleTimerExpiry dt s
  | .ringLoss dt => Sys2Proof.Machine.execRingLoss dt s
  | .endNodeCondition dt => Sys2Proof.Machine.execEndNodeCondition dt s
  | .rampEnd dt => Sys2Proof.Machine.execRampEnd dt s
  | .stopRampEnd dt => Sys2Proof.Machine.execStopRampEnd dt s
  | .localStopEnd dt => Sys2Proof.Machine.execLocalStopEnd dt s
  | .sourceLost dt n => Sys2Proof.Machine.execSourceLost dt n s
  | .stopTimeout dt => Sys2Proof.Machine.execStopTimeout dt s
  | .streamTimeout dt n => Sys2Proof.Machine.execStreamTimeout dt n s
  | .sweep dt n => Sys2Proof.Machine.execSweep dt n s
  | .slotStale dt w k => Sys2Proof.Machine.execSlotStale dt w k s
  | .starvation dt => Sys2Proof.Machine.execStarvation dt s
  | .tripInputActive dt n level => Sys2Proof.Machine.execTripInputActive dt n level s
  | .filterExpiry dt n => Sys2Proof.Machine.execFilterExpiry dt n s
  | .tripInputInactive dt n level => Sys2Proof.Machine.execTripInputInactive dt n level s
  | .exposureEdge dt n level => Sys2Proof.Machine.execExposureEdge dt n level s
  | .firing dt n => Sys2Proof.Machine.execFiring dt n s
  | .pulseTimerExpiry dt n => Sys2Proof.Machine.execPulseTimerExpiry dt n s
  | .keyRowReading dt cols => Sys2Proof.Machine.execKeyRowReading dt cols s
  | .pPortCycle dt write addr beats => Sys2Proof.Machine.execPPortCycle dt write addr beats s
  | .mPortBurstCompletion dt => Sys2Proof.Machine.execMPortBurstCompletion dt s
  | .setTarget dt => Sys2Proof.Machine.execSetTarget dt s
  | .hold dt => Sys2Proof.Machine.execHold dt s
  | .engage dt n => Sys2Proof.Machine.execEngage dt n s
  | .disengage dt n => Sys2Proof.Machine.execDisengage dt n s
  | .setGear dt n => Sys2Proof.Machine.execSetGear dt n s
  | .setOffset dt n => Sys2Proof.Machine.execSetOffset dt n s
  | .setSource dt n => Sys2Proof.Machine.execSetSource dt n s
  | .undefinedCommandCode dt site => Sys2Proof.Machine.execUndefinedCommandCode dt site s
  | .tripRequest dt b => Sys2Proof.Machine.execTripRequest dt b s
  | .resetRequest dt b => Sys2Proof.Machine.execResetRequest dt b s
  | .enableRequest dt b => Sys2Proof.Machine.execEnableRequest dt b s
  | .noticeMask dt b => Sys2Proof.Machine.execNoticeMask dt b s
  | .noticeClear dt b => Sys2Proof.Machine.execNoticeClear dt b s
  | .screenRefreshCommand dt b => Sys2Proof.Machine.execScreenRefreshCommand dt b s
  | .commit dt addr b => Sys2Proof.Machine.execCommit dt addr b s
  | .withdraw dt addr b => Sys2Proof.Machine.execWithdraw dt addr b s
  | .release dt addr b => Sys2Proof.Machine.execRelease dt addr b s
  | .camOutBeat dt addr b => Sys2Proof.Machine.execCamOutBeat dt addr b s
  | .screenOutBeat dt addr b => Sys2Proof.Machine.execScreenOutBeat dt addr b s
  | .blockedWrite dt addr b => Sys2Proof.Machine.execBlockedWrite dt addr b s
  | .registerWrite dt addr b => Sys2Proof.Machine.execRegisterWrite dt addr b s

end Sys2Proof.Machine
end

