-- ==== Sys2Proof/Laws/PerInstr.lean ====
section
/-! SUPPORT. One lemma per command: what a well-formed command brings is no longer than its format allows. -/

namespace Sys2Proof

/-- The sizes of a tag block and its slot area, each with the most that its format allows (1.3). -/
def areaSizes (tags : Block) (slots : List Block) : List (Nat × Nat) :=
  (tags.length, 18) :: (slots.length, 128) :: slots.map fun b => (b.length, 18)

/-- The sizes of what a command brings, each with the most that its format allows (1.3, 2.2, R188). -/
def Instr.sizes (i : Instr) : List (Nat × Nat) :=
  match i with
  | .flashHeaderRead _ bytes => [(bytes.length, 12)]
  | .flashBodyRead _ bytes => [(bytes.length, 32768)]
  | .outRunHeader _ b => [(b.length, 32)]
  | .entryIntoJoined _ b => [(b.length, 32)]
  | .outRunTripBlock _ b => [(b.length, 32)]
  | .insertionDecision _ tags slots => areaSizes tags slots
  | .cellDecision _ b => [(b.length, 274)]
  | .returnHeader _ (.arrived b) => [(b.length, 32)]
  | .returnTripBlock _ (.arrived b) => [(b.length, 32)]
  | .passageToRun _ b => [(b.length, 32)]
  | .slotReception _ _ (.arrived t b) => [(t.length, 18), (b.length, 18)]
  | .slotAreaEnd _ (.arrived tags slots) => areaSizes tags slots
  | .cellDelivery _ (.arrived b) => [(b.length, 274)]
  | .nodeMissing _ b => [(b.length, 32)]
  | .pPortCycle _ _ _ beats => [(beats.length, 8)]
  | _ => []

namespace Laws.OperandBounds

/-- Every size of a well-formed command is within its bound. -/
def Statement (i : Instr) : Prop := i.wf = true → ∀ p ∈ i.sizes, p.1 ≤ p.2

theorem pinReset (dt : Nat) : Statement (.pinReset dt) := by
  intro _ p hp
  cases hp

theorem flashHeaderRead (dt : Nat) (bytes : List Byte) : Statement (.flashHeaderRead dt bytes) := by
  intro h p hp
  simp_all [Instr.sizes, Instr.wf]

theorem flashBodyRead (dt : Nat) (bytes : List Byte) : Statement (.flashBodyRead dt bytes) := by
  intro h p hp
  simp_all [Instr.sizes, Instr.wf]

theorem lightDetected (dt : Nat) (p : Port) : Statement (.lightDetected dt p) := by
  intro _ p hp
  cases hp

theorem lockIntervalExpiry (dt : Nat) (p : Port) : Statement (.lockIntervalExpiry dt p) := by
  intro _ p hp
  cases hp

theorem clockOutOfBand (dt : Nat) (p : Port) : Statement (.clockOutOfBand dt p) := by
  intro _ p hp
  cases hp

theorem lightLost (dt : Nat) (p : Port) : Statement (.lightLost dt p) := by
  intro _ p hp
  cases hp

theorem startSymbol (dt : Nat) (p : Port) : Statement (.startSymbol dt p) := by
  intro _ p hp
  cases hp

theorem outRunHeader (dt : Nat) (b : Block) : Statement (.outRunHeader dt b) := by
  intro h p hp
  simp_all [Instr.sizes, Instr.wf, Block.fits]

theorem entryIntoJoined (dt : Nat) (b : Block) : Statement (.entryIntoJoined dt b) := by
  intro h p hp
  simp_all [Instr.sizes, Instr.wf, Block.fits]

theorem outRunTripBlock (dt : Nat) (b : Block) : Statement (.outRunTripBlock dt b) := by
  intro h p hp
  simp_all [Instr.sizes, Instr.wf, Block.fits]

/-- Every block of an area that fits is within its format. -/
theorem areaSizes_le {tags : Block} {slots : List Block} (h : areaFits tags slots = true) :
    ∀ p ∈ areaSizes tags slots, p.1 ≤ p.2 := by
  intro p hp
  simp only [areaFits, Block.fits, Bool.and_eq_true, decide_eq_true_eq, List.all_eq_true] at h
  simp only [areaSizes, List.mem_cons, List.mem_map] at hp
  obtain rfl | rfl | ⟨b, hb, rfl⟩ := hp
  · exact h.1.1
  · exact h.1.2
  · exact h.2 b hb

theorem insertionDecision (dt : Nat) (tags : Block) (slots : List Block) : Statement (.insertionDecision dt tags slots) :=
  areaSizes_le

theorem cellDecision (dt : Nat) (b : Block) : Statement (.cellDecision dt b) := by
  intro h p hp
  simp_all [Instr.sizes, Instr.wf, Block.fits]

theorem claimPassageEnd (dt : Nat) : Statement (.claimPassageEnd dt) := by
  intro _ p hp
  cases hp

theorem returnHeader (dt : Nat) (src : ReturnSource) : Statement (.returnHeader dt src) := by
  intro h p hp
  cases src <;> simp_all [Instr.sizes, Instr.wf, ReturnSource.fits, Block.fits]

theorem returnTripBlock (dt : Nat) (src : ReturnSource) : Statement (.returnTripBlock dt src) := by
  intro h p hp
  cases src <;> simp_all [Instr.sizes, Instr.wf, ReturnSource.fits, Block.fits]

theorem passageToRun (dt : Nat) (b : Block) : Statement (.passageToRun dt b) := by
  intro h p hp
  simp_all [Instr.sizes, Instr.wf, Block.fits]

theorem slotReception (dt : Nat) (n : Fin 128) (src : SlotSource) : Statement (.slotReception dt n src) := by
  intro h p hp
  cases src with
  | copy => cases hp
  | arrived t b =>
    simp only [Instr.wf, SlotSource.fits, Block.fits, Bool.and_eq_true, decide_eq_true_eq] at h
    simp only [Instr.sizes, List.mem_cons, List.not_mem_nil, or_false] at hp
    obtain rfl | rfl := hp
    · exact h.1
    · exact h.2

theorem slotAreaEnd (dt : Nat) (src : AreaSource) : Statement (.slotAreaEnd dt src) := by
  intro h p hp
  cases src with
  | arrived t bs => exact areaSizes_le h p hp
  | copy => cases hp

theorem cellDelivery (dt : Nat) (src : ReturnSource) : Statement (.cellDelivery dt src) := by
  intro h p hp
  cases src <;> simp_all [Instr.sizes, Instr.wf, ReturnSource.fits, Block.fits]

theorem origination (dt : Nat) : Statement (.origination dt) := by
  intro _ p hp
  cases hp

theorem masterRingLoss (dt : Nat) : Statement (.masterRingLoss dt) := by
  intro _ p hp
  cases hp

theorem nodeMissing (dt : Nat) (b : Block) : Statement (.nodeMissing dt b) := by
  intro h p hp
  simp_all [Instr.sizes, Instr.wf, Block.fits]

theorem applyInstant (dt : Nat) : Statement (.applyInstant dt) := by
  intro _ p hp
  cases hp

theorem localCycleTimerExpiry (dt : Nat) : Statement (.localCycleTimerExpiry dt) := by
  intro _ p hp
  cases hp

theorem ringLoss (dt : Nat) : Statement (.ringLoss dt) := by
  intro _ p hp
  cases hp

theorem endNodeCondition (dt : Nat) : Statement (.endNodeCondition dt) := by
  intro _ p hp
  cases hp

theorem rampEnd (dt : Nat) : Statement (.rampEnd dt) := by
  intro _ p hp
  cases hp

theorem stopRampEnd (dt : Nat) : Statement (.stopRampEnd dt) := by
  intro _ p hp
  cases hp

theorem localStopEnd (dt : Nat) : Statement (.localStopEnd dt) := by
  intro _ p hp
  cases hp

theorem sourceLost (dt : Nat) (n : Fin 8) : Statement (.sourceLost dt n) := by
  intro _ p hp
  cases hp

theorem stopTimeout (dt : Nat) : Statement (.stopTimeout dt) := by
  intro _ p hp
  cases hp

theorem streamTimeout (dt : Nat) (n : Fin 4) : Statement (.streamTimeout dt n) := by
  intro _ p hp
  cases hp

theorem sweep (dt : Nat) (n : Fin 2) : Statement (.sweep dt n) := by
  intro _ p hp
  cases hp

theorem slotStale (dt : Nat) (w : Fin 8) (k : Fin 8) : Statement (.slotStale dt w k) := by
  intro _ p hp
  cases hp

theorem starvation (dt : Nat) : Statement (.starvation dt) := by
  intro _ p hp
  cases hp

theorem tripInputActive (dt : Nat) (n : Fin 8) (level : Bool) : Statement (.tripInputActive dt n level) := by
  intro _ p hp
  cases hp

theorem filterExpiry (dt : Nat) (n : Fin 8) : Statement (.filterExpiry dt n) := by
  intro _ p hp
  cases hp

theorem tripInputInactive (dt : Nat) (n : Fin 8) (level : Bool) : Statement (.tripInputInactive dt n level) := by
  intro _ p hp
  cases hp

theorem exposureEdge (dt : Nat) (n : Fin 4) (level : Bool) : Statement (.exposureEdge dt n level) := by
  intro _ p hp
  cases hp

theorem firing (dt : Nat) (n : Fin 4) : Statement (.firing dt n) := by
  intro _ p hp
  cases hp

theorem pulseTimerExpiry (dt : Nat) (n : Fin 4) : Statement (.pulseTimerExpiry dt n) := by
  intro _ p hp
  cases hp

theorem keyRowReading (dt : Nat) (cols : BitVec 8) : Statement (.keyRowReading dt cols) := by
  intro _ p hp
  cases hp

theorem pPortCycle (dt : Nat) (write : Bool) (addr : BitVec 24) (beats : List Beat) : Statement (.pPortCycle dt write addr beats) := by
  intro h p hp
  simp_all [Instr.sizes, Instr.wf]

theorem mPortBurstCompletion (dt : Nat) : Statement (.mPortBurstCompletion dt) := by
  intro _ p hp
  cases hp

theorem setTarget (dt : Nat) : Statement (.setTarget dt) := by
  intro _ p hp
  cases hp

theorem hold (dt : Nat) : Statement (.hold dt) := by
  intro _ p hp
  cases hp

theorem engage (dt : Nat) (n : Fin 8) : Statement (.engage dt n) := by
  intro _ p hp
  cases hp

theorem disengage (dt : Nat) (n : Fin 8) : Statement (.disengage dt n) := by
  intro _ p hp
  cases hp

theorem setGear (dt : Nat) (n : Fin 8) : Statement (.setGear dt n) := by
  intro _ p hp
  cases hp

theorem setOffset (dt : Nat) (n : Fin 8) : Statement (.setOffset dt n) := by
  intro _ p hp
  cases hp

theorem setSource (dt : Nat) (n : Fin 8) : Statement (.setSource dt n) := by
  intro _ p hp
  cases hp

theorem undefinedCommandCode (dt : Nat) (site : CommandSite) : Statement (.undefinedCommandCode dt site) := by
  intro _ p hp
  cases hp

theorem tripRequest (dt : Nat) (b : Beat) : Statement (.tripRequest dt b) := by
  intro _ p hp
  cases hp

theorem resetRequest (dt : Nat) (b : Beat) : Statement (.resetRequest dt b) := by
  intro _ p hp
  cases hp

theorem enableRequest (dt : Nat) (b : Beat) : Statement (.enableRequest dt b) := by
  intro _ p hp
  cases hp

theorem noticeMask (dt : Nat) (b : Beat) : Statement (.noticeMask dt b) := by
  intro _ p hp
  cases hp

theorem noticeClear (dt : Nat) (b : Beat) : Statement (.noticeClear dt b) := by
  intro _ p hp
  cases hp

theorem screenRefreshCommand (dt : Nat) (b : Beat) : Statement (.screenRefreshCommand dt b) := by
  intro _ p hp
  cases hp

theorem commit (dt : Nat) (addr : BitVec 24) (b : Beat) : Statement (.commit dt addr b) := by
  intro _ p hp
  cases hp

theorem withdraw (dt : Nat) (addr : BitVec 24) (b : Beat) : Statement (.withdraw dt addr b) := by
  intro _ p hp
  cases hp

theorem release (dt : Nat) (addr : BitVec 24) (b : Beat) : Statement (.release dt addr b) := by
  intro _ p hp
  cases hp

theorem camOutBeat (dt : Nat) (addr : BitVec 24) (b : Beat) : Statement (.camOutBeat dt addr b) := by
  intro _ p hp
  cases hp

theorem screenOutBeat (dt : Nat) (addr : BitVec 24) (b : Beat) : Statement (.screenOutBeat dt addr b) := by
  intro _ p hp
  cases hp

theorem blockedWrite (dt : Nat) (addr : BitVec 24) (b : Beat) : Statement (.blockedWrite dt addr b) := by
  intro _ p hp
  cases hp

theorem registerWrite (dt : Nat) (addr : BitVec 24) (b : Beat) : Statement (.registerWrite dt addr b) := by
  intro _ p hp
  cases hp

end Laws.OperandBounds

end Sys2Proof
end

