-- ==== Sys2Proof/Safety.lean ====
section
/-! DEFINITION. What statements about the machine are made of: which parts of a state an event leaves alone, what holds of
every state that a run reaches, and the arbiter at rest. -/

namespace Sys2Proof.Machine

/-! ### Frames -/

/-- The parts of a state that a frame speaks of: one for each block, with the notice flags apart from the rest of the CNU,
and the capture shadows apart from the rest of the PTU. -/
inductive Part where
  | now
  | free
  | pending
  | cfg
  | flu
  | lsu
  | axu
  | tru
  | slu
  | cls
  | cmu
  | igu
  | scu
  | ksc
  | cnu
  | flags
  | ptu
  | shadow
  | lde
  | mem
  deriving DecidableEq, Repr

/-- Two states agree in a part. -/
def Part.same (p : Part) (s t : State) : Prop :=
  match p with
  | .now => t.now = s.now
  | .free => t.free = s.free
  | .pending => t.pending = s.pending
  | .cfg => t.cfg = s.cfg
  | .flu => t.flu = s.flu
  | .lsu => t.lsu = s.lsu
  | .axu => t.axu = s.axu
  | .tru => t.tru = s.tru
  | .slu => t.slu = s.slu
  | .cls => t.cls = s.cls
  | .cmu => t.cmu = s.cmu
  | .igu => t.igu = s.igu
  | .scu => t.scu = s.scu
  | .ksc => t.ksc = s.ksc
  | .cnu => { t.cnu with flags := 0 } = { s.cnu with flags := 0 }
  | .flags => t.cnu.flags = s.cnu.flags
  | .ptu => { t.ptu with shadow := [] } = { s.ptu with shadow := [] }
  | .shadow => t.ptu.shadow = s.ptu.shadow
  | .lde => t.lde = s.lde
  | .mem => t.mem = s.mem

/-- From `s` to `t`, no part but the listed ones has changed. -/
def OnlyTouches (ps : List Part) (s t : State) : Prop := ∀ p, p ∉ ps → p.same s t

/-! ### What every reached state satisfies -/

/-- The landing queue's shape: one entry for each URGENT source, one follow-on record for each, only beside an entry of its
source, and at most 20 NORMAL entries (R39, R40, R41). -/
def Lde.Sound (q : Lde) : Prop :=
  (q.urgent.map UrgentEntry.src).Nodup ∧ (q.follow.map Prod.fst).Nodup ∧
    (∀ f ∈ q.follow, f.1 ∈ q.urgent.map UrgentEntry.src) ∧ q.normal.length ≤ Config.normalPlaces

/-- Memory and shadows are canonical, mask bit 0 is clear (R193), the landing queue has its shape, the transmit queue holds
at most 64 fragments (R156) and the key queue at most 16 events (R183). -/
structure State.Sound (s : State) : Prop where
  mem : Memory.wf s.mem = true
  shadow : Cells.wf s.ptu.shadow = true
  mask : s.cnu.mask.getLsbD 0 = false
  lde : s.lde.Sound
  tx : s.igu.tx.length ≤ Config.txPlaces
  keys : s.ksc.queue.length ≤ Config.keyPlaces

/-- The arbiter has nothing to grant: the M-port is held, or nothing is queued and no P-port cycle waits (R42). -/
def State.Served (s : State) : Prop :=
  s.lde.holder = .free → s.lde.urgent = [] ∧ s.lde.normal = [] ∧ s.cycleWaits = false

/-- The M-port is free and nobody claims it: an event that queues nothing ends as it is. -/
def State.Quiet (s : State) : Prop :=
  s.lde.holder = .free ∧ s.lde.urgent = [] ∧ s.lde.normal = [] ∧ s.ptu.cycle = none ∧ s.ptu.behind = []

/-- The rows that carry an M-port burst to completion: the completion of a burst, and the single-beat writes (log 5). -/
def carriesBurst (c : Instr) : Bool :=
  match c with
  | .mPortBurstCompletion _ => true
  | .tripRequest _ _ => true
  | .resetRequest _ _ => true
  | .enableRequest _ _ => true
  | .noticeMask _ _ => true
  | .noticeClear _ _ => true
  | .screenRefreshCommand _ _ => true
  | .undefinedCommandCode _ (.trip _ _) => true
  | .undefinedCommandCode _ (.refresh _) => true
  | .commit _ _ _ => true
  | .withdraw _ _ _ => true
  | .release _ _ _ => true
  | .camOutBeat _ _ _ => true
  | .screenOutBeat _ _ _ => true
  | .blockedWrite _ _ _ => true
  | .registerWrite _ _ _ => true
  | _ => false

/-- The rows in which an epoch can be made: those that name an epoch or an outcome of one, and those that place a header's
entry in the pending list, which takes the oldest of three at once (R20). -/
def makesEpoch (c : Instr) : Bool :=
  match c with
  | .outRunHeader _ _ => true
  | .entryIntoJoined _ _ => true
  | .origination _ => true
  | .masterRingLoss _ => true
  | .applyInstant _ => true
  | .localCycleTimerExpiry _ => true
  | .ringLoss _ => true
  | .endNodeCondition _ => true
  | .rampEnd _ => true
  | .stopRampEnd _ => true
  | .localStopEnd _ => true
  | .sourceLost _ _ => true
  | .stopTimeout _ => true
  | .streamTimeout _ _ => true
  | .sweep _ _ => true
  | .slotStale _ _ _ => true
  | .setTarget _ => true
  | .hold _ => true
  | .engage _ _ => true
  | .disengage _ _ => true
  | .setGear _ _ => true
  | .setOffset _ _ => true
  | .setSource _ _ => true
  | .undefinedCommandCode _ .shaft => true
  | .undefinedCommandCode _ (.axis _) => true
  | _ => false

/-! ### Premises and results that several statements share -/

/-- Notice flags with the listed ones set. -/
def withFlags (f : BitVec 16) (ns : List Nat) : BitVec 16 := ns.foldl (fun f n => f ||| (1#16 <<< n)) f

/-- From `s` to `t`, memory changes by the enabled bytes of one word, and every other byte reads as before. -/
def StoresWord (s t : State) (wa : Nat) (v : Word) (be : BitVec 4) : Prop :=
  ∀ a < Memory.size, Memory.byte t.mem a =
    if a / 4 = wa ∧ be.getLsbD (a % 4) = true then wordByte v (a % 4) else Memory.byte s.mem a

/-- The shadow of one word takes the enabled bytes, and every other shadow is as before (R30). -/
def ShadowsWord (s t : State) (wa : Nat) (v : Word) (be : BitVec 4) : Prop :=
  ∀ a, t.shadowAt a = if a = wa then mergeBytes (s.shadowAt wa) v be else s.shadowAt a

/-- Word `wa` names `id`, and the M-port is free for a single-beat write to it (R28, R44). -/
structure State.CanWrite (s : State) (wa : Nat) (id : Ident) : Prop where
  sound : s.Sound
  quiet : s.Quiet
  range : wa < 2 ^ 24
  names : s.identOf wa = id

/-- A capture write: the word's enabled bytes in memory and in its shadow, and every other byte and shadow as before
(R26, R30). -/
def Captured (s t : State) (wa : Nat) (b : Beat) : Prop :=
  StoresWord s t wa b.data b.be ∧ ShadowsWord s t wa b.data b.be

/-- The shadow of word `wa` after the beat. -/
def State.shadowAfter (s : State) (wa : Nat) (b : Beat) : Word := mergeBytes (s.shadowAt wa) b.data b.be

/-- Exactly one entry is pending, its apply instant has come `dt` ticks from now, and it makes an epoch (R20, R21). -/
structure State.HeaderEpochDue (s : State) (dt : Nat) (e : PendingEntry) : Prop where
  configured : s.configured = true
  entries : s.flu.entries = [e]
  arrived : e.instant ≤ s.now + dt
  fresh : e.cycle ≠ s.flu.cycle

/-- The local cycle timer of a member has expired `dt` ticks from now, and no entry is pending (R23). -/
structure State.SynthesizedEpochDue (s : State) (dt : Nat) : Prop where
  member : s.isMember = true
  expired : s.flu.expected + Config.timerDelay ≤ s.now + dt
  entries : s.flu.entries = []

/-- Stale slots trip nothing here: source 12 is never latched (R88), so ageing cannot change the acting class. -/
def State.StaleTripsNothing (s : State) : Prop := s.cfg.classes[(12 : Fin 15)] = .clear

/-- The acting class is the one that latch and remote view give (R94). -/
def State.ActsOnWhatItHolds (s : State) : Prop := s.tru.acting = s.localClass.worst s.remoteClass

/-- The remote view holds a mark of class `c` by a position that is not this node's own (R94). -/
def State.OthersMark (s : State) (c : TripClass) (p : Fin 32) : Prop :=
  (s.tru.remote.of c).getLsbD p.val = true ∧ s.flu.position ≠ some p.val

/-- The shadow after a synthesized epoch at speed `v`: angle and revolution count advance by it (R55, R59). -/
def Shadow.advanced (x : Shadow) (v : Nat) : Shadow :=
  { x with angle := advanceAngle x.angle v, rev := advanceRev x.angle x.rev v, speed := v, resync := false }

/-- What an epoch can change: every block but the Cell Scheduler and the Key Scanner, and never the configuration, the
shadows or memory. -/
def epochParts : List Part := [.now, .free, .flu, .lsu, .axu, .tru, .slu, .cmu, .igu, .scu, .flags, .ptu, .lde]

/-- An axis stands at an epoch: no increment, position, remainder and offset kept, and the setpoint formed from them (R67,
R76, R77, R78). -/
def Axis.Stands (a b : Axis) (state : AxisState) (resyncHold : Bool) : Prop :=
  b.state = state ∧ b.resyncHold = resyncHold ∧ b.q = 0 ∧ b.theta = a.theta ∧ b.rev = a.rev ∧ b.r = a.r ∧ b.o = a.o ∧
    b.frozen = false ∧ b.s = a.theta + a.o

/-- An ENGAGED axis makes an increment of its source: the gear step with its wrap count, the slew, unless class A, B or C
acts, and the setpoint (R73 to R76). -/
def Axis.Follows (a b : Axis) (acting : TripClass) (dA : Int) : Prop :=
  let t : Int := a.r + dA * a.n
  let q : Int := t / (a.d : Int)
  let sum : Int := a.theta.toNat + q
  let step : Int := max (-(a.lslew : Int)) (min (a.lslew : Int) (a.ot.toInt - a.o.toInt))
  b.state = .engaged ∧ b.resyncHold = a.resyncHold ∧ b.q = q ∧ (0 < a.d → (b.r : Int) = t % (a.d : Int)) ∧
    b.theta = BitVec.ofInt 32 sum ∧ b.rev = a.rev + BitVec.ofInt 16 (sum / 2 ^ 32) ∧
    b.o = (if acting.stops then a.o else a.o + BitVec.ofInt 32 step) ∧ b.frozen = acting.stops ∧ b.s = b.theta + b.o

/-- What an epoch makes of an axis without a command, with the shadow at `angle` after it (R69 to R78). -/
structure Axis.Advances (a b : Axis) (angle : Word) (acting : TripClass) (mark : Bool)
    (fresh : Vector (Option Word) 128) : Prop where
  off : a.state = .off → b = a
  standing : a.state ≠ .off → a.state ≠ .engaged → a.Stands b a.state a.resyncHold
  classA : a.state = .engaged → acting = .a → a.Stands b .hold a.resyncHold
  resync : a.state = .engaged → acting ≠ .a → a.source = .shaft → mark = true → a.Stands b .hold true
  shaft : a.state = .engaged → acting ≠ .a → a.source = .shaft → mark = false → ∀ p, a.ref = some p →
    a.Follows b acting (angle - p).toInt
  shaftRef : a.state ≠ .off → a.source = .shaft → b.ref = some angle
  slot : a.state = .engaged → acting ≠ .a → ∀ k f p, a.source = .slot k → fresh[k] = some f → a.ref = some p →
    a.Follows b acting (f - p).toInt
  first : a.state = .engaged → acting ≠ .a → ∀ k f, a.source = .slot k → fresh[k] = some f → a.ref = none →
    a.Follows b acting 0 ∧ b.delta = a.delta
  extrapolated : a.state = .engaged → acting ≠ .a → ∀ k, a.source = .slot k → fresh[k] = none → a.miss < a.limit →
    a.Follows b acting a.delta ∧ b.ref = a.ref.map (· + BitVec.ofInt 32 a.delta) ∧ b.miss = min 255 (a.miss + 1) ∧
      b.extrap = true
  lost : a.state = .engaged → acting ≠ .a → ∀ k, a.source = .slot k → fresh[k] = none → a.limit ≤ a.miss →
    a.Stands b .hold a.resyncHold ∧ b.sourceLost = true ∧ b.extrap = false
  received : a.state ≠ .off → ∀ k f, a.source = .slot k → fresh[k] = some f →
    b.ref = some f ∧ b.miss = 0 ∧ b.sourceLost = false ∧ ∀ p, a.ref = some p → b.delta = (f - p).toInt ∧ b.extrap = false
  missed : a.state = .idle ∨ a.state = .hold → ∀ k, a.source = .slot k → fresh[k] = none →
    b.ref = a.ref ∧ b.delta = a.delta ∧ b.miss = min 255 (a.miss + 1)

/-- Every axis without a command advances (R68). -/
def State.AxesAdvance (s t : State) (mark : Bool) : Prop :=
  ∀ n : Fin 8, s.axisCommand n = none →
    (s.axu.axes[n]).Advances t.axu.axes[n] t.lsu.shadow.angle s.tru.acting mark s.axu.fresh

/-- The channel at an epoch, before its test: a firing still scheduled is made, and the reference's values are kept (R139,
R145). -/
def Channel.fired (c : Channel) (angle : Word) (q : Int) (now interval : Nat) : Channel :=
  { c with
      sched := none, count := if c.sched.isSome then c.count + 1 else c.count,
      pulse := if c.sched.isSome then some (now, interval) else c.pulse, latestS := angle, latestQ := q }

/-- What the test at list entry `p` makes of a channel whose reference goes from `angle` by `q`: no crossing; or a firing in
an armed lap, the pointer on the next entry, and the wrap counted (R142, R144). Of the entries crossed behind it, the first
in an armed lap is skipped with `flag` (R143). -/
def Channel.TestsAt (c d : Channel) (cam : CamCfg) (p : Nat) (angle : Word) (q : Int) (flag : Bool) : Prop :=
  let away := fun i => (cam.list.getD i 0 - angle).toNat
  let wraps := cam.list.length ≤ p + 1
  let next := if wraps then 0 else p + 1
  let lap := if wraps then (c.lapPhase + 1) % cam.pacing else c.lapPhase
  (q ≤ away p → d = { c with seek := false, pointer := p }) ∧
    ((away p : Int) < q →
      d.sched = (if c.lapPhase = 0 then some (away p * 256 / q.toNat) else none) ∧ d.count = c.count ∧ d.pulse = c.pulse ∧
        d.seek = false ∧ d.latestS = c.latestS ∧ d.latestQ = c.latestQ ∧ d.exposure = c.exposure ∧
        (cam.list.length ≤ 1 ∨ q ≤ away next → d.pointer = next ∧ d.lapPhase = lap ∧
          d.lapCount = (if wraps then c.lapCount + 1 else c.lapCount) ∧ d.skipped = c.skipped) ∧
        (1 < cam.list.length → (away next : Int) < q → lap = 0 → d.skipped = true ∧ flag = true))

/-- What an epoch makes of every configured camera channel, its reference's values being those after the epoch (R138 to
R144); an unconfigured one does nothing. -/
def State.ChannelsAdvance (s t : State) (mark : Bool) : Prop :=
  (∀ i : Fin 4, s.cfg.cams[i] = none → t.cmu.ch[i] = s.cmu.ch[i]) ∧
    ∀ (i : Fin 4) (cam : CamCfg), s.cfg.cams[i] = some cam →
      let r := t.reference cam.ref
      let c := (s.cmu.ch[i]).fired r.1 r.2 t.now t.flu.interval
      let tests := 0 < r.2 ∧ (cam.minSpeed : Int) ≤ r.2 ∧ s.tru.acting.stops = false ∧ s.isJoined = true
      let seeks := s.cmu.ch[i].seek = true ∨ mark = true ∧ cam.ref = .shaft
      (¬tests → t.cmu.ch[i] = { c with seek := true }) ∧
        (tests → ∃ p, (¬seeks → p = c.pointer) ∧
          (seeks → ∀ j < cam.list.length, (cam.list.getD p 0 - r.1).toNat ≤ (cam.list.getD j 0 - r.1).toNat) ∧
          c.TestsAt t.cmu.ch[i] cam p r.1 r.2 (t.cnu.flags.getLsbD 13))

/-- The result word of a command is requested as a NORMAL landing (R37). -/
def State.ResultRequested (t : State) (wa : Nat) (w : Word) : Prop :=
  ∃ e ∈ t.lde.normal, e.req = .result ∧ ({ addr := wa, words := [w] } : Run) ∈ e.runs

/-- A commanded or stop ramp within its bounds (R51, R53, R54): its speeds within 0 to `vmax` and its step within its
length. -/
def Ramp.Within (r : Ramp) (vmax : Nat) : Prop := r.v0 ≤ vmax ∧ r.vt ≤ vmax ∧ 1 ≤ r.n ∧ r.k ≤ r.n

/-- The speeds of the generator and of the shadow stay within 0 to V_max, and so do their ramps; the ramp of a STOPPING
generator ends at 0 (R49, R50, R53, R58). -/
structure State.SpeedsBounded (s : State) : Prop where
  gen : s.lsu.gen.speed ≤ s.cfg.vmax
  genRamp : ∀ r, s.lsu.gen.ramp = some r → r.Within s.cfg.vmax
  stepping : s.lsu.gen.state = .ramping ∨ s.lsu.gen.state = .stopping → ∀ r, s.lsu.gen.ramp = some r → r.k < r.n
  stop : s.lsu.gen.state = .stopping → ∀ r, s.lsu.gen.ramp = some r → r.vt = 0
  shadow : s.lsu.shadow.speed ≤ s.cfg.vmax
  shadowRamp : ∀ r, s.lsu.shadow.ramp = some r → r.vt = 0 ∧ r.v0 ≤ s.cfg.vmax

/-- Every axis with a denominator holds a remainder below it (R73). -/
def State.ResiduesBounded (s : State) : Prop := ∀ n : Fin 8, s.axu.axes[n].d = 0 ∨ s.axu.axes[n].r < s.axu.axes[n].d

/-- Lists and counts of the Fibre Line Unit that the rules bound stay within their sizes (R13, R16 to R20, R23). The list `tf`
has no bound (log 57). -/
structure Flu.Bounded (u : Flu) : Prop where
  meas : u.meas.length ≤ 16
  entries : u.entries.length ≤ 3
  runUp : u.runUp ≤ 16
  returnWatch : u.returnWatch ≤ 255
  returnMiss : u.returnMiss ≤ 255
  absence : ∀ p : Fin 32, u.absence[p] ≤ 255
  miss : u.miss ≤ 65535

end Sys2Proof.Machine
end

