-- ==== Sys2Proof/Certificates/Slice0/Obligations.lean ====
section
/-! DEFINITION. The statements for the provers. Premises name what the state must be; `Served` and `Sound` are the
invariants every step keeps. A frame is an `OnlyTouches`: every part it does not list is unchanged. -/

open Sys2Proof Sys2Proof.Machine

/-! ### The machine as a whole -/

/-- A step takes the command at the front of the queue and executes it on the state with the queue's rest (log 3); on an empty
queue one tick passes and nothing else changes (the model's choice, log 2). -/
def Obligations.StepRunsTheFrontCommand : Prop :=
  (∀ (c : Instr) (rest : List Instr) (s : State), s.pending = c :: rest →
    step s = exec c { s with pending := rest }) ∧
  ∀ s : State, s.pending = [] → step s = .next { s with now := s.now + 1 }

/-- A well-formed command always completes, with the queue left as it was; an ill-formed one is refused by name (log 7).
Nothing faults. -/
def Obligations.EveryWellFormedCommandCompletes : Prop :=
  ∀ (c : Instr) (s : State),
    (c.wf = true → ∃ t, exec c s = .next t ∧ t.pending = s.pending) ∧ (c.wf = false → exec c s = .refused .illFormed)

/-- Every size of a well-formed command is within its format: the blocks of a frame within those of the frame table of 1.3 and
section 12, a P-port cycle within the burst of 2.2, the configuration image within R188. That a command beyond them is
ill-formed is the model's choice, log 7. -/
def Obligations.WellFormedOperandsFitTheirFormats : Prop := ∀ i : Instr, Sys2Proof.Laws.OperandBounds.Statement i

/-- The state after reset is sound and within its bounds, nothing is to be granted, and no command waits. The reset
values the manual does not give are the model's, logs 8 and 9. -/
def Obligations.ResetStateIsSound : Prop :=
  State.reset.Sound ∧ State.reset.Served ∧ State.reset.pending = [] ∧ State.reset.SpeedsBounded ∧
    State.reset.ResiduesBounded ∧ State.reset.flu.Bounded

/-- Every step from a sound state ends in a sound state. -/
def Obligations.EveryStepKeepsTheStateSound : Prop := ∀ s t : State, s.Sound → step s = .next t → t.Sound

/-- Every step leaves nothing that the arbiter could still grant. -/
def Obligations.EveryStepLeavesTheArbiterServed : Prop := ∀ s t : State, s.Served → step s = .next t → t.Served

/-- Memory changes only by an M-port burst: at its completion, or in one of the rows that carry a single-beat write to
completion (R26, R45, log 5). Every other command leaves every byte as it was. -/
def Obligations.MemoryChangesOnlyByBursts : Prop :=
  ∀ (c : Instr) (s t : State), carriesBurst c = false → exec c s = .next t →
    ∀ a, Memory.byte t.mem a = Memory.byte s.mem a

/-- The speeds of generator and shadow, and their ramps, stay within 0 to V_max at every step, the ramp of a STOPPING
generator ending at 0, and an axis' remainder stays below its denominator (R49, R50, R53, R58, R73). -/
def Obligations.EveryStepKeepsSpeedsWithinVmax : Prop :=
  (∀ s t : State, s.SpeedsBounded → step s = .next t → t.SpeedsBounded) ∧
  ∀ s t : State, s.ResiduesBounded → step s = .next t → t.ResiduesBounded

/-- The Fibre Line Unit's lists and counts that the rules bound stay within their sizes at every step: at most 16
measurements (R19) and 3 pending entries (R20), the run-up count within 16 (R16), return-watch, return-miss and absence counts
within 255 (R13, R17, R18), and the miss count within 65,535 (R23). The list of waiting t_f is left out: the rules do not
bound it, log 57. -/
def Obligations.EveryStepKeepsTheLineUnitBounded : Prop :=
  ∀ s t : State, s.flu.Bounded → step s = .next t → t.flu.Bounded

/-! ### Numbers the rules give -/

/-- A read of memory after the write of a word: the enabled bytes are the word's, every other byte is as before (R26). -/
def Obligations.MemoryReadsBackWhatWasWritten : Prop :=
  ∀ (m : List Host.Cell) (wa : Nat) (v : Word) (be : BitVec 4) (a : Nat),
    Memory.wf m = true → wa < 2 ^ 24 → a < Memory.size →
      Memory.wf (Memory.setWord m wa v be) = true ∧
      Memory.byte (Memory.setWord m wa v be) a =
        if a / 4 = wa ∧ be.getLsbD (a % 4) = true then wordByte v (a % 4) else Memory.byte m a

/-- A block that a transmitter closes with its check is good at a receiver, and yields its bytes (R5). -/
def Obligations.SealedBlocksAreGood : Prop :=
  ∀ bs : List Byte, goodBytes (bs.length + 2) (sealed bs) = some (bs ++ crcBytes (crc16 bs))

/-- The stop ramp that class B or C starts, class B over a class C ramp too, and its length n_stop (R49, R54), with the two
consequences R54 draws. -/
def Obligations.StopLengthFollowsTheReferenceStop : Prop :=
  ∀ (c : NodeCfg) (v : Nat) (cls : TripClass), 1 ≤ c.vref → cls = .b ∨ cls = .c →
    let T := if cls = .b then c.tqs else c.tcs
    (∀ g : Gen, g.speed = v → 0 < v → g.state = .ramping ∨ g.state = .running ∨ g.state = .held →
      g.react c cls = { g with
        state := .stopping, ramp := some { v0 := v, vt := 0, n := stopLength c v cls, k := 0, cls := cls } }) ∧
    (∀ (g : Gen) (r : Ramp), g.speed = v → g.state = .stopping → g.ramp = some r → r.cls = .c → cls = .b →
      g.react c cls = { g with
        state := .stopping, ramp := some { v0 := v, vt := 0, n := stopLength c v cls, k := 0, cls := cls } }) ∧
    (∀ n, v * T ≤ n * c.vref → 1 ≤ n → n ≤ 65535 → stopLength c v cls ≤ n) ∧
    (stopLength c v cls < 65535 → v * T ≤ stopLength c v cls * c.vref) ∧
    1 ≤ stopLength c v cls ∧ stopLength c v cls ≤ 65535 ∧
    (1 ≤ T → T ≤ 65535 → stopLength c c.vref cls = T) ∧
    (1 ≤ T → T ≤ 65535 → 2 ∣ c.vref → stopLength c (c.vref / 2) cls = (T + 1) / 2)

/-- The speed step of an epoch (R53). -/
def Obligations.SpeedStepFollowsTheRamp : Prop :=
  (∀ (g : Gen) (r : Ramp), g.ramp = some r → r.k < r.n → g.state = .ramping ∨ g.state = .stopping →
    let k := r.k + 1
    let v : Int := r.v0 + (if r.v0 ≤ r.vt then 1 else -1) * (((r.vt - r.v0 : Int).natAbs * k / r.n : Nat) : Int)
    (g.stepSpeed.speed : Int) = v ∧ min r.v0 r.vt ≤ g.stepSpeed.speed ∧ g.stepSpeed.speed ≤ max r.v0 r.vt ∧
    (∀ vmax, r.v0 ≤ vmax → r.vt ≤ vmax → g.stepSpeed.speed ≤ vmax) ∧
    (k = r.n → g.stepSpeed.speed = r.vt) ∧
    (g.state = .ramping → g.stepSpeed.ramp = some { r with k := k } ∧
      g.stepSpeed.state = if k = r.n then (if r.vt = 0 then .standstill else .running) else .ramping) ∧
    (g.state = .stopping → g.stepSpeed.ramp = (if v = 0 then none else some { r with k := k }) ∧
      g.stepSpeed.state = if v = 0 then .standstill else .stopping)) ∧
  ∀ g : Gen, (g.state = .running ∨ g.state = .held → g.stepSpeed = g) ∧
    (g.state = .standstill ∨ g.state = .coasted → g.stepSpeed = { g with speed := 0 })

/-- The integration of an epoch (R55); at the master it follows the trip reaction, the command and the speed step (R48). -/
def Obligations.IntegrationAdvancesTheAngle : Prop :=
  (∀ g : Gen, g.speed < 2 ^ 32 →
    g.integrate.angle.toNat = (g.angle.toNat + g.speed) % 2 ^ 32 ∧
    g.integrate.rev = (if 2 ^ 32 ≤ g.angle.toNat + g.speed then g.rev + 1 else g.rev) ∧
    g.integrate.speed = g.speed ∧ g.integrate.state = g.state ∧ g.integrate.ramp = g.ramp) ∧
  ∀ s : State, s.isMaster = true → ∃ g : Gen, s.generatorEpoch.1.lsu.gen = g.stepSpeed.integrate ∧
    (s.ptu.shaftPending = false → g = s.lsu.gen.react s.cfg s.tru.acting)

/-- The gear step: an engaged axis advances by floor((r + ΔA · N) / D) and keeps the remainder, so that over the step
q · D + r' = r + ΔA · N exactly (R73). -/
def Obligations.GearStepIsExact : Prop :=
  ∀ (a : Axis) (dA : Int), a.state = .engaged → 0 < a.d →
    (a.gearStep dA).q * a.d + (a.gearStep dA).r = a.r + dA * a.n ∧ (a.gearStep dA).r < a.d ∧
    (a.gearStep dA).theta = a.theta + BitVec.ofInt 32 (a.gearStep dA).q ∧
    (a.gearStep dA).state = a.state ∧ (a.gearStep dA).n = a.n ∧ (a.gearStep dA).d = a.d

/-- The class a node acts on is the most severe of its latched sources and of the other positions' marks, in the order
A, B, C, D (R88, R94): no latched source and no mark has a more severe class, and a class other than CLEAR is that of a
latched source or of a mark. Recomputed, it stands. -/
def Obligations.ActingClassIsTheMostSevere : Prop :=
  ∀ s : State, s.recompute.tru.acting = s.localClass.worst s.remoteClass ∧
    (∀ n : Fin 15, (s.tru.latch[n]).isSome = true → (s.sourceClass n).severity ≤ s.recompute.tru.acting.severity) ∧
    (∀ (c : TripClass) (p : Fin 32), s.OthersMark c p → c.severity ≤ s.recompute.tru.acting.severity) ∧
    (s.recompute.tru.acting ≠ .clear →
      (∃ n : Fin 15, (s.tru.latch[n]).isSome = true ∧ s.sourceClass n = s.recompute.tru.acting) ∨
      ∃ p : Fin 32, s.OthersMark s.recompute.tru.acting p) ∧
    s.recompute.recompute = s.recompute ∧ s.recompute.tru.latch = s.tru.latch ∧
    s.recompute.tru.remote = s.tru.remote ∧ OnlyTouches [.tru, .cmu, .flags] s s.recompute

/-! ### Configuration and start-up (section 11) -/

/-- Pin reset puts every block at its pin-reset values, the phase at 0 and the row lines inactive, and keeps time, the queue,
memory and the levels at the pins (R24, R46, R186, R187). The reset values the manual does not give are the model's, log 9. -/
def Obligations.PinResetRestoresEveryBlock : Prop :=
  ∀ (dt : Nat) (s : State), ∃ t, exec (.pinReset dt) s = .next t ∧
    t.now = s.now + dt ∧ t.cfg = State.reset.cfg ∧ t.flu = State.reset.flu ∧ t.lsu = State.reset.lsu ∧
    t.axu = State.reset.axu ∧ t.tru = { State.reset.tru with tiLevel := s.tru.tiLevel } ∧ t.slu = State.reset.slu ∧
    t.cls = State.reset.cls ∧
    (∀ i : Fin 4, t.cmu.ch[i] = { State.reset.cmu.ch[i] with expLevel := s.cmu.ch[i].expLevel }) ∧
    t.igu = State.reset.igu ∧ t.scu = State.reset.scu ∧ t.ksc = State.reset.ksc ∧ t.cnu = State.reset.cnu ∧
    t.ptu = State.reset.ptu ∧ t.lde = State.reset.lde ∧ t.phase = 0 ∧ t.rowLines = 0 ∧
    OnlyTouches [.now, .cfg, .flu, .lsu, .axu, .tru, .slu, .cls, .cmu, .igu, .scu, .ksc, .cnu, .flags, .ptu, .shadow,
      .lde] s t

/-- The flash header is judged: identifier, then length; the first failing check ends the load with its reason and flag
14 (R188, R191). -/
def Obligations.FlashHeaderIsJudgedInOrder : Prop :=
  ∀ (dt : Nat) (bytes : List Byte) (s : State), s.Served → bytes.length = 12 → s.cnu.status = .loading →
    s.cnu.flash = none → ∃ t, exec (.flashHeaderRead dt bytes) s = .next t ∧
      t.now = s.now + dt ∧
      t.cnu.flash = some { ident := BitVec.ofNat 32 (field bytes 0 4), length := BitVec.ofNat 32 (field bytes 4 4),
                           crc := BitVec.ofNat 32 (field bytes 8 4) } ∧
      (let bad := BitVec.ofNat 32 (field bytes 0 4) ≠ 0x53580240#32
       let long := (BitVec.ofNat 32 (field bytes 4 4)).toNat < 64 ∨ 32768 < (BitVec.ofNat 32 (field bytes 4 4)).toNat
       t.cnu.status = (if bad then .noImage else if long then .header else .loading) ∧
       t.cnu.flags = (if bad ∨ long then withFlags s.cnu.flags [14] else s.cnu.flags)) ∧
      OnlyTouches [.now, .cnu, .flags] s t

/-- The flash body: a bad CRC or a failing check of its contents ends the load unconfigured with the reason and flag 14;
with every check passed the node is configured, its values are taken and its blocks take their configured state: axes
(R66), trip latch, source 10 and press trip state (R109), publish states (R126), camera channels (R150) and the scan of
the keys (R179, R186) among them (R188 to R191). The reason of a body too short for its tables, and what an OFF axis
holds as its source, are the model's choices, logs 25 and 47. -/
def Obligations.FlashBodyConfiguresOrIsRejected : Prop :=
  ∀ (dt : Nat) (bytes : List Byte) (s : State) (h : FlashHeader), s.Served → 64 ≤ bytes.length →
    bytes.length ≤ 32768 → s.cnu.status = .loading → s.cnu.flash = some h → bytes.length = h.length.toNat →
    ∃ t, exec (.flashBodyRead dt bytes) s = .next t ∧ t.now = s.now + dt ∧
      t.cnu.flags.getLsbD 14 = true ∧ t.cnu.fcs = false ∧
      (∀ r : ConfigStatus, (crc32 bytes ≠ h.crc ∧ r = .crc) ∨ (crc32 bytes = h.crc ∧ judgeBody bytes = .inl r) →
        t.cnu.status = r ∧ t.cnu.flags = withFlags s.cnu.flags [14] ∧ OnlyTouches [.now, .cnu, .flags] s t) ∧
      (∀ c : NodeCfg, crc32 bytes = h.crc → judgeBody bytes = .inr c →
        t.cnu.status = .configured ∧ t.cfg = c ∧ t.lsu = State.reset.lsu ∧ t.igu = State.reset.igu ∧
        t.flu.ring = (if c.master then .joined else .seeking) ∧
        t.flu.position = (if c.master then some 0 else none) ∧ t.flu.returnWatch = 2 ∧ t.flu.interval = 31250 ∧
        t.flu.expected = s.now + dt + 31250 ∧ t.flu.up = s.flu.up ∧ t.flu.down = s.flu.down ∧
        (∀ n : Fin 128, t.slu.publish[n] = if c.publish.getLsbD n.val then .silent else .unused) ∧
        (∀ n : Fin 8, t.axu.axes[n] =
          if c.axes[n].configured = true ∧ (c.only .axis).isSome = true then
            { Axis.reset with
              state := .idle, source := c.axes[n].source, n := c.axes[n].n, d := c.axes[n].d, lslew := c.axes[n].lslew,
              limit := c.axes[n].limit, ref := if c.axes[n].source = .shaft then some 0 else none }
          else Axis.reset) ∧
        (∀ n : Fin 128, t.axu.fresh[n] = none) ∧
        t.tru.latch[(10 : Fin 15)] = (if c.classes[(10 : Fin 15)] = .clear then none else s.tru.latch[(10 : Fin 15)]) ∧
        t.tru.cond[(10 : Fin 15)] = !c.master ∧ t.tru.press = (if c.master then .tripped else .notApplicable) ∧
        (∀ i : Fin 4, t.cmu.ch[i] =
          { Channel.reset with expLevel := s.cmu.ch[i].expLevel, seek := (c.cams[i]).isSome }) ∧
        t.ksc = { Ksc.reset with nextRead := s.now + dt + 125000 } ∧
        t.rowLines = (if c.keys.isSome then 1 else 0) ∧ t.phase = 0 ∧
        OnlyTouches [.now, .cfg, .flu, .lsu, .axu, .tru, .slu, .cls, .cmu, .igu, .scu, .ksc, .cnu, .flags, .ptu, .lde]
          s t)

/-! ### Receivers and frames (section 1) -/

/-- Every entry of the table of R2: the link state each event leaves, the other port's being unchanged. A frame in reception
on a port that goes DARK ends; the copy that is turned around, and the master's own out-run frame, go on (R1, R13, R15). -/
def Obligations.ReceiverStatesFollowTheTable : Prop :=
  ∀ (dt : Nat) (p q : Port) (s : State), s.Served → q ≠ p →
    ((s.flu.link p).state = .dark → ∃ t, exec (.lightDetected dt p) s = .next t ∧
      t.flu = s.flu.setLink p { state := .locking, since := s.now + dt } ∧ OnlyTouches [.now, .flu, .flags] s t) ∧
    ((s.flu.link p).state = .locking → (s.flu.link p).since + 125000 ≤ s.now + dt →
      ∃ t, exec (.lockIntervalExpiry dt p) s = .next t ∧
        t.flu = s.flu.setLink p { state := .locked, since := (s.flu.link p).since } ∧ OnlyTouches [.now, .flu] s t) ∧
    ((s.flu.link p).state = .locking → ∃ t, exec (.clockOutOfBand dt p) s = .next t ∧
      t.flu = s.flu.setLink p { state := .locking, since := s.now + dt } ∧ OnlyTouches [.now, .flu] s t) ∧
    ((s.flu.link p).state = .locked → ∃ t, exec (.clockOutOfBand dt p) s = .next t ∧
      (t.flu.link p).state = .dark ∧ t.flu.link q = s.flu.link q ∧
      (p = .upstream → s.isMaster = false → t.flu.out.stage = .idle) ∧
      (p = .upstream → s.isMaster = true → t.flu.out = s.flu.out) ∧
      (p = .downstream → t.flu.ret.stage = .idle) ∧ t.flu.copy = s.flu.copy ∧
      OnlyTouches [.now, .flu, .slu, .flags, .ptu, .lde] s t) ∧
    ((s.flu.link p).state = .locking ∨ (s.flu.link p).state = .locked → ∃ t, exec (.lightLost dt p) s = .next t ∧
      (t.flu.link p).state = .dark ∧ t.flu.link q = s.flu.link q ∧
      (p = .upstream → s.isMaster = false → t.flu.out.stage = .idle) ∧
      (p = .upstream → s.isMaster = true → t.flu.out = s.flu.out) ∧
      (p = .downstream → t.flu.ret.stage = .idle) ∧ t.flu.copy = s.flu.copy ∧
      OnlyTouches [.now, .flu, .slu, .flags, .ptu, .lde] s t)

/-- A start symbol on a LOCKED receiver begins a frame whose first header byte comes one tick later; downstream of it
the frame leaves after the residence of 96 ticks, and an end node turns it around; the return frame then in passage is
disregarded from there on (R1, R3, R13). Turning around and
disregarding are decided at the start symbol, the residence is a departure instant, and what is left of the previous
copy leaves upstream and is received before the new frame: the model's choices, logs 13 and 14. -/
def Obligations.StartSymbolBeginsAFrame : Prop :=
  ∀ (dt : Nat) (s : State), s.Served →
    (s.flu.up.state = .locked → s.isMaster = false → ∃ t, exec (.startSymbol dt .upstream) s = .next t ∧
      t.flu.out = Passage.started (s.now + dt + 1) true ∧ t.flu.txDown = TxFrame.started (s.now + dt + 97) ∧
      t.flu.turning = s.isEndNode ∧
      (s.isEndNode = true → t.flu.copy = Passage.started (s.now + dt + 1) true ∧
        t.flu.txUp = TxFrame.started (s.now + dt + 97) ∧ t.flu.ret = { s.flu.ret with used := false }) ∧
      (s.isEndNode = false → t.flu.copy = Passage.idle ∧ t.flu.ret = s.flu.ret ∧
        (s.flu.copy.stage = .idle → t.flu.txUp = s.flu.txUp)) ∧
      t.flu.ring = s.flu.ring ∧ t.flu.position = s.flu.position ∧ t.flu.meas = s.flu.meas ∧
      OnlyTouches [.now, .flu, .axu, .tru, .slu, .cmu, .igu, .scu, .ksc, .flags, .ptu, .lde] s t) ∧
    (s.flu.down.state = .locked → s.isMember = true → s.isEndNode = false → s.flu.turning = false →
      ∃ t, exec (.startSymbol dt .downstream) s = .next t ∧
        t.flu.ret = Passage.started (s.now + dt + 1) true ∧ t.flu.txUp = TxFrame.started (s.now + dt + 97) ∧
        t.flu.out = s.flu.out ∧ t.flu.txDown = s.flu.txDown ∧ t.flu.meas = s.flu.meas ∧
        OnlyTouches [.now, .flu, .slu, .flags, .ptu, .lde] s t)

/-- A good out-run header at a member: the hop count leaves one higher (255 stays 255) with a fresh check, the passage is good
with the header's kind and cycle, its L and t_f are kept, and an entry with its apply instant and the resync mark as it is
armed joins the pending list; SEEKING passes to FOLLOWING with the counted position, FOLLOWING takes the counted position,
with the measurements emptied where it changed, and a JOINED node whose fixed position differs leaves for SEEKING (R8, R9,
R11, R19, R20). A RUN header that ends with the node JOINED starts a claim passage with its passage counts at zero (R128); at
any other header the counts keep what they hold. With three entries pending, the oldest makes an epoch before the new one is
placed, and the armed mark goes with it (R20, R21). A bad header is a missed frame: it is forwarded unchanged, and nothing is
taken from it (R6); so is any header at a repeater (R4). Which mark an entry holds, that an end node measures at the header,
that a t_f is kept until its return, that the first position after SEEKING empties the measurements, that the mismatch of a
position above 31 ends at one that fits, that the header's unassigned bytes stay as received, that the oldest entry is taken
after the work on the ring state, and what the passage counts hold outside a claim passage are the model's choices, logs 18, 11,
57, 38, 67, 73, 77 and 83. -/
def Obligations.GoodOutRunHeaderIsTaken : Prop :=
  ∀ (dt : Nat) (b : Block) (s : State), b.length ≤ 32 → s.flu.out.stage = .header →
    (∀ bs, goodBytes 32 b = some bs → s.isMember = true → s.flu.entries.length < 3 →
      let h := parseHeader bs
      ∃ t, exec (.outRunHeader dt b) s = .next t ∧ t.now = s.now + dt ∧
        t.flu.txDown = { s.flu.txDown with header := withHop bs (if h.hop = 255 then 255 else h.hop + 1) } ∧
        t.flu.out = { s.flu.out with stage := .trip, good := true, run := h.run, cycle := h.cycle } ∧
        t.flu.copy = (if s.flu.turning then { s.flu.copy with good := true, run := h.run, cycle := h.cycle }
          else s.flu.copy) ∧
        t.flu.tf = (if s.flu.turning then s.flu.tf
          else (s.flu.tf.filter fun p => decide (p.1 ≠ h.cycle)) ++ [(h.cycle, s.flu.out.start)]) ∧
        t.flu.lastL = BitVec.ofNat 32 h.l ∧ t.flu.dk = t.flu.delay h.l ∧
        t.flu.entries = s.flu.entries ++ [entryOf h s.flu.out.start t.flu.dk t.flu.resyncArmed] ∧
        (s.flu.ring = .seeking → t.flu.ring = .following ∧ t.flu.position = some (h.hop + 1) ∧
          t.flu.mismatch = !s.positionFits (h.hop + 1)) ∧
        (s.flu.ring = .following → t.flu.position = some (h.hop + 1) ∧ t.flu.mismatch = !s.positionFits (h.hop + 1) ∧
          t.flu.ring = (if t.flu.meas.length = 16 ∧ s.positionFits (h.hop + 1) = true then .joined else .following)) ∧
        (s.flu.ring ≠ .joined →
          let kept := if s.flu.position = some (h.hop + 1) then s.flu.meas else []
          t.flu.meas = if s.flu.turning then addMeas kept 96 else kept) ∧
        (s.flu.ring = .joined → s.flu.position = some (h.hop + 1) → t.flu.ring = .joined ∧
          t.flu.position = s.flu.position ∧
          t.flu.meas = if s.flu.turning then addMeas s.flu.meas 96 else s.flu.meas) ∧
        (s.flu.ring = .joined → s.flu.position ≠ some (h.hop + 1) → t.flu.ring = .seeking ∧ t.flu.position = none ∧
          t.flu.meas = (if s.flu.turning then [96] else []) ∧ t.flu.changed = true ∧ t.flu.resyncArmed = true ∧ t.cnu.flags.getLsbD 1 = true ∧
          t.igu.tx = [] ∧ t.tru.cond[(10 : Fin 15)] = true) ∧
        (t.flu.ring = .joined → h.run = true →
          t.cls.claimed = 0 ∧ t.cls.messageSent = false ∧ t.cls.reserveTiles = 0) ∧
        (t.flu.ring ≠ .joined ∨ h.run = false → t.cls.claimed = s.cls.claimed ∧
          t.cls.messageSent = s.cls.messageSent ∧ t.cls.reserveTiles = s.cls.reserveTiles) ∧
        OnlyTouches [.now, .flu, .tru, .cls, .cmu, .igu, .scu, .flags, .ptu, .lde] s t) ∧
    (∀ bs e0 e1 e2, goodBytes 32 b = some bs → s.isMember = true → s.flu.entries = [e0, e1, e2] →
      e0.cycle ≠ s.flu.cycle → s.now + dt < e1.instant →
      let h := parseHeader bs
      ∃ t, exec (.outRunHeader dt b) s = .next t ∧ t.flu.cycle = e0.cycle ∧ t.flu.epochAt = s.now + dt ∧ t.flu.miss = 0 ∧
        t.flu.applyLate = e0.late ∧ t.lsu.shadow.angle = e0.shaft.angle ∧ t.flu.resyncArmed = false ∧
        t.lsu.shadow.resync = (s.flu.resyncArmed || decide (s.flu.ring = .joined ∧ s.flu.position ≠ some (h.hop + 1))) ∧
        t.flu.entries = [e1, e2, entryOf h s.flu.out.start t.flu.dk false] ∧
        t.flu.out = { s.flu.out with stage := .trip, good := true, run := h.run, cycle := h.cycle } ∧
        t.flu.txDown = { s.flu.txDown with header := withHop bs (if h.hop = 255 then 255 else h.hop + 1) } ∧
        OnlyTouches (.cls :: epochParts) s t) ∧
    (goodBytes 32 b = none ∨ s.isMember = false → s.Served →
      ∃ t, exec (.outRunHeader dt b) s = .next t ∧
        t.flu = { s.flu with out := { s.flu.out with stage := .trip }, txDown := { s.flu.txDown with header := b } } ∧
        OnlyTouches [.now, .flu] s t)

/-- The header that finds a FOLLOWING member with 16 measurements and its position as expected takes it to JOINED (R9): the
position stays, the mismatch flag clears, flag 1 is set, the condition of source 10 ends, every tile of the outgoing screens
is dirty, or its fetch was issued at once, and each incoming screen has its refresh request (R172, R175, R178). That this
header is the first to find them held, and that its unassigned bytes stay as received, are the model's choices, logs 11 and
73. -/
def Obligations.SixteenMeasurementsJoinTheLine : Prop :=
  ∀ (dt : Nat) (b : Block) (bs : List Byte) (s : State), b.length ≤ 32 → s.isMember = true →
    s.flu.out.stage = .header → goodBytes 32 b = some bs → s.flu.entries.length < 3 → s.flu.ring = .following →
    s.flu.position = some ((parseHeader bs).hop + 1) → s.positionFits ((parseHeader bs).hop + 1) = true →
    s.flu.meas.length = 16 →
    ∃ t, exec (.entryIntoJoined dt b) s = .next t ∧ t.flu.ring = .joined ∧ t.flu.position = s.flu.position ∧
      t.flu.mismatch = false ∧ t.cnu.flags.getLsbD 1 = true ∧ t.tru.cond[(10 : Fin 15)] = false ∧
      (∀ i : Fin 2, (s.cfg.screenIn i).isSome = true → i ∈ t.cls.requests) ∧
      (∀ (i : Fin 2) (v : Window) (p : ScreenParams) (u : Nat), s.cfg.screenOut i = some (v, p) → u < p.tiles → u < 8192 →
        t.scu.out[i].dirty.getLsbD u = true ∨ (i, u) ∈ t.scu.inFlight) ∧
      t.flu.txDown = { s.flu.txDown with
        header := withHop bs (if (parseHeader bs).hop = 255 then 255 else (parseHeader bs).hop + 1) } ∧
      OnlyTouches [.now, .flu, .tru, .cls, .cmu, .scu, .flags, .ptu, .lde] s t

/-- In an insertion passage every LIVE slot whose tag arrived clear is inserted with the committed image and the node's
check, every other slot passes as it arrived, and a LIVE slot whose tag arrived set enters the conflict set; the tag block
leaves with the tags of the inserted slots set as well and a good check, unchanged where none is inserted (R113 to
R115). Decision and slot area are one step, and the ring state is judged at it: the model's choices, logs 15 and 81. -/
def Obligations.LiveSlotsAreInserted : Prop :=
  ∀ (dt : Nat) (tags : Block) (bs : List Byte) (slots : List Block) (s : State),
    (Instr.insertionDecision dt tags slots).wf = true → s.sends = true → s.flu.out.stage = .tags →
    goodBytes 18 tags = some bs → slots.length = 128 →
    ∃ t, exec (.insertionDecision dt tags slots) s = .next t ∧
      (∀ n : Fin 128, t.flu.txDown.slots[n.val]? =
        (slots[n.val]?).map fun b =>
          if s.slu.publish[n] = .live ∧ tagBit bs n = false then
            (buildSlot s.ownPosition s.slu.committed[n]).take b.length else b) ∧
      (∀ n : Fin 128, t.slu.conflicts.getLsbD n.val =
        (s.slu.conflicts.getLsbD n.val || (decide (s.slu.publish[n] = .live) && tagBit bs n))) ∧
      (∃ bs1, goodBytes 18 t.flu.txDown.tags = some bs1 ∧
        ∀ n : Fin 128, tagBit bs1 n = (tagBit bs n || decide (s.slu.publish[n] = .live))) ∧
      ((∀ n : Fin 128, s.slu.publish[n] = .live → tagBit bs n = true) → t.flu.txDown.tags = tags) ∧
      t.slu.publish = s.slu.publish ∧ t.slu.committed = s.slu.committed ∧ t.slu.entries = s.slu.entries ∧
      t.flu.out = { s.flu.out with stage := .cells, next := 0 } ∧ t.flu.txDown.header = s.flu.txDown.header ∧
      t.flu.txDown.trip = s.flu.txDown.trip ∧ t.flu.txDown.cells = s.flu.txDown.cells ∧
      ((∃ n : Fin 128, s.slu.publish[n] = .live ∧ tagBit bs n = true) → t.cnu.flags.getLsbD 3 = true) ∧
      OnlyTouches [.now, .flu, .tru, .slu, .cmu, .flags, .ptu, .lde] s t

/-- A cell of a claim passage whose header reads EMPTY is replaced by the next item of the fill order while the allowance
lasts; every other cell passes as it arrived (R129). At the master every cell is EMPTY before its decision (R15). The fill
order: at most one entry of the message list in a passage, KEYS before the refresh requests in order of entry; a tile while
the screen reserve lasts; the oldest fragment; the oldest tile (R130, R131). That a kind byte that is an invalid symbol does
not read EMPTY, and that the ring state is judged at each cell, are the model's choices, logs 65 and 81. -/
def Obligations.EmptyCellsAreClaimed : Prop :=
  (∀ (dt : Nat) (b : Block) (s : State), b.length ≤ 274 → s.flu.out.stage = .cells → s.flu.out.next < 96 →
    let c := if s.isMaster then emptyCell else b
    ∃ t, exec (.cellDecision dt b) s = .next t ∧
      t.flu.out = { s.flu.out with next := s.flu.out.next + 1 } ∧
      (∀ r, s.sends = true → readsEmpty c = true → s.cls.claimed < s.cfg.allowance → (s.elapse dt).nextItem = some r →
        t.flu.txDown.cells = s.flu.txDown.cells ++ [(buildCell r.2).take c.length] ∧
        t.cls = { r.1.cls with claimed := r.1.cls.claimed + 1 } ∧ t.ksc = r.1.ksc ∧ t.igu = r.1.igu ∧ t.scu = r.1.scu) ∧
      (s.sends = false ∨ readsEmpty c = false ∨ s.cfg.allowance ≤ s.cls.claimed ∨ (s.elapse dt).nextItem = none →
        t.flu.txDown.cells = s.flu.txDown.cells ++ [c] ∧ t.cls = s.cls ∧ t.ksc = s.ksc ∧ t.igu = s.igu ∧
        t.scu = s.scu) ∧
      OnlyTouches [.now, .flu, .cls, .igu, .scu, .ksc, .flags, .ptu, .lde] s t) ∧
  ∀ s : State,
    (∀ k, s.cls.messageSent = false → s.ksc.queue ≠ [] → s.cfg.keys = some k →
      s.nextItem = some ({ s with cls := { s.cls with messageSent := true },
                                  ksc := { s.ksc with queue := [], overflow := false } }, s.keysCell k)) ∧
    (∀ i rest w p, s.cls.messageSent = false → s.ksc.queue = [] → s.cls.requests = i :: rest →
      s.cfg.screenIn i = some (w, p) →
      s.nextItem = some ({ s with cls := { s.cls with messageSent := true, requests := rest } }, s.requestCell p)) ∧
    (s.cls.messageSent = true ∨ s.ksc.queue = [] ∧ s.cls.requests = [] →
      (∀ x rest, s.scu.buffer = x :: rest → s.cls.reserveTiles < s.cfg.reserve →
        ∃ u, s.nextItem = some (u, s.tileCell x) ∧ u.scu.buffer = rest ∧
          u.cls = { s.cls with reserveTiles := s.cls.reserveTiles + 1 } ∧ OnlyTouches [.cls, .scu, .flags, .lde] s u) ∧
      (∀ f rest, s.scu.buffer = [] ∨ s.cfg.reserve ≤ s.cls.reserveTiles → s.igu.tx = f :: rest →
        s.nextItem = some ({ s with igu := { s.igu with tx := rest } }, s.fragmentCell f)) ∧
      (∀ x rest, s.scu.buffer = x :: rest → s.cfg.reserve ≤ s.cls.reserveTiles → s.igu.tx = [] →
        ∃ u, s.nextItem = some (u, s.tileCell x) ∧ u.scu.buffer = rest ∧ OnlyTouches [.scu, .flags, .lde] s u) ∧
      (s.scu.buffer = [] → s.igu.tx = [] → s.nextItem = none))

/-- The end of a claim passage, at a member and at the master: the frame is over, and flag 12 is set when an item is left
that the allowance still allowed (R133). That the ring state is judged there is the model's choice, log 81. -/
def Obligations.ClaimPassageEndReportsStarvation : Prop :=
  ∀ (dt : Nat) (s : State), s.Served → s.flu.out.stage = .cells → s.flu.out.next = 96 →
    ∃ t, exec (.claimPassageEnd dt) s = .next t ∧ t.flu = { s.flu with out := Passage.idle } ∧
      t.cnu.flags = (if s.sends = true ∧ s.cls.claimed < s.cfg.allowance ∧ (s.elapse dt).nextItem.isSome = true
        then withFlags s.cnu.flags [12] else s.cnu.flags) ∧
      OnlyTouches [.now, .flu, .flags] s t

/-- A good return header. At a member the return-watch count is 0, and so the end-node condition holds only where the
downstream receiver is DARK (R13, R14); one that the member uses is forwarded as received, and the round trip of its cycle
joins the measurements once, where a t_f of that cycle waits for it (R19). At the master the first one of the current cycle
gives the round trip L, from the origination to the arrival of its first byte (R17), and every other is unmatched. A repeater
only forwards it, and does not know it as good (R4; of a frame in passage at completion, log 78). That the master matches the
first such header when its check is known, and that a t_f waits for its return, in SEEKING too, are the model's choices, logs
17, 38 and 57. -/
def Obligations.GoodReturnHeaderMeasuresTheRoundTrip : Prop :=
  ∀ (dt : Nat) (b : Block) (bs : List Byte) (s : State), s.Served → b.length ≤ 32 → s.flu.ret.stage = .header →
    goodBytes 32 b = some bs →
    let h := parseHeader bs
    let ret : Passage := { s.flu.ret with stage := .trip, good := true, run := h.run, cycle := h.cycle }
    (s.isMember = true →
      ∃ t, exec (.returnHeader dt (.arrived b)) s = .next t ∧
        t.isEndNode = decide (s.flu.down.state = .dark) ∧
        t.cnu.flags = (if s.isEndNode = decide (s.flu.down.state = .dark) then s.cnu.flags
          else withFlags s.cnu.flags [1]) ∧
        (s.flu.ret.used = false →
          t.flu = { s.flu with returnWatch := 0, goodReturn := true, ret := ret }) ∧
        (s.flu.ret.used = true →
          let got := { s.flu with
            txUp := { s.flu.txUp with header := b }, returnWatch := 0, goodReturn := true, ret := ret }
          (s.flu.tf.find? (fun p => decide (p.1 = h.cycle)) = none → t.flu = got) ∧
          (∀ tf, s.flu.tf.find? (fun p => decide (p.1 = h.cycle)) = some (h.cycle, tf) →
            t.flu = { got with
              tf := s.flu.tf.filter fun p => decide (p.1 ≠ h.cycle),
              meas := (if 16 ≤ s.flu.meas.length then s.flu.meas.drop 1 else s.flu.meas) ++
                [s.flu.ret.start + 96 - tf] })) ∧
        OnlyTouches [.now, .flu, .flags] s t) ∧
    (s.isMaster = true →
      ∃ t, exec (.returnHeader dt (.arrived b)) s = .next t ∧
        (h.cycle = s.flu.origCount → s.flu.originated = true → s.flu.returnSeen = false →
          t.flu = { s.flu with
            lastL := BitVec.ofNat 32 (s.flu.ret.start - s.flu.originAt), returnSeen := true,
            ret := { ret with isMatched := true } }) ∧
        (h.cycle ≠ s.flu.origCount ∨ s.flu.originated = false ∨ s.flu.returnSeen = true →
          t.flu = { s.flu with ret := ret }) ∧
        OnlyTouches [.now, .flu] s t) ∧
    (s.isMember = false → s.isMaster = false →
      ∃ t, exec (.returnHeader dt (.arrived b)) s = .next t ∧
        t.flu = { s.flu with
          ret := { s.flu.ret with stage := .trip },
          txUp := if s.flu.ret.used then { s.flu.txUp with header := b } else s.flu.txUp } ∧
        OnlyTouches [.now, .flu] s t)

/-- A return trip block. A good one at a member that uses the frame: its first-fault record becomes the press first-fault
record, and a JOINED node's own marks are in the block that goes upstream (R99). A changed block is rebuilt from its fields,
log 41. At the master a good one of the matched frame is relayed, and gives the press first-fault record and the press trip
state (R96, R99, R106); in SETUP it counts the run-up, up to 16, or resets it (R16), and in RUN it counts the absences, which
make the condition of source 14 present or absent (R18); a bad one resets the run-up in SETUP, and an unmatched frame's does
nothing. While a reset is pending no return carries its generation, and source 14 is handed over here: the model's choices,
logs 22 and 54. -/
def Obligations.ReturnTripBlockCarriesTheFirstFault : Prop :=
  ∀ (dt : Nat) (b : Block) (s : State), b.length ≤ 32 → s.flu.ret.stage = .trip →
    let ret : Passage := { s.flu.ret with stage := .slots, next := 0 }
    (∀ bs, s.isMember = true → s.flu.ret.used = true → goodBytes 32 b = some bs →
      let f := parseTrip bs
      ∃ t, exec (.returnTripBlock dt (.arrived b)) s = .next t ∧ t.tru = { s.tru with pressFault := f.fault } ∧
        t.flu = { s.flu with
          ret := ret,
          txUp := { s.flu.txUp with
            trip := passTrip b f (if s.isJoined then { f with masks := s.markOwn f.masks } else f) } } ∧
        OnlyTouches [.now, .flu, .tru, .flags, .ptu, .lde] s t) ∧
    (∀ bs, s.isMaster = true → s.flu.ret.isMatched = true → goodBytes 32 b = some bs →
      let f := parseTrip bs
      let ready := f.presence &&& s.cfg.required = s.cfg.required ∧ f.ready &&& s.cfg.required = s.cfg.required
      ∃ t, exec (.returnTripBlock dt (.arrived b)) s = .next t ∧
        t.tru.relay = some { masks := f.masks, presence := f.presence, fault := f.fault } ∧
        t.tru.pressFault = f.fault ∧
        t.tru.press = (match s.tru.press with
          | .resetting =>
            if s.tru.resetPending = true ∨ f.gen ≠ s.tru.known then .resetting
            else if f.masks = ClassMasks.empty then .clear else .tripped
          | .clear => if f.masks = ClassMasks.empty then .clear else .tripped
          | .tripped => .tripped
          | .notApplicable => .notApplicable) ∧
        (s.flu.mstate = .setup →
          t.flu.runUp = (if ready then min 16 (s.flu.runUp + 1) else 0) ∧
          t.flu.mstate = (if ready ∧ 15 ≤ s.flu.runUp then .run else .setup) ∧
          (s.flu.runUp < 15 → t.flu.absence = s.flu.absence) ∧ t.tru.latch = s.tru.latch ∧ t.tru.cond = s.tru.cond) ∧
        (s.flu.mstate = .run → t.flu.mstate = .run ∧ t.flu.runUp = s.flu.runUp ∧
          (∀ q : Fin 32, t.flu.absence[q] =
            if s.cfg.required.getLsbD q.val = true then
              (if f.presence.getLsbD q.val = true then 0 else min 255 (s.flu.absence[q] + 1))
            else s.flu.absence[q]) ∧
          (t.tru.cond[(14 : Fin 15)] = true ↔
            ∃ q : Fin 32, s.cfg.required.getLsbD q.val = true ∧ s.cfg.lossLimit ≤ t.flu.absence[q]) ∧
          ∀ n : Fin 15, n ≠ 14 → t.tru.latch[n] = s.tru.latch[n] ∧ t.tru.cond[n] = s.tru.cond[n]) ∧
        t.flu.ret = ret ∧ OnlyTouches [.now, .flu, .tru, .cmu, .flags, .ptu, .lde] s t) ∧
    (s.Served → s.isMaster = true → s.flu.ret.isMatched = false ∨ goodBytes 32 b = none →
      ∃ t, exec (.returnTripBlock dt (.arrived b)) s = .next t ∧
        t.flu = { s.flu with
          ret := ret, runUp := if s.flu.ret.isMatched = true ∧ s.flu.mstate = .setup then 0 else s.flu.runUp } ∧
        OnlyTouches [.now, .flu] s t)

/-- The matched return trip block that brings the run-up count to 16, both masks holding every required position, takes
the master from SETUP to RUN with flag 1 and absence counts 0 (R16, R18). That the row is the whole event is the model's
choice, log 4. -/
def Obligations.SixteenReadyReturnsPassToRun : Prop :=
  ∀ (dt : Nat) (b : Block) (bs : List Byte) (s : State), b.length ≤ 32 → s.isMaster = true → s.flu.mstate = .setup →
    s.flu.ret.stage = .trip → s.flu.ret.good = true → s.flu.ret.isMatched = true → goodBytes 32 b = some bs →
    (parseTrip bs).presence &&& s.cfg.required = s.cfg.required →
    (parseTrip bs).ready &&& s.cfg.required = s.cfg.required → s.flu.runUp = 15 →
    ∃ t, exec (.passageToRun dt b) s = .next t ∧ t.flu.mstate = .run ∧ t.flu.runUp = 16 ∧
      (∀ p : Fin 32, t.flu.absence[p] = 0) ∧ t.cnu.flags.getLsbD 1 = true ∧
      t.tru.relay = some { masks := (parseTrip bs).masks, presence := (parseTrip bs).presence,
                           fault := (parseTrip bs).fault } ∧
      t.tru.pressFault = (parseTrip bs).fault ∧
      OnlyTouches [.now, .flu, .tru, .flags, .ptu, .lde] s t

/-- In RUN a matched return trip block sets the absence count of every required position whose presence bit it holds to
0 and counts the others; a count that reaches ring_loss_limit is the node-missing condition of source 14 (R18), whose stamp
has phase 0 (R91). That the row is the whole event, and that the condition is handed over at the trip block and not at the
next origination, are the model's choices, logs 4 and 54. -/
def Obligations.MissingNodesAreCounted : Prop :=
  ∀ (dt : Nat) (b : Block) (bs : List Byte) (p : Fin 32) (s : State), b.length ≤ 32 → s.isMaster = true →
    s.flu.mstate = .run → s.flu.ret.stage = .trip → s.flu.ret.good = true → s.flu.ret.isMatched = true →
    goodBytes 32 b = some bs → s.cfg.required.getLsbD p.val = true → (parseTrip bs).presence.getLsbD p.val = false →
    s.flu.absence[p] + 1 = s.cfg.lossLimit → s.cfg.lossLimit ≤ 15 →
    ∃ t, exec (.nodeMissing dt b) s = .next t ∧
      (∀ q : Fin 32, t.flu.absence[q] =
        if s.cfg.required.getLsbD q.val = true then
          (if (parseTrip bs).presence.getLsbD q.val = true then 0 else min 255 (s.flu.absence[q] + 1))
        else s.flu.absence[q]) ∧
      t.tru.cond[(14 : Fin 15)] = true ∧
      (s.tru.cond[(14 : Fin 15)] = false → s.cfg.classes[(14 : Fin 15)] ≠ .clear →
        t.tru.latch[(14 : Fin 15)] = (s.tru.latch[(14 : Fin 15)]).or (some { cycle := s.flu.cycle, phase := 0 })) ∧
      OnlyTouches [.now, .flu, .tru, .cmu, .flags, .ptu, .lde] s t

/-- A valid slot of a return passage with its tag set: every entry that names it takes the publisher, a fresh sequence and
age 0, its five words wait for the end of the area, and data word 0 is the slot's fresh value (R70, R120). That the ring state
is judged at the slot is the model's choice, log 81. -/
def Obligations.ValidSlotsAreReceived : Prop :=
  ∀ (dt : Nat) (n : Fin 128) (tags slot : Block) (bs : List Byte) (p : Fin 32) (data : List Byte) (i k : Fin 8) (s : State),
    tags.length ≤ 18 → slot.length ≤ 18 → s.isJoined = true → s.flu.ret.stage = .slots → s.flu.ret.good = true →
    s.flu.ret.used = true → s.flu.ret.next ≤ n.val → goodBytes 18 tags = some bs → tagBit bs n = true →
    slotPublisher slot = some (p, data) → s.cfg.entrySlot i k = some n →
    ∃ t, exec (.slotReception dt n (.arrived tags slot)) s = .next t ∧
      t.slu.entries[i][k] = { seq := s.slu.entries[i][k].seq + 1, age := 0, stale := false, publisher := some p,
                              mark := true } ∧
      t.slu.landing[i][k] = some (imageWords data ++ [t.slu.entries[i][k].status]) ∧
      t.axu.fresh[n] = some (BitVec.ofNat 32 (field data 0 4)) ∧
      (∀ m : Fin 128, m ≠ n → t.axu.fresh[m] = s.axu.fresh[m]) ∧
      (∀ j l : Fin 8, s.cfg.entrySlot j l ≠ some n →
        t.slu.entries[j][l] = s.slu.entries[j][l] ∧ t.slu.landing[j][l] = s.slu.landing[j][l]) ∧
      t.slu.publish = s.slu.publish ∧ t.slu.committed = s.slu.committed ∧ t.axu.axes = s.axu.axes ∧
      OnlyTouches [.now, .flu, .axu, .tru, .slu, .cmu, .flags, .ptu, .lde] s t

/-- The end of the slot area of a used return passage: everything gathered is requested for landing as URGENT entries of
its windows, and the cells come next (R124); at a member tag block and slots leave upstream as they arrived (R3, R13). That
they leave with the end of the area is the model's choice, log 40. -/
def Obligations.SlotAreaEndRequestsTheLandings : Prop :=
  ∀ (dt : Nat) (i k : Fin 8) (w : Window) (es : List (Fin 128)) (lim : Nat) (trip : Bool) (ws : List Word)
    (tags : Block) (slots : List Block) (s : State),
    (Instr.slotAreaEnd dt (.arrived tags slots)).wf = true → s.Quiet → s.flu.ret.stage = .slots →
    s.flu.ret.used = true → s.cfg.slotIn i = some (w, es, lim, trip) → s.slu.landing[i][k] = some ws →
    ∃ t, exec (.slotAreaEnd dt (.arrived tags slots)) s = .next t ∧
      (∃ e ∈ t.lde.urgent, e.src = .slotIn i ∧ ({ addr := w.word + 8 * k.val, words := ws } : Run) ∈ e.runs) ∧
      t.slu.landing[i][k] = none ∧ t.slu.entries = s.slu.entries ∧
      t.flu = { s.flu with
        ret := { s.flu.ret with stage := .cells, next := 0 },
        txUp := if s.isMaster then s.flu.txUp else { s.flu.txUp with tags := tags, slots := slots } } ∧
      OnlyTouches [.now, .flu, .slu, .lde] s t

/-! ### Epochs (sections 1, 3, 4, 5, 6, 8, 9, 10) -/

/-- An epoch made from a pending entry: synchronized time, miss count, apply-late with flag 11, resync mark, interval and next
expected instant (R21, R22); the shadow takes the header's angle, revolution count and state, and its speed up to V_max, the
local ramp ends, and the resync indication is the armed mark, which is disarmed (R21, R58, R63). An entry of the node's own
cycle is discarded with the miss count at 0 (R20). The axes without a command advance by their sources (R69 to R78), and,
where a lost source trips nothing, so do the camera channels (R138 to R145). That the mark armed at the epoch decides, and not
the entry's, and which interval a pulse counts in, are the model's choices, logs 18 and 52. -/
def Obligations.EpochFromAHeader : Prop :=
  ∀ (dt : Nat) (e : PendingEntry) (s : State),
    (s.HeaderEpochDue dt e → ∃ t, exec (.applyInstant dt) s = .next t ∧ t.now = s.now + dt ∧
      (let i := match s.flu.lastHeaderEpoch with
         | some (c, at0) => if e.cycle = c + 1 ∧ 31000 ≤ s.now + dt - at0 ∧ s.now + dt - at0 ≤ 31500 then s.now + dt - at0
             else s.flu.interval
         | none => s.flu.interval
       t.flu = { s.flu with
         entries := [], cycle := e.cycle, epochAt := s.now + dt, miss := 0, applyLate := e.late,
         resyncArmed := false,
         interval := i, lastHeaderEpoch := some (e.cycle, s.now + dt), expected := s.now + dt + i, goodReturn := false,
         returnWatch := if s.flu.goodReturn then s.flu.returnWatch else min 255 (s.flu.returnWatch + 1) }) ∧
      t.phase = 0 ∧ (e.late = true → t.cnu.flags.getLsbD 11 = true) ∧
      t.lsu.shadow = { angle := e.shaft.angle, rev := e.shaft.rev, speed := min e.shaft.speed s.cfg.vmax,
                       state := e.shaft.state, ramp := none, localStop := false,
                       clamped := decide (s.cfg.vmax < e.shaft.speed), resync := s.flu.resyncArmed } ∧
      OnlyTouches epochParts s t) ∧
    (s.HeaderEpochDue dt e → s.StaleTripsNothing → ∃ t, exec (.applyInstant dt) s = .next t ∧
      s.AxesAdvance t s.flu.resyncArmed ∧
      (s.cfg.classes[(11 : Fin 15)] = .clear → s.ChannelsAdvance t s.flu.resyncArmed) ∧
      OnlyTouches epochParts s t) ∧
    (s.Served → s.configured = true → s.flu.entries = [e] → e.instant ≤ s.now + dt → e.cycle = s.flu.cycle →
      ∃ t, exec (.applyInstant dt) s = .next t ∧ t.flu = { s.flu with entries := [], miss := 0 } ∧
        OnlyTouches [.now, .flu] s t)

/-- The expiry of the local cycle timer without an entry: a synthesized epoch one cycle on, the miss count one higher, the
expected instant one interval on, apply-late cleared; with the next cycle's entry pending it only re-arms (R22, R23). The
shadow at such an epoch: under class A it coasts (R61); under B or C it starts a local stop ramp with its first step, anew
where B meets a ramp of class C, or at speed 0 stands still, and a ramp in progress makes its step (R60); without a ramp,
under D or no class, it goes on at its speed (R59). The axes without a command advance by their sources (R69 to R77), and,
where a lost source trips nothing, so do the camera channels (R138 to R145; the interval a pulse counts in is the model's
choice, log 52). -/
def Obligations.TimerMakesASynthesizedEpoch : Prop :=
  ∀ (dt : Nat) (s : State), s.Served →
    (s.SynthesizedEpochDue dt → ∃ t, exec (.localCycleTimerExpiry dt) s = .next t ∧ t.flu.cycle = s.flu.cycle + 1 ∧
      t.flu.epochAt = s.now + dt ∧ t.phase = 0 ∧ t.flu.miss = min 65535 (s.flu.miss + 1) ∧ t.flu.applyLate = false ∧
      t.flu.expected = s.flu.expected + s.flu.interval ∧ t.flu.interval = s.flu.interval ∧
      (s.losesRing = false → t.flu.ring = s.flu.ring ∧ t.flu.position = s.flu.position ∧ t.flu.meas = s.flu.meas) ∧
      OnlyTouches epochParts s t) ∧
    (s.SynthesizedEpochDue dt → s.losesRing = false → s.StaleTripsNothing →
      let x := s.lsu.shadow
      let coasts := x.state = .coasted ∧ x.localStop = true
      ∃ t, exec (.localCycleTimerExpiry dt) s = .next t ∧ s.AxesAdvance t false ∧
        (s.cfg.classes[(11 : Fin 15)] = .clear → s.ChannelsAdvance t false) ∧
        (s.tru.acting = .a →
          t.lsu.shadow = { x with speed := 0, state := .coasted, localStop := true, ramp := none, resync := false }) ∧
        (s.tru.acting = .clear ∨ s.tru.acting = .d → x.ramp = none →
          (¬coasts → t.lsu.shadow = x.advanced x.speed) ∧
          (coasts → t.lsu.shadow = { x.advanced x.speed with state := .standstill })) ∧
        (∀ cls, s.tru.acting = cls → cls = .b ∨ cls = .c →
          (x.ramp = none ∧ 0 < x.speed ∨ cls = .b ∧ ∃ r, x.ramp = some r ∧ r.cls = .c) →
          let r1 : Ramp := { v0 := x.speed, vt := 0, n := stopLength s.cfg x.speed cls, k := 1, cls := cls }
          t.lsu.shadow = if r1.speed = 0 then
              { x with speed := 0, state := .standstill, localStop := true, ramp := none, resync := false }
            else { x.advanced r1.speed with state := .stopping, localStop := true, ramp := some r1 }) ∧
        (s.tru.acting = .b ∨ s.tru.acting = .c → x.ramp = none → x.speed = 0 →
          t.lsu.shadow = { x with state := .standstill, resync := false }) ∧
        (∀ r, x.ramp = some r → s.tru.acting ≠ .a → ¬(s.tru.acting = .b ∧ r.cls = .c) → ¬coasts →
          let r1 := { r with k := r.k + 1 }
          t.lsu.shadow = if r1.speed = 0 then
              { x with speed := 0, state := .standstill, ramp := none, resync := false }
            else { x.advanced r1.speed with ramp := some r1 })) ∧
    (s.isMember = true → s.flu.expected + 625 ≤ s.now + dt → s.nextPending = true →
      ∃ t, exec (.localCycleTimerExpiry dt) s = .next t ∧
        t.flu = { s.flu with expected := s.flu.expected + s.flu.interval } ∧ OnlyTouches [.now, .flu] s t)

/-- An ENGAGED axis that follows a slot and has missed to its limit loses its source: HOLD, source-lost set, not
extrapolating, no increment, and the condition of source 11 present (R72). That the row is the whole epoch is the
model's choice, log 4. -/
def Obligations.MissesToTheLimitLoseTheSource : Prop :=
  ∀ (dt : Nat) (n : Fin 8) (k : Fin 128) (e : PendingEntry) (s : State), s.HeaderEpochDue dt e → s.StaleTripsNothing →
    s.tru.acting ≠ .a → s.axu.axes[n].state = .engaged → s.axu.axes[n].source = .slot k → s.axu.fresh[k] = none →
    s.axu.axes[n].limit ≤ s.axu.axes[n].miss → s.axu.axes[n].sourceLost = false → s.axisCommand n = none →
    ∃ t, exec (.sourceLost dt n) s = .next t ∧ t.axu.axes[n].state = .hold ∧ t.axu.axes[n].sourceLost = true ∧
      t.axu.axes[n].extrap = false ∧ t.axu.axes[n].q = 0 ∧ t.axu.axes[n].theta = s.axu.axes[n].theta ∧
      t.tru.cond[(11 : Fin 15)] = true ∧ OnlyTouches epochParts s t

/-- The epoch that brings the stop timer to the stop timeout forces the enable lines inactive and withdraws the requests
(R102), at a node that acts on the class its latch and remote view give (R94). That the row is the whole epoch is the
model's choice, log 4. -/
def Obligations.StopTimeoutForcesTheLines : Prop :=
  ∀ (dt : Nat) (e : PendingEntry) (s : State), s.HeaderEpochDue dt e → s.StaleTripsNothing →
    s.ActsOnWhatItHolds → s.tru.acting = .b ∨ s.tru.acting = .c → s.tru.timerOn = true → s.tru.timerCount + 1 = s.cfg.stopTimeout →
    s.cfg.stopTimeout ≤ 65535 →
    ∃ t, exec (.stopTimeout dt) s = .next t ∧ t.tru.timerCount = s.cfg.stopTimeout ∧ t.tru.forced = true ∧
      t.tru.requests = 0 ∧ t.tru.outputs = 0 ∧ OnlyTouches epochParts s t

/-- The epoch at which a stream's image has waited for its timeout ends the image incomplete: no image in assembly, the
completion order one higher, the next buffer in ring order, and the buffer CLOSING, or FREE with a drop and flag 7 when
its descriptor is discarded (R164 to R166). That the row is the whole epoch is the model's choice, log 4. -/
def Obligations.StreamTimeoutEndsTheImage : Prop :=
  ∀ (dt : Nat) (n : Fin 4) (e : PendingEntry) (w : Window) (p : StreamParams) (a : Assembly) (s : State),
    s.HeaderEpochDue dt e → s.cfg.stream n = some (w, p) → s.igu.streams[n].asm = some a →
    p.timeout ≤ s.igu.streams[n].idle + 1 →
    ∃ t, exec (.streamTimeout dt n) s = .next t ∧ t.igu.streams[n].asm = none ∧
      t.igu.streams[n].order = s.igu.streams[n].order + 1 ∧
      t.igu.streams[n].next = nextBuffer p.count s.igu.streams[n].next ∧
      (t.igu.streams[n].own[a.buffer] = .closing ∧ t.igu.streams[n].drop = s.igu.streams[n].drop ∨
       t.igu.streams[n].own[a.buffer] = .free ∧ t.igu.streams[n].drop = min 65535 (s.igu.streams[n].drop + 1) ∧
         t.cnu.flags.getLsbD 7 = true) ∧
      (∀ b : Fin 16, b ≠ a.buffer → t.igu.streams[n].own[b] = s.igu.streams[n].own[b]) ∧
      t.igu.tx = s.igu.tx ∧ t.igu.cap = s.igu.cap ∧ OnlyTouches epochParts s t

/-- The epoch that brings a sweep count to its period: the count is 0 again, the pointer moves to the next tile, and the
swept tile is dirty, unless its fetch was issued at once (R174, R172). That the row is the whole epoch is the model's
choice, log 4. -/
def Obligations.SweepMarksOneTile : Prop :=
  ∀ (dt : Nat) (n : Fin 2) (e : PendingEntry) (w : Window) (p : ScreenParams) (s : State), s.HeaderEpochDue dt e →
    s.cfg.screenOut n = some (w, p) → 0 < p.period → p.period ≤ s.scu.out[n].sweepCount + 1 →
    s.scu.out[n].sweep < 8192 →
    ∃ t, exec (.sweep dt n) s = .next t ∧ t.scu.out[n].sweepCount = 0 ∧
      t.scu.out[n].sweep = (if p.tiles ≤ s.scu.out[n].sweep + 1 then 0 else s.scu.out[n].sweep + 1) ∧
      (t.scu.out[n].dirty.getLsbD s.scu.out[n].sweep = true ∨ (n, s.scu.out[n].sweep) ∈ t.scu.inFlight) ∧
      t.scu.landed = s.scu.landed ∧ t.scu.refresh = s.scu.refresh ∧ OnlyTouches epochParts s t

/-- The epoch at which an entry's age reaches the stale limit of its window makes it stale, with flag 2 (R121). That the
row is the whole epoch is the model's choice, log 4. -/
def Obligations.AgeToTheLimitIsStale : Prop :=
  ∀ (dt : Nat) (i k : Fin 8) (e : PendingEntry) (w : Window) (es : List (Fin 128)) (lim : Nat) (trip : Bool) (s : State),
    s.HeaderEpochDue dt e → s.cfg.slotIn i = some (w, es, lim, trip) → k.val < es.length →
    s.slu.entries[i][k].mark = false → s.slu.entries[i][k].stale = false → s.slu.entries[i][k].age + 1 = lim → lim ≤ 255 →
    ∃ t, exec (.slotStale dt i k) s = .next t ∧
      t.slu.entries[i][k] = { s.slu.entries[i][k] with age := lim, stale := true } ∧ t.cnu.flags.getLsbD 2 = true ∧
      t.slu.publish = s.slu.publish ∧ t.slu.committed = s.slu.committed ∧ t.slu.conflicts = s.slu.conflicts ∧
      OnlyTouches epochParts s t

/-- The configured values change only when the flash body completes a load or a pin reset begins one (R190); and, those two
apart, the shaft and the axes move only at epochs: every command that makes no epoch leaves generator, shadow shaft and, but
for the fresh values of received slots, the axes as they are (R48, R58, R68). -/
def Obligations.MotionAndConfigurationChangeOnlyThere : Prop :=
  ∀ (c : Instr) (s t : State), exec c s = .next t →
    (t.cfg = s.cfg ∧ (makesEpoch c = false → t.lsu = s.lsu ∧ t.axu.axes = s.axu.axes)) ∨ (∃ dt, c = .pinReset dt) ∨
      ∃ dt bs, c = .flashBodyRead dt bs

/-- An out-run trip block at a member. JOINED: the remote view is the block as it arrived, its generation becomes the known
one, and the node's own marks and first-fault offer are in the block that leaves, with its presence and ready bits where the
header was good too (R6, R12, R94, R97, R98, R105). A generation that differs from the known one is a reset token: source 8
and every source whose condition is absent leave the latch, the others keep their stamps, the power-up hold is released, and
the acting class follows (R94, R105); the known one resets nothing. FOLLOWING: the remote view and the generation likewise,
and only the node's own bit is cleared in the masks and set in the presence mask. SEEKING: the generation alone is taken. A bad
block passes as it arrived (R7). A changed block is rebuilt from its fields, log 41. -/
def Obligations.MembersHandleTheTripBlock : Prop :=
  ∀ (dt : Nat) (b : Block) (s : State), b.length ≤ 32 → s.isMember = true → s.flu.out.stage = .trip →
    let sent := fun (t : State) (b1 : Block) => t.flu = { s.flu with
      out := { s.flu.out with stage := .tags }, txDown := { s.flu.txDown with trip := b1 } }
    let bit := if s.flu.out.good then s.ownBit else 0
    (∀ bs, goodBytes 32 b = some bs →
      let f := parseTrip bs
      ∃ t, exec (.outRunTripBlock dt b) s = .next t ∧ t.tru.known = f.gen ∧
        (s.flu.ring = .joined → t.tru.remote = f.masks ∧ t.tru.acting = t.localClass.worst t.remoteClass ∧
          t.tru.cond = s.tru.cond ∧
          (f.gen ≠ s.tru.known → t.tru.hold = false ∧ ∀ n : Fin 15,
            t.tru.latch[n] = if n = 8 ∨ s.tru.cond[n] = false then none else s.tru.latch[n]) ∧
          (f.gen = s.tru.known → t.tru.hold = s.tru.hold ∧ t.tru.latch = s.tru.latch ∧ t.tru.class8 = s.tru.class8) ∧
          sent t (passTrip b f {
            f with masks := t.markOwn (t.clearOwn f.masks), fault := t.offer f.fault,
                   presence := f.presence ||| bit, ready := f.ready ||| bit })) ∧
        (s.flu.ring = .following → t.tru.remote = f.masks ∧ t.tru.acting = t.localClass.worst t.remoteClass ∧
          t.tru.latch = s.tru.latch ∧ t.tru.hold = s.tru.hold ∧ sent t (passTrip b f {
            f with masks := f.masks.map fun m => m &&& ~~~s.ownBit, presence := f.presence ||| bit })) ∧
        (s.flu.ring = .seeking → t.tru = { s.tru with known := f.gen } ∧ sent t b) ∧
        OnlyTouches [.now, .flu, .tru, .cmu, .flags, .ptu, .lde] s t) ∧
    (goodBytes 32 b = none → s.Served →
      ∃ t, exec (.outRunTripBlock dt b) s = .next t ∧ sent t b ∧ OnlyTouches [.now, .flu] s t)

/-- Every cell of an arriving return frame moves the passage on, the 96th ending it, and leaves upstream as it arrived, but at
the master or in a frame the node disregards (R3, R13, R134). A bad cell, one for another position, one of length 0 or above
256, of kind EMPTY or unknown, or outside a delivery passage is only passed on (R134, R135). A good one addressed to this node
is handed to the owner of its kind: a head begins an image in a FREE buffer (R162), a data fragment of the image is requested
for landing (R163), a tile is requested for landing (R177), key events are requested with their write index (R184), a refresh
request marks the screen (R175). The bytes of a head beyond its payload length are free values, log 33; that the numbers of a
head and of a refresh request are those of the cell header, and that the ring state is judged at each cell, are the model's
choices, logs 66, 69 and 81. -/
def Obligations.DeliveredCellsReachTheirOwners : Prop :=
  ∀ (dt : Nat) (b : Block) (s : State), b.length ≤ 274 → s.flu.ret.stage = .cells →
    let delivers := s.isJoined && s.flu.ret.good && s.flu.ret.used
    let passed := fun (t : State) => t.flu = { s.flu with
      ret := if s.flu.ret.next < 95 then { s.flu.ret with next := s.flu.ret.next + 1 } else Passage.idle,
      txUp := if s.flu.ret.used = true ∧ s.isMaster = false then { s.flu.txUp with cells := s.flu.txUp.cells ++ [b] }
        else s.flu.txUp }
    let stays := fun (c : CellFields) => c.len = 0 ∨ 256 < c.len ∨ s.flu.position ≠ some c.dest ∨ c.kind = 0 ∨ 5 < c.kind
    (∃ t, exec (.cellDelivery dt (.arrived b)) s = .next t ∧ passed t ∧
      OnlyTouches [.now, .flu, .igu, .scu, .ksc, .flags, .ptu, .lde] s t) ∧
    (s.Served → delivers = false ∨ goodBytes 274 b = none ∨ (∃ bs, goodBytes 274 b = some bs ∧ stays (parseCell bs)) →
      ∃ t, exec (.cellDelivery dt (.arrived b)) s = .next t ∧ passed t ∧ OnlyTouches [.now, .flu] s t) ∧
    ∀ bs, s.Quiet → delivers = true → goodBytes 274 b = some bs →
      let c := parseCell bs
      1 ≤ c.len → c.len ≤ 256 → s.flu.position = some c.dest →
      ∃ t, exec (.cellDelivery dt (.arrived b)) s = .next t ∧ passed t ∧
        (∀ i w p, c.kind = 1 → s.streamOf c = some i → s.cfg.stream i = some (w, p) →
          let x := s.igu.streams[i]
          x.asm = none → field (receivedHead c.payload) 4 4 = p.size → x.own[x.next] = .free →
          t.igu = { s.igu with streams := t.igu.streams } ∧
          t.igu.streams = setAt s.igu.streams i { x with
            own := setAt x.own x.next .assembling, idle := 0,
            asm := some { imgNo := c.imgNo, buffer := x.next, info := parseHead (receivedHead c.payload), landed := 0,
                          last := 0, broken := false } }) ∧
        (∀ i w p a, c.kind = 2 → s.streamOf c = some i → s.cfg.stream i = some (w, p) →
          let x := s.igu.streams[i]
          x.asm = some a → a.imgNo = c.imgNo → a.last < c.index → c.index ≤ p.size / 256 → c.len = 256 →
          a.landed + 1 ≠ p.size / 256 →
          t.igu.streams = setAt s.igu.streams i
            { x with idle := 0, asm := some { a with landed := a.landed + 1, last := c.index } } ∧
          ∃ e ∈ t.lde.normal, e.req = .fragment ∧ e.runs = [{
            addr := w.word + a.buffer.val * p.size / 4 + (c.index - 1) * 64, words := wordsOfBytes c.payload }]) ∧
        (∀ i w p, c.kind = 3 → s.cfg.screenIn i = some (w, p) → p.pos = c.source → p.number = c.stream →
          (∀ j v q, s.cfg.screenIn j = some (v, q) → q.pos = c.source → q.number = c.stream → j = i) →
          c.index < p.tiles → c.len = 256 →
          ∃ e ∈ t.lde.normal, e.req = .tileLand i ∧
            e.runs = tileRuns w p c.index fun j => wordsOfBytes ((c.payload.drop (32 * j)).take 32)) ∧
        (∀ w, c.kind = 4 → s.cfg.only .keys = some w → c.len % 8 = 0 → c.len ≤ 128 →
          let wi := (s.ksc.writeIndex + c.len / 8) % 64
          let count := s.ksc.landedCount + BitVec.ofNat 16 (c.len / 8)
          t.ksc = { s.ksc with writeIndex := wi, landedCount := count } ∧
          ∃ e ∈ t.lde.normal, e.req = .keys ∧
            ({ addr := w.word + 128, words := [packWord
              [(wi, 6), (0, 1), (bit c.overflow, 1), (c.source, 5), (0, 3), (count.toNat, 16)]] } : Run) ∈ e.runs) ∧
        (∀ i w p u, c.kind = 5 → s.cfg.screenOut i = some (w, p) → p.pos = c.source → p.number = c.stream →
          (∀ j v q, s.cfg.screenOut j = some (v, q) → q.pos = c.source → q.number = c.stream → j = i) →
          u < p.tiles → u < 8192 → t.scu.out[i].dirty.getLsbD u = true ∨ (i, u) ∈ t.scu.inFlight) ∧
        OnlyTouches [.now, .flu, .igu, .scu, .ksc, .flags, .lde] s t

/-- The end node's own copy of an out-run frame is handled as a return passage (R13, R119, R124, R134): its header and
trip block leave upstream, its valid slots are received, its tag block and slots leave upstream, and its cells leave upstream
one by one, the 96th ending the passage. That tag block and slots leave with the command that ends the slot area is the model's
choice, log 40: R13 sends the copy at the same instant as the downstream frame. A changed trip block is rebuilt from its fields,
log 41. -/
def Obligations.TurnedAroundCopiesAreReturns : Prop :=
  ∀ (dt : Nat) (s : State), s.Served →
    (s.flu.copy.stage = .header → s.flu.txDown.header ≠ [] →
      ∃ t, exec (.returnHeader dt .copy) s = .next t ∧
        t.flu = { s.flu with
          txUp := { s.flu.txUp with header := s.flu.txDown.header },
          copy := { s.flu.copy with stage := .trip } } ∧
        OnlyTouches [.now, .flu] s t) ∧
    (∀ bs, s.flu.copy.stage = .trip → s.flu.txDown.trip ≠ [] → goodBytes 32 s.flu.txDown.trip = some bs →
      let f := parseTrip bs
      ∃ t, exec (.returnTripBlock dt .copy) s = .next t ∧ t.tru = { s.tru with pressFault := f.fault } ∧
        t.flu = { s.flu with
          txUp := { s.flu.txUp with
            trip := passTrip s.flu.txDown.trip f (if s.isJoined then { f with masks := s.markOwn f.masks } else f) },
          copy := { s.flu.copy with stage := .slots, next := 0 } } ∧
        OnlyTouches [.now, .flu, .tru, .flags, .ptu, .lde] s t) ∧
    (∀ (n : Fin 128) (slot : Block) (bs : List Byte) (p : Fin 32) (data : List Byte) (i k : Fin 8),
      s.isJoined = true → s.flu.copy.stage = .slots → s.flu.copy.good = true → s.flu.copy.used = true →
      s.flu.copy.next ≤ n.val → goodBytes 18 s.flu.txDown.tags = some bs → tagBit bs n = true →
      s.flu.txDown.slots[n.val]? = some slot → slotPublisher slot = some (p, data) → s.cfg.entrySlot i k = some n →
      ∃ t, exec (.slotReception dt n .copy) s = .next t ∧ t.flu.copy = { s.flu.copy with next := n.val + 1 } ∧
        t.slu.entries[i][k] = { seq := s.slu.entries[i][k].seq + 1, age := 0, stale := false, publisher := some p,
                                mark := true } ∧
        t.axu.fresh[n] = some (BitVec.ofNat 32 (field data 0 4)) ∧
        OnlyTouches [.now, .flu, .axu, .tru, .slu, .cmu, .flags, .ptu, .lde] s t) ∧
    (s.flu.copy.stage = .slots →
      ∃ t, exec (.slotAreaEnd dt .copy) s = .next t ∧
        t.flu = { s.flu with
          copy := { s.flu.copy with stage := .cells, next := 0 },
          txUp := { s.flu.txUp with tags := s.flu.txDown.tags, slots := s.flu.txDown.slots } } ∧
        (s.flu.copy.used = true → ∀ i k : Fin 8, (s.cfg.slotIn i).isSome = true → t.slu.landing[i][k] = none) ∧
        OnlyTouches [.now, .flu, .slu, .flags, .ptu, .lde] s t) ∧
    (∀ b, s.flu.copy.stage = .cells → s.flu.txDown.cells[s.flu.copy.next]? = some b →
      ∃ t, exec (.cellDelivery dt .copy) s = .next t ∧
        t.flu = { s.flu with
          copy := if s.flu.copy.next < 95 then { s.flu.copy with next := s.flu.copy.next + 1 } else Passage.idle,
          txUp := { s.flu.txUp with cells := s.flu.txUp.cells ++ [b] } } ∧
        OnlyTouches [.now, .flu, .igu, .scu, .ksc, .flags, .ptu, .lde] s t)

/-- An origination: the count and t_f move on, the next is 31,250 ticks later, the previous cycle's return is judged,
the frame leaves with its header and its trip block, and the master's own header joins the pending list with d_0 = 0 (R15,
R17, R20). The trip block: the masks of the last return trip block at the positions it shows present, the master's own
marks, the first-fault record with the master's offer, the generation, which a pending reset raises, and the presence and
ready bits of position 0 (R96, R97, R104). The origination that brings the return-miss count to ring_loss_limit makes the
condition of source 10 present, and latches it at phase 0 where its class is not NONE; the master originates on (R17,
R91). Everything but the cells is formed at t_f, the first origination counts no miss, the loss is judged first, the
master's header is no measurement, and the stamp has the node's cycle number: the model's choices, logs 24, 16, 39, 49 and 53.
The header of a RUN frame carries the generator's values, that of a SETUP frame V = 0 and STANDSTILL (R16, R56), also over a
COASTED generator: there the model's choice, log 50. -/
def Obligations.OriginationSendsAFrame : Prop :=
  ∀ (dt : Nat) (s : State), s.isMaster = true → s.flu.nextOrigin ≤ s.now + dt → s.flu.entries.length < 3 →
    let shown : HeaderShaft :=
      { angle := s.lsu.gen.angle, rev := s.lsu.gen.rev,
        speed := if s.flu.mstate = .run then s.lsu.gen.speed else 0,
        state := if s.flu.mstate = .run then s.lsu.gen.state else .standstill }
    (∃ t, exec (.origination dt) s = .next t ∧ t.now = s.now + dt ∧
      t.flu.origCount = s.flu.origCount + 1 ∧ t.flu.originated = true ∧ t.flu.originAt = s.now + dt ∧
      t.flu.nextOrigin = s.flu.nextOrigin + 31250 ∧ t.flu.returnSeen = false ∧
      t.flu.returnMiss = (if s.flu.originated = false then s.flu.returnMiss
        else if s.flu.returnSeen then 0 else min 255 (s.flu.returnMiss + 1)) ∧
      t.flu.out = Passage.own (s.now + dt) (decide (s.flu.mstate = .run)) (s.flu.origCount + 1) ∧
      t.flu.txDown.start = some (s.now + dt) ∧
      t.flu.txDown.header = buildHeader (s.flu.origCount + 1) (decide (s.flu.mstate = .run)) s.cfg.dApply s.flu.lastL shown ∧
      (let u0 := s.handStamped 10 (decide (s.cfg.lossLimit ≤ t.flu.returnMiss)) { cycle := s.flu.cycle, phase := 0 }
       let u := if s.tru.resetPending then u0.takeToken (s.tru.known + 1) else u0
       let masks := u.markOwn (match s.tru.relay with
         | some r => r.masks.map fun w => (w &&& r.presence) &&& ~~~1#32
         | none => ClassMasks.empty)
       t.tru.remote = masks ∧ t.tru.resetPending = false ∧
         t.tru.known = (if s.tru.resetPending then s.tru.known + 1 else s.tru.known) ∧
         t.flu.txDown.trip = buildTrip {
           masks := masks, fault := u.offer (if s.tru.resetPending then none else s.tru.relay.bind Relay.fault),
           gen := if s.tru.resetPending then s.tru.known + 1 else s.tru.known, presence := 1, ready := 1 }) ∧
      t.flu.txDown.slots.length = 128 ∧ t.flu.txDown.cells = [] ∧
      (s.flu.mstate = .setup → t.flu.txDown.tags = sealed (List.replicate 16 0) ∧
        t.flu.txDown.slots = List.replicate 128 emptySlot) ∧
      (∃ e, t.flu.entries = s.flu.entries ++ [e] ∧ e.cycle = s.flu.origCount + 1 ∧
        e.instant = s.now + dt + max 250 s.cfg.dApply ∧ e.late = decide (s.cfg.dApply < 250) ∧
        e.mark = s.flu.resyncArmed ∧ e.shaft = shown) ∧
      t.flu.ring = s.flu.ring ∧ t.flu.mstate = s.flu.mstate ∧ t.flu.meas = s.flu.meas ∧ t.flu.tf = s.flu.tf ∧
      OnlyTouches [.now, .flu, .tru, .slu, .cls, .cmu, .igu, .scu, .ksc, .flags, .ptu, .lde] s t) ∧
    (s.flu.originated = true → s.flu.returnSeen = false → s.flu.returnMiss + 1 = s.cfg.lossLimit → s.cfg.lossLimit ≤ 15 →
      ∃ t, exec (.masterRingLoss dt) s = .next t ∧ t.flu.returnMiss = s.cfg.lossLimit ∧
        t.tru.cond[(10 : Fin 15)] = true ∧
        (s.tru.cond[(10 : Fin 15)] = false → s.cfg.classes[(10 : Fin 15)] ≠ .clear →
          t.tru.latch[(10 : Fin 15)] = s.tru.latch[(10 : Fin 15)].or (some { cycle := s.flu.cycle, phase := 0 })) ∧
        t.flu.origCount = s.flu.origCount + 1 ∧ t.flu.ring = s.flu.ring ∧
        OnlyTouches [.now, .flu, .tru, .slu, .cls, .cmu, .igu, .scu, .ksc, .flags, .ptu, .lde] s t)

/-- Epochs that pass in silence. The synthesized epoch that brings the miss count to ring_loss_limit takes a FOLLOWING
or JOINED member to SEEKING: measurements emptied, position unassigned, flag 1; from JOINED also the resync mark armed,
the transmit queue emptied and the condition of source 10 present (R10). The second epoch in a row without a good return
header makes a member with a lit downstream receiver the end node, with flag 1 (R13, R14). That each row is the whole
epoch, and that the loss is at equality, are the model's choices, logs 4 and 26. -/
def Obligations.SilentEpochsLoseTheRingOrTheReturn : Prop :=
  ∀ (dt : Nat) (s : State),
    (s.SynthesizedEpochDue dt → s.flu.ring ≠ .seeking → s.flu.miss + 1 = s.cfg.lossLimit → s.cfg.lossLimit ≤ 15 →
      ∃ t, exec (.ringLoss dt) s = .next t ∧ t.flu.ring = .seeking ∧ t.flu.position = none ∧ t.flu.meas = [] ∧
        t.flu.mismatch = false ∧ t.flu.miss = s.cfg.lossLimit ∧ t.cnu.flags.getLsbD 1 = true ∧
        (s.flu.ring = .joined → t.flu.resyncArmed = true ∧ t.igu.tx = [] ∧ t.scu.buffer = [] ∧
          t.tru.cond[(10 : Fin 15)] = true ∧ t.slu.publish = s.slu.publish ∧ t.slu.committed = s.slu.committed) ∧
        (s.flu.ring = .following → t.flu.resyncArmed = s.flu.resyncArmed ∧ t.igu.tx = s.igu.tx) ∧
        OnlyTouches epochParts s t) ∧
    (∀ e, s.HeaderEpochDue dt e → s.isMember = true → s.flu.down.state ≠ .dark → s.flu.returnWatch = 1 →
      s.flu.goodReturn = false →
      ∃ t, exec (.endNodeCondition dt) s = .next t ∧ t.isEndNode = true ∧ s.isEndNode = false ∧ t.flu.returnWatch = 2 ∧
        t.cnu.flags.getLsbD 1 = true ∧ OnlyTouches epochParts s t)

/-- The last steps of ramps. Of a commanded ramp: the speed is the target, the generator is RUNNING, or in STANDSTILL at
target 0, the record is kept with k = n, and the angle advances by the new speed (R53, R55). Of a stop ramp whose step
brings the generator's speed to 0: STANDSTILL, the record cleared, the angle held (R50). Of a local stop ramp whose step
brings the shadow's speed to 0 at a synthesized epoch: STANDSTILL, the record cleared, the angle held, the local-stop
indication kept (R60). That the row is the whole epoch is the model's choice, log 4. -/
def Obligations.RampsEndAtTheirTargets : Prop :=
  ∀ (dt : Nat) (r : Ramp) (s : State), s.StaleTripsNothing →
    (∀ e, s.HeaderEpochDue dt e → s.isMaster = true → s.ptu.shaftPending = false → s.lsu.gen.ramp = some r →
      (s.tru.acting = .clear ∨ s.tru.acting = .d → s.lsu.gen.state = .ramping → r.cls = .clear → r.k + 1 = r.n →
        ∃ t, exec (.rampEnd dt) s = .next t ∧
          t.lsu.gen = { angle := advanceAngle s.lsu.gen.angle r.vt,
                        rev := advanceRev s.lsu.gen.angle s.lsu.gen.rev r.vt, speed := r.vt,
                        state := if r.vt = 0 then .standstill else .running, ramp := some { r with k := r.n } } ∧
          OnlyTouches epochParts s t) ∧
      (s.tru.acting = r.cls → r.cls = .b ∨ r.cls = .c → s.lsu.gen.state = .stopping → 0 < s.lsu.gen.speed →
        ({ r with k := r.k + 1 } : Ramp).speed = 0 →
        ∃ t, exec (.stopRampEnd dt) s = .next t ∧
          t.lsu.gen = { s.lsu.gen with speed := 0, state := .standstill, ramp := none } ∧ OnlyTouches epochParts s t)) ∧
    (s.SynthesizedEpochDue dt → s.losesRing = false → s.tru.acting = r.cls → r.cls = .b ∨ r.cls = .c →
      s.lsu.shadow.ramp = some r → 0 < s.lsu.shadow.speed → s.lsu.shadow.localStop = true →
      ({ r with k := r.k + 1 } : Ramp).speed = 0 →
      ∃ t, exec (.localStopEnd dt) s = .next t ∧
        t.lsu.shadow = { s.lsu.shadow with speed := 0, state := .standstill, ramp := none, resync := false } ∧
        OnlyTouches epochParts s t)

/-! ### Commands taken at an epoch (sections 2, 3 and 4) -/

/-- The SHAFT commands at the master in RUN. SET-TARGET starts a ramp from the present speed with the clamped values and makes
its first step, which ends a ramp of length 1; HOLD leaves a commanded ramp where it is, and the shaft runs on at its speed.
The result word is requested, the command is no longer pending, and nothing but an epoch's effects follows (R36, R51, R52,
R53, R55). That the row is the whole epoch is the model's choice, log 4. -/
def Obligations.ShaftCommandsMoveTheGenerator : Prop :=
  ∀ (dt : Nat) (e : PendingEntry) (w : Window) (s : State), s.HeaderEpochDue dt e → s.StaleTripsNothing →
    s.isMaster = true → s.tru.acting = .clear ∨ s.tru.acting = .d → s.ptu.shaftPending = true →
    s.cfg.only .shaft = some w → s.lde.normal.length < 20 →
    let g := s.lsu.gen
    let word := s.shadowAt w.word
    let vt := (s.shadowAt (w.word + 1)).toNat
    let n := (s.shadowAt (w.word + 2)).toNat % 65536
    (cmdCode word = 1 → s.flu.mstate = .run → g.state ≠ .stopping → g.state ≠ .coasted →
      let r : Ramp := { v0 := g.speed, vt := min vt s.cfg.vmax, n := max 1 n, k := 1, cls := .clear }
      ∃ t, exec (.setTarget dt) s = .next t ∧
        t.lsu.gen = { angle := advanceAngle g.angle r.speed, rev := advanceRev g.angle g.rev r.speed, speed := r.speed,
                      state := if r.n = 1 then (if r.vt = 0 then .standstill else .running) else .ramping,
                      ramp := some r } ∧
        t.ptu.shaftPending = false ∧
        t.ResultRequested (w.word + 3)
          (resultWord (cmdTag word) (if s.cfg.vmax < vt ∨ n = 0 then .clamped else .accepted) 0) ∧
        (r.n = 1 → exec (.rampEnd dt) s = .next t) ∧ OnlyTouches epochParts s t) ∧
    (∀ r, cmdCode word = 2 → g.state = .ramping → g.ramp = some r → r.cls = .clear →
      ∃ t, exec (.hold dt) s = .next t ∧
        t.lsu.gen = { g with
          angle := advanceAngle g.angle g.speed, rev := advanceRev g.angle g.rev g.speed, state := .held } ∧
        t.ptu.shaftPending = false ∧ t.ResultRequested (w.word + 3) (resultWord (cmdTag word) .accepted 0) ∧
        OnlyTouches epochParts s t)

/-- The AXIS commands of an axis that is not OFF. ENGAGE makes it ENGAGED with its indications clear, at the setpoint it
held or at the geared phase of its source (R80); DISENGAGE makes it IDLE (R81); SET-GEAR, SET-OFFSET and SET-SOURCE take
their values (R82 to R84). The result word is requested, and the command is no longer pending (R36, R79). That the row
is the whole epoch, and that other operand bits of SET-SOURCE are ignored, are the model's choices, logs 4 and 36. -/
def Obligations.AxisCommandsTakeEffect : Prop :=
  ∀ (dt : Nat) (n : Fin 8) (e : PendingEntry) (w : Window) (c : AxisCommand) (s : State), s.HeaderEpochDue dt e →
    s.StaleTripsNothing → s.cfg.only .axis = some w → s.axisCommand n = some c → s.lde.normal.length < 19 →
    s.axu.axes[n].state ≠ .off →
    let a := s.axu.axes[n]
    let done := fun (t : State) (code : ResultCode) => t.ptu.axisPending[n] = false ∧
      t.ResultRequested (w.word + 16 * n.val + 4) (resultWord c.tag code 0) ∧ OnlyTouches epochParts s t
    (c.code = 1 → c.operand ≤ 1 → a.state ≠ .engaged → s.tru.acting.stops = false →
      (∀ k, a.source = .slot k → a.ref ≠ none ∧ (a.miss < a.limit ∨ s.axu.fresh[k] ≠ none)) →
      ∃ t, exec (.engage dt n) s = .next t ∧ done t .accepted ∧
        t.axu.axes[n].state = .engaged ∧ t.axu.axes[n].resyncHold = false ∧ t.axu.axes[n].sourceLost = false ∧
        t.axu.axes[n].source = a.source ∧ t.axu.axes[n].n = a.n ∧ t.axu.axes[n].d = a.d ∧
        (∀ p, a.source = .shaft → a.ref = some p → s.flu.resyncArmed = false →
          let dA := signedDiff e.shaft.angle p
          let r0 := if c.operand = 0 then 0 else p.toNat * a.n % a.d
          let th0 := if c.operand = 0 then a.theta else BitVec.ofNat 32 (p.toNat * a.n / a.d)
          t.axu.axes[n].q = (r0 + dA * a.n) / a.d ∧ t.axu.axes[n].r = ((r0 + dA * a.n) % a.d).toNat ∧
          t.axu.axes[n].theta = th0 + BitVec.ofInt 32 t.axu.axes[n].q)) ∧
    (c.code = 2 →
      ∃ t, exec (.disengage dt n) s = .next t ∧ done t .accepted ∧
        t.axu.axes[n].state = .idle ∧ t.axu.axes[n].resyncHold = false ∧ t.axu.axes[n].sourceLost = false ∧
        t.axu.axes[n].extrap = false ∧ t.axu.axes[n].q = 0 ∧ t.axu.axes[n].theta = a.theta ∧ t.axu.axes[n].r = a.r ∧
        t.axu.axes[n].o = a.o ∧ t.axu.axes[n].source = a.source) ∧
    (c.code = 3 → c.d ≠ 0 →
      ∃ t, exec (.setGear dt n) s = .next t ∧ done t .accepted ∧
        t.axu.axes[n].n = c.n ∧ t.axu.axes[n].d = c.d ∧ t.axu.axes[n].r < c.d ∧ t.axu.axes[n].source = a.source ∧
        t.axu.axes[n].ot = a.ot ∧ t.axu.axes[n].lslew = a.lslew ∧
        (a.state ≠ .engaged → t.axu.axes[n].state = a.state ∧ t.axu.axes[n].r = 0 ∧ t.axu.axes[n].theta = a.theta)) ∧
    (c.code = 4 →
      ∃ t, exec (.setOffset dt n) s = .next t ∧ done t (if 65535 < c.slew then .clamped else .accepted) ∧
        t.axu.axes[n].ot = c.target ∧ t.axu.axes[n].lslew = min 65535 c.slew ∧ t.axu.axes[n].n = a.n ∧
        t.axu.axes[n].d = a.d ∧ t.axu.axes[n].source = a.source ∧
        (a.state ≠ .engaged ∨ s.tru.acting.stops = true → t.axu.axes[n].o = a.o)) ∧
    (∀ src, c.code = 5 → a.state ≠ .engaged → sourceOf c.operand = some src →
      (∀ k, src = .slot k → s.cfg.subscribes k = true) →
      ∃ t, exec (.setSource dt n) s = .next t ∧ done t .accepted ∧
        t.axu.axes[n].source = src ∧ t.axu.axes[n].state = a.state ∧ t.axu.axes[n].sourceLost = false ∧
        t.axu.axes[n].extrap = false ∧ t.axu.axes[n].delta = 0 ∧
        t.axu.axes[n].ref = (match src with | .shaft => some e.shaft.angle | .slot k => s.axu.fresh[k]) ∧
        t.axu.axes[n].theta = a.theta ∧ t.axu.axes[n].r = a.r ∧ t.axu.axes[n].o = a.o ∧ t.axu.axes[n].n = a.n ∧
        t.axu.axes[n].d = a.d)

/-- A command code that the window kind does not define is taken and answered REFUSED-RANGE at each of the four taking
points, and its owner keeps its values (R36). That each is the whole event, and a single-beat write is carried to
completion at once, are the model's choices, logs 4 and 5; the result value of a reset or enable request is free in the bits
that the layout assigns it, log 48. -/
def Obligations.UndefinedCodesAreAnsweredOutOfRange : Prop :=
  ∀ (dt : Nat) (s : State),
    (∀ (e : PendingEntry) (w : Window), s.HeaderEpochDue dt e → s.ptu.shaftPending = true → s.cfg.only .shaft = some w →
      cmdCode (s.shadowAt w.word) ≠ 1 → cmdCode (s.shadowAt w.word) ≠ 2 → s.lde.normal.length < 20 →
      ∃ t, exec (.undefinedCommandCode dt .shaft) s = .next t ∧ t.ptu.shaftPending = false ∧
        t.ResultRequested (w.word + 3) (resultWord (cmdTag (s.shadowAt w.word)) .refusedRange 0) ∧
        (s.isMaster = false → t.lsu.gen = s.lsu.gen) ∧
        (s.isMaster = true → s.tru.acting = .clear → s.StaleTripsNothing → s.lsu.gen.state = .running →
          t.lsu.gen = s.lsu.gen.integrate) ∧ OnlyTouches epochParts s t) ∧
    (∀ (n : Fin 8) (e : PendingEntry) (w : Window) (c : AxisCommand), s.HeaderEpochDue dt e →
      s.cfg.only .axis = some w → s.axisCommand n = some c → c.code = 0 ∨ 5 < c.code →
      s.axu.axes[n].state ≠ .off → s.lde.normal.length < 19 →
      ∃ t, exec (.undefinedCommandCode dt (.axis n)) s = .next t ∧ t.ptu.axisPending[n] = false ∧
        t.ResultRequested (w.word + 16 * n.val + 4) (resultWord c.tag .refusedRange 0) ∧
        t.axu.axes[n].source = s.axu.axes[n].source ∧ t.axu.axes[n].n = s.axu.axes[n].n ∧
        t.axu.axes[n].d = s.axu.axes[n].d ∧ t.axu.axes[n].ot = s.axu.axes[n].ot ∧
        t.axu.axes[n].lslew = s.axu.axes[n].lslew ∧ OnlyTouches epochParts s t) ∧
    (∀ (which : Fin 3) (b : Beat) (w : Window), s.cfg.only .trip = some w →
      s.CanWrite (w.word + which.val) (.tripCommand which) → cmdCode (s.shadowAfter (w.word + which.val) b) ≠ 1 →
      ∃ t, exec (.undefinedCommandCode dt (.trip which b)) s = .next t ∧
        t.ResultRequested (w.word + 4 + which.val)
          (resultWord (cmdTag (s.shadowAfter (w.word + which.val) b)) .refusedRange
            (if which = 0 then 0 else if which = 1 then (Config.undefinedResetValue (s.now + dt)).toNat
              else (Config.undefinedEnableValue (s.now + dt)).toNat)) ∧
        Captured s t (w.word + which.val) b ∧ OnlyTouches [.now, .shadow, .lde, .mem] s t) ∧
    (∀ (b : Beat) (w : Window), s.cfg.only .node = some w → s.CanWrite (w.word + 4) .refresh →
      cmdCode (s.shadowAfter (w.word + 4) b) ≠ 1 →
      ∃ t, exec (.undefinedCommandCode dt (.refresh b)) s = .next t ∧
        t.scu = { s.scu with refresh := some (BitVec.ofNat 8 (cmdTag (s.shadowAfter (w.word + 4) b)), 3) } ∧
        t.cnu.flags = withFlags s.cnu.flags [5] ∧ Captured s t (w.word + 4) b ∧
        OnlyTouches [.now, .scu, .flags, .shadow, .mem] s t)

/-! ### Commands taken at the completion of a P-port cycle -/

/-- The three commands of the TRIP window, single-beat writes of code 1: a trip request latches source 8 with its class
and stamp or raises the class, and the acting class follows (R92, R94); a reset request at the master sets the reset-
pending mark (R104); an enable request that asks for no forced line takes all four states (R101). Each result word is
requested. That a free M-port carries a single-beat write to completion at once, and that operand bits 15 to 4 of an enable
request are ignored, are the model's choices, logs 5 and 36. -/
def Obligations.TripCommandsTakeEffect : Prop :=
  ∀ (dt : Nat) (b : Beat) (w : Window) (s : State), s.cfg.only .trip = some w →
    (∀ c, s.CanWrite w.word (.tripCommand 0) → cmdCode (s.shadowAfter w.word b) = 1 →
      TripClass.ofCode (cmdOperand (s.shadowAfter w.word b)) = some c → c ≠ .clear →
      ∃ t, exec (.tripRequest dt b) s = .next t ∧
        t.ResultRequested (w.word + 4) (resultWord (cmdTag (s.shadowAfter w.word b)) .accepted 0) ∧
        (s.tru.latch[(8 : Fin 15)] = none → t.tru.class8 = c ∧
          t.tru.latch[(8 : Fin 15)] = some (s.elapse dt).stamp ∧
          (∀ n : Fin 15, n ≠ 8 → t.tru.latch[n] = s.tru.latch[n]) ∧
          t.tru.acting = t.localClass.worst t.remoteClass) ∧
        (s.tru.latch[(8 : Fin 15)] ≠ none → t.tru.latch = s.tru.latch ∧
          t.tru.class8 = (if s.tru.class8.severity < c.severity then c else s.tru.class8) ∧
          t.tru.acting = (if s.tru.class8.severity < c.severity then t.localClass.worst t.remoteClass
            else s.tru.acting)) ∧
        t.tru.cond = s.tru.cond ∧ t.tru.remote = s.tru.remote ∧ Captured s t w.word b ∧
        OnlyTouches [.now, .tru, .cmu, .flags, .shadow, .lde, .mem] s t) ∧
    (s.CanWrite (w.word + 1) (.tripCommand 1) → cmdCode (s.shadowAfter (w.word + 1) b) = 1 → s.isMaster = true →
      s.lsu.gen.state ≠ .stopping →
      ∃ t, exec (.resetRequest dt b) s = .next t ∧
        t.tru = { s.tru with resetPending := true, press := .resetting } ∧
        t.ResultRequested (w.word + 5)
          (resultWord (cmdTag (s.shadowAfter (w.word + 1) b)) .accepted (s.tru.known + 1).toNat) ∧
        Captured s t (w.word + 1) b ∧ OnlyTouches [.now, .tru, .shadow, .lde, .mem] s t) ∧
    (let req := BitVec.ofNat 4 (cmdOperand (s.shadowAfter (w.word + 2) b))
     s.CanWrite (w.word + 2) (.tripCommand 2) → cmdCode (s.shadowAfter (w.word + 2) b) = 1 →
      req = 0 ∨ s.tru.linesForced = false →
      ∃ t, exec (.enableRequest dt b) s = .next t ∧ t.tru = { s.tru with requests := req } ∧
        t.ResultRequested (w.word + 6)
          (resultWord (cmdTag (s.shadowAfter (w.word + 2) b)) .accepted req.toNat) ∧
        Captured s t (w.word + 2) b ∧ OnlyTouches [.now, .tru, .shadow, .lde, .mem] s t)

/-- The three commands of the NODE window, single-beat writes. The notice mask takes bits 1 to 15 of its shadow (R193);
the notice clear clears the flags its enabled bytes name, with the state that flags 1, 3, 4 and 13 keep (R195); a
refresh command of code 1 that selects configured screens is recorded as accepted with flag 5, and refreshes them
(R176). That a free M-port carries a single-beat write to completion at once, and which operand bits select a screen,
are the model's choices, logs 5 and 36. -/
def Obligations.NodeCommandsTakeEffect : Prop :=
  ∀ (dt : Nat) (b : Beat) (w : Window) (s : State), s.cfg.only .node = some w →
    (s.CanWrite (w.word + 2) .noticeMask →
      ∃ t, exec (.noticeMask dt b) s = .next t ∧
        t.cnu = { s.cnu with mask := (s.shadowAfter (w.word + 2) b).setWidth 16 &&& 0xFFFE#16 } ∧
        Captured s t (w.word + 2) b ∧ OnlyTouches [.now, .cnu, .shadow, .mem] s t) ∧
    (let f := (mergeBytes 0 b.data b.be).setWidth 16
     s.CanWrite (w.word + 3) .noticeClear →
      ∃ t, exec (.noticeClear dt b) s = .next t ∧ t.cnu.flags = s.cnu.flags &&& ~~~f ∧
        t.flu = (if f.getLsbD 1 = true then { s.flu with changed := false } else s.flu) ∧
        t.slu = (if f.getLsbD 3 = true then { s.slu with conflicts := 0 } else s.slu) ∧
        t.ptu = { s.ptu with latch := if f.getLsbD 4 = true then none else s.ptu.latch, shadow := t.ptu.shadow } ∧
        (∀ i : Fin 4, t.cmu.ch[i] =
          if f.getLsbD 13 = true then { s.cmu.ch[i] with skipped := false } else s.cmu.ch[i]) ∧
        Captured s t (w.word + 3) b ∧ OnlyTouches [.now, .flu, .slu, .cmu, .flags, .ptu, .shadow, .mem] s t) ∧
    (let word := s.shadowAfter (w.word + 4) b
     s.CanWrite (w.word + 4) .refresh → cmdCode word = 1 → s.refreshSelects (cmdOperand word) = true →
      ∃ t, exec (.screenRefreshCommand dt b) s = .next t ∧
        t.scu.refresh = some (BitVec.ofNat 8 (cmdTag word), 1) ∧ t.cnu.flags = withFlags s.cnu.flags [5] ∧
        (∀ (i : Fin 2) (v : Window) (p : ScreenParams) (u : Nat), (cmdOperand word).testBit i.val = true →
          s.cfg.screenOut i = some (v, p) → u < p.tiles → u < 8192 →
          t.scu.out[i].dirty.getLsbD u = true ∨ (i, u) ∈ t.scu.inFlight) ∧
        (∀ i : Fin 2, (cmdOperand word).testBit (2 + i.val) = true → i ∈ t.cls.requests) ∧
        t.scu.landed = s.scu.landed ∧ Captured s t (w.word + 4) b ∧
        OnlyTouches [.now, .cls, .scu, .flags, .shadow, .lde, .mem] s t)

/-- Single-beat writes to the command words without a result. A beat to word 3 of a slot image commits the four staged
words and makes the slot LIVE, or commits nothing of an UNUSED one (R111); a withdraw names a slot of its window to be
WITHDRAWN (R112); a release frees a buffer the processor holds, and is counted as an error for any other (R167). That a
free M-port carries them to completion at once is the model's choice, log 5. -/
def Obligations.SlotAndBufferCommandsTakeEffect : Prop :=
  ∀ (dt : Nat) (addr : BitVec 24) (b : Beat) (s : State),
    (∀ n : Fin 128, s.CanWrite addr.toNat (.slotWord n 3) →
      ∃ t, exec (.commit dt addr b) s = .next t ∧
        (s.slu.publish[n] = .unused → t.slu = s.slu) ∧
        (s.slu.publish[n] ≠ .unused →
          t.slu.publish = setAt s.slu.publish n .live ∧
          (∀ i : Fin 4, t.slu.committed[n][i] = t.shadowAt (addr.toNat + i.val - 3)) ∧
          (∀ m : Fin 128, m ≠ n → t.slu.committed[m] = s.slu.committed[m]) ∧ t.slu.conflicts = s.slu.conflicts ∧
          t.slu.entries = s.slu.entries ∧ t.slu.landing = s.slu.landing) ∧
        Captured s t addr.toNat b ∧ OnlyTouches [.now, .slu, .shadow, .mem] s t) ∧
    (∀ first count : Nat, s.CanWrite addr.toNat (.withdraw first count) →
      let m := (s.shadowAfter addr.toNat b).toNat % 256
      ∃ t, exec (.withdraw dt addr b) s = .next t ∧
        (∀ n : Fin 128, t.slu.publish[n] =
          if n.val = m ∧ first ≤ m ∧ m < first + count ∧ s.slu.publish[n] ≠ .unused then .withdrawn
          else s.slu.publish[n]) ∧
        t.slu = { s.slu with publish := t.slu.publish } ∧
        Captured s t addr.toNat b ∧ OnlyTouches [.now, .slu, .shadow, .mem] s t) ∧
    (∀ (st : Fin 4) (k : Fin 16), s.CanWrite addr.toNat (.release st k) →
      let x := s.igu.streams[st]
      ∃ t, exec (.release dt addr b) s = .next t ∧
        t.igu = { s.igu with streams := t.igu.streams } ∧
        t.igu.streams = setAt s.igu.streams st (if x.own[k] = .processor then { x with own := setAt x.own k .free }
          else { x with relErr := min 255 (x.relErr + 1) }) ∧
        Captured s t addr.toNat b ∧ OnlyTouches [.now, .igu, .shadow, .mem] s t)

/-- A write beat into a CAM-OUT window reaches memory and is captured: at offset 0 it starts an image with the next
number, takes the stored exposure and queues a head; at the expected offset of an image in progress it adds its bytes,
and every 256th queues a fragment; at any other offset it is a sequence break with flag 8; outside an image it is not
captured (R151 to R154, R156, R157). That a free M-port carries the beat to completion at once, the other fields of a head
with the no-exposure mark, and what e holds outside CAPTURING are the model's choices, logs 5, 60 and 61. -/
def Obligations.CamOutBeatsAreCaptured : Prop :=
  ∀ (dt : Nat) (addr : BitVec 24) (b : Beat) (ch : Fin 4) (off : Nat) (cam : CamCfg) (s : State),
    s.CanWrite addr.toNat (.camOut ch off) → s.cfg.cams[ch] = some cam →
    let c := s.igu.cap[ch]
    let bytes := (List.range 4).map fun i => if b.be.getLsbD i then wordByte b.data i else 0#8
    let area := c.area ++ bytes
    let last := decide ((c.e + 4) / 256 = cam.size / 256)
    ∃ t, exec (.camOutBeat dt addr b) s = .next t ∧ StoresWord s t addr.toNat b.data b.be ∧
      t.igu.streams = s.igu.streams ∧ (∀ i : Fin 4, i ≠ ch → t.igu.cap[i] = s.igu.cap[i] ∧ t.cmu.ch[i] = s.cmu.ch[i]) ∧
      (off = 0 →
        t.cmu.ch[ch] = { s.cmu.ch[ch] with exposure := none, overrun := false } ∧
        (s.isJoined = true ∧ s.igu.tx.length < 64 →
          t.igu.cap[ch] = { state := .capturing, e := 4, imgNo := c.imgNo + 1, area := bytes } ∧
          t.igu.tx = s.igu.tx ++ [{
            head := true, last := false, dest := cam.dest, stream := cam.stream, imgNo := c.imgNo + 1, index := 0,
            payload := headPayload (c.imgNo + 1) cam.size s.cmu.ch[ch].headInfo }]) ∧
        (¬ (s.isJoined = true ∧ s.igu.tx.length < 64) →
          t.igu.cap[ch] = { state := .skipping, e := 0, imgNo := c.imgNo + 1, area := [] } ∧ t.igu.tx = s.igu.tx ∧
          t.cnu.flags = withFlags s.cnu.flags [8])) ∧
      (off ≠ 0 → t.cmu = s.cmu) ∧
      (off ≠ 0 → c.state = .capturing → off = c.e → (c.e + 4) % 256 ≠ 0 →
        t.igu.cap[ch] = { c with e := c.e + 4, area := area } ∧ t.igu.tx = s.igu.tx) ∧
      (off ≠ 0 → c.state = .capturing → off = c.e → (c.e + 4) % 256 = 0 → s.isJoined = true → s.igu.tx.length < 64 →
        t.igu.cap[ch] = { c with e := c.e + 4, area := [], state := if last then .idle else .capturing } ∧
        t.igu.tx = s.igu.tx ++ [{
          head := false, last := last, dest := cam.dest, stream := cam.stream, imgNo := c.imgNo,
          index := (c.e + 4) / 256, payload := area }]) ∧
      (off ≠ 0 → c.state = .capturing → off ≠ c.e →
        t.igu.cap[ch] = { c with state := .skipping, area := [] } ∧ t.igu.tx = s.igu.tx ∧
        t.cnu.flags = withFlags s.cnu.flags [8]) ∧
      (off ≠ 0 → c.state ≠ .capturing → t.igu = s.igu ∧ t.cnu.flags = s.cnu.flags) ∧
      OnlyTouches [.now, .cmu, .igu, .flags, .mem] s t

/-- The other write beats. Into a SCREEN-OUT window: memory takes it and its tile is dirty, or its fetch was issued at
once (R171, R172). To a landed word: it is blocked, recorded in the blocked-write latch with flag 4, and memory is
unchanged (R33). To a parameter, SHAFT or AXIS command or staging word: memory and shadow take it, and a command is
pending; to a substituted word: it is absorbed (R30, R34, R35). That a free M-port carries the beat to completion at
once, and that every word of a KEYS window is landed, are the model's choices, logs 5 and 76. -/
def Obligations.OtherWriteBeatsTakeEffect : Prop :=
  ∀ (dt : Nat) (addr : BitVec 24) (b : Beat) (s : State),
    (∀ (n : Fin 2) (off u : Nat) (w : Window) (p : ScreenParams), s.CanWrite addr.toNat (.screenOut n off) →
      s.cfg.screenOut n = some (w, p) → p.tileAt off = some u → u < 8192 →
      ∃ t, exec (.screenOutBeat dt addr b) s = .next t ∧ StoresWord s t addr.toNat b.data b.be ∧
        (t.scu.out[n].dirty.getLsbD u = true ∨ (n, u) ∈ t.scu.inFlight) ∧
        (∀ v, t.scu.out[n].dirty.getLsbD v = true → v = u ∨ s.scu.out[n].dirty.getLsbD v = true) ∧
        t.scu.landed = s.scu.landed ∧ t.scu.refresh = s.scu.refresh ∧ OnlyTouches [.now, .scu, .lde, .mem] s t) ∧
    (∀ kind : WindowKind, s.CanWrite addr.toNat (.landed kind) →
      ∃ t, exec (.blockedWrite dt addr b) s = .next t ∧
        (s.ptu.latch = none → t.ptu = { s.ptu with
          latch := some { addr := addr.toNat, be := b.be, kind := kind, further := false } }) ∧
        (∀ l, s.ptu.latch = some l → t.ptu = { s.ptu with latch := some { l with further := true } }) ∧
        t.cnu.flags = withFlags s.cnu.flags [4] ∧ OnlyTouches [.now, .flags, .ptu] s t) ∧
    (∀ id : Ident, s.CanWrite addr.toNat id → id.isRegister = true →
      ∃ t, exec (.registerWrite dt addr b) s = .next t ∧
        (id.wordClass = .substituted → OnlyTouches [.now] s t) ∧
        (id.wordClass = .capture →
          t.ptu.shaftPending = (s.ptu.shaftPending || decide (id = .shaftCommand)) ∧
          (∀ n : Fin 8, t.ptu.axisPending[n] = (s.ptu.axisPending[n] || decide (id = .axisCommand n))) ∧
          t.ptu.latch = s.ptu.latch ∧ t.ptu.cycle = none ∧ t.ptu.readData = s.ptu.readData ∧
          Captured s t addr.toNat b ∧ OnlyTouches [.now, .ptu, .shadow, .mem] s t))

/-! ### The two ports (section 2) -/

/-- A P-port cycle is presented. A read without a beat that reaches memory completes at once, whatever holds the M-port, and
answers the live words of its snapshot (R34, R44). One with a beat that reaches memory is granted a free M-port; the beats
before its first run have been answered, and memory is as before (R28, R44). Presented while another cycle is in progress it
is held behind it (R44); that any number are held, in the order of their presentation, is the model's choice, log 58. The
values of a single read: the cycle number and the phase of the synchronized-time word (R24, R25), flags and mask and then the
pending number of the notice record (R194), and the live angle of an axis, its setpoint moved on by the phase's share of the
increment as landed, or 0 when OFF (R86). -/
def Obligations.PresentedCyclesAreGrantedOrAnswered : Prop :=
  ∀ (dt : Nat) (write : Bool) (addr : BitVec 24) (beats : List Beat) (s : State), s.Served → 1 ≤ beats.length →
    beats.length ≤ 8 →
    let c := (s.elapse dt).cycleOf write addr beats
    (write = false → (∀ x ∈ c.beats, x.id.reaches false = false) →
      ∃ t, exec (.pPortCycle dt write addr beats) s = .next t ∧
        t.ptu = { s.ptu with readData := (List.range beats.length).map fun i =>
          (s.elapse dt).liveWord (s.identOf ((addr.toNat + i) % 2 ^ 24)) } ∧ OnlyTouches [.now, .ptu] s t) ∧
    ((∃ x ∈ c.beats, x.id.reaches write = true) → s.Quiet →
      ∃ t, exec (.pPortCycle dt write addr beats) s = .next t ∧ t.lde = { s.lde with holder := .cycle } ∧
        t.ptu.cycle = some { c with
          beats := c.beats.dropWhile fun x => !x.id.reaches write,
          answers := if write then [] else (c.beats.takeWhile fun x => !x.id.reaches write).map PBeat.ans,
          granted := true } ∧
        t.ptu.readData = s.ptu.readData ∧ OnlyTouches [.now, .flags, .ptu, .lde] s t) ∧
    ((∃ x ∈ c.beats, x.id.reaches write = true) → s.ptu.cycle.isSome = true →
      ∃ t, exec (.pPortCycle dt write addr beats) s = .next t ∧
        t.ptu = { s.ptu with behind := s.ptu.behind ++ [c] } ∧ OnlyTouches [.now, .ptu] s t) ∧
    (write = false → beats.length = 1 → s.configured = true →
      let phase := min 255 ((s.now + dt - s.flu.epochAt) * 256 / s.flu.interval)
      let pends := fun (n : Nat) => s.cnu.flags.getLsbD n = true ∧ (n = 0 ∨ s.cnu.mask.getLsbD n = false)
      (∀ off, s.identOf addr.toNat = .nodeLive off →
        ∃ t, exec (.pPortCycle dt write addr beats) s = .next t ∧
          (off = 0 → t.ptu.readData = [s.cnu.mask ++ s.cnu.flags]) ∧
          (off = 4 → (∀ n < 16, pends n → (∀ m < n, ¬pends m) → t.ptu.readData = [BitVec.ofNat 32 n]) ∧
            ((∀ n < 16, ¬pends n) → t.ptu.readData = [31])) ∧
          (off = 20 → t.ptu.readData = [s.flu.cycle]) ∧ (off = 24 → t.ptu.readData = [BitVec.ofNat 32 phase]) ∧
          OnlyTouches [.now, .ptu] s t) ∧
      ∀ n : Fin 8, s.identOf addr.toNat = .axisLive n →
        let a := s.axu.axes[n]
        let q := (BitVec.ofInt 32 a.q).toInt
        ∃ t, exec (.pPortCycle dt write addr beats) s = .next t ∧
          t.ptu.readData = [if a.state = .off then 0
            else a.s + BitVec.ofInt 32 (if 0 ≤ q then q * phase / 256 else -(-q * phase / 256))] ∧
          OnlyTouches [.now, .ptu] s t)

/-- The completion of the M-port burst in flight. Of the oldest URGENT or NORMAL entry: the burst's words are in memory,
every other byte is as before, and the entry waits with its next burst or leaves, which its requester learns (R37, R42,
R45, R166, R184); of a tile read, the words read join the tile send buffer at the last burst (R173). Of a P-port cycle:
a read of memory words returns them, a write of one word stores its enabled bytes, and the cycle is over (R26); the cycle
held behind it is then the waiting one, granted at once unless an URGENT entry or a starved NORMAL one goes first (R42, R43,
R44). That the beats of a burst are accepted together at its completion, that cycles are held in order of presentation, and that
the grant sees what the completion itself requested are the model's choices, logs 5, 58 and 79. -/
def Obligations.CompletedBurstsReachMemory : Prop :=
  ∀ (dt : Nat) (s : State), s.Sound →
    let landed := fun (t : State) (r : Run) =>
      (∀ i (h : i < r.words.length), Memory.word t.mem (r.addr + i) = r.words[i]) ∧
      ∀ a, a < Memory.size → a / 4 < r.addr ∨ r.addr + r.words.length ≤ a / 4 → Memory.byte t.mem a = Memory.byte s.mem a
    (∀ (e : UrgentEntry) (rest : List UrgentEntry) (r : Run), s.lde.holder = .urgent → s.lde.urgent = e :: rest →
      (burstsOf e.runs)[e.done]? = some r → r.addr + r.words.length ≤ 2 ^ 24 →
      ∃ t, exec (.mPortBurstCompletion dt) s = .next t ∧ landed t r ∧
        (e.done + 1 < (burstsOf e.runs).length → t.lde.urgent = { e with done := e.done + 1 } :: rest) ∧
        ((burstsOf e.runs).length = e.done + 1 → (∀ f ∈ s.lde.follow, f.1 ≠ e.src) → t.lde.urgent = rest) ∧
        t.lde.normal = s.lde.normal ∧ OnlyTouches [.now, .flags, .ptu, .lde, .mem] s t) ∧
    (∀ (e : NormalEntry) (rest : List NormalEntry) (r : Run), s.lde.holder = .normal → s.lde.normal = e :: rest →
      e.req.isRead = false → (burstsOf e.runs)[e.done]? = some r → r.addr + r.words.length ≤ 2 ^ 24 →
      ∃ t, exec (.mPortBurstCompletion dt) s = .next t ∧ landed t r ∧
        (e.done + 1 < (burstsOf e.runs).length → t.lde.normal = { e with done := e.done + 1 } :: rest) ∧
        ((burstsOf e.runs).length = e.done + 1 → t.lde.normal = rest ∧
          (e.req = .result → t.cnu.flags.getLsbD 5 = true) ∧ (e.req = .keys → t.cnu.flags.getLsbD 9 = true) ∧
          ∀ st buf complete, e.req = .descriptor st buf complete → t.igu.streams[st].own[buf] = .processor ∧
            t.cnu.flags.getLsbD (if complete then 6 else 7) = true) ∧
        t.lde.urgent = s.lde.urgent ∧ OnlyTouches [.now, .igu, .scu, .flags, .ptu, .lde, .mem] s t) ∧
    (∀ (e : NormalEntry) (rest : List NormalEntry) (r : Run) (i : Fin 2) (u : Nat) (w : Window) (p : ScreenParams),
      s.lde.holder = .normal → s.lde.normal = e :: rest → e.req = .tileRead i u → (burstsOf e.runs)[e.done]? = some r →
      (burstsOf e.runs).length = e.done + 1 → s.isJoined = true → s.cfg.screenOut i = some (w, p) →
      ∃ t, exec (.mPortBurstCompletion dt) s = .next t ∧
        t.scu.buffer = s.scu.buffer ++ [{
          screen := i, dest := p.pos, number := p.number, tile := u,
          bytes := bytesOfWords (e.got ++ Memory.words s.mem r.addr r.words.length) }] ∧
        OnlyTouches [.now, .scu, .flags, .ptu, .lde] s t) ∧
    (∀ c : PCycle, s.lde.holder = .cycle → s.ptu.cycle = some c → c.takes = [] → s.ptu.behind = [] →
      (c.write = false → (∀ x ∈ c.beats, x.id.reaches false = true) →
        ∃ t, exec (.mPortBurstCompletion dt) s = .next t ∧
          t.ptu = { s.ptu with
            cycle := none, readData := c.answers ++ c.beats.map fun x => Memory.word s.mem x.addr } ∧
          t.lde.urgent = s.lde.urgent ∧ t.lde.normal = s.lde.normal ∧ OnlyTouches [.now, .ptu, .lde] s t) ∧
      (∀ x, c.write = true → c.beats = [x] → x.id = .outside ∨ x.id = .ordinary → x.addr < 2 ^ 24 →
        ∃ t, exec (.mPortBurstCompletion dt) s = .next t ∧ t.ptu = { s.ptu with cycle := none } ∧
          StoresWord s t x.addr x.data x.be ∧ OnlyTouches [.now, .ptu, .lde, .mem] s t)) ∧
    (∀ (c c2 : PCycle) (rest : List PCycle), s.lde.holder = .cycle → s.ptu.cycle = some c → c.takes = [] →
      s.ptu.behind = c2 :: rest → c2.granted = false → c.write = false → (∀ x ∈ c.beats, x.id.reaches false = true) →
      ∃ t, exec (.mPortBurstCompletion dt) s = .next t ∧
        t.ptu.readData = c.answers ++ (c.beats.map fun x => Memory.word s.mem x.addr) ∧ t.ptu.behind = rest ∧
        (s.lde.urgent ≠ [] → t.ptu.cycle = some c2 ∧ t.lde.holder = .urgent) ∧
        (s.lde.urgent = [] → s.lde.normal = [] ∨ s.lde.starved = false ∧
            (∀ e ∈ s.lde.normal.head?, s.now + dt - e.entered < s.cfg.starveUs * 125) →
          t.lde.holder = .cycle ∧ ∃ c3, t.ptu.cycle = some c3 ∧ c3.granted = true ∧ c3.write = c2.write ∧
            c3.beats = c2.beats.dropWhile fun x => !x.id.reaches c2.write) ∧
        t.lde.urgent = s.lde.urgent ∧ t.lde.normal = s.lde.normal ∧ OnlyTouches [.now, .flags, .ptu, .lde] s t)

/-- The oldest NORMAL entry is starved once its wait reaches the limit (R43); while it is, and no URGENT entry is queued, the
free M-port is given to it, whether or not a P-port cycle waits (R42). -/
def Obligations.StarvedEntriesGoAheadOfTheProcessor : Prop :=
  (∀ (dt : Nat) (e : NormalEntry) (rest : List NormalEntry) (s : State), s.Served → s.lde.normal = e :: rest →
    s.cfg.starveUs * 125 ≤ s.now + dt - e.entered →
    ∃ t, exec (.starvation dt) s = .next t ∧ t.lde = { s.lde with starved := true } ∧ OnlyTouches [.now, .lde] s t) ∧
  ∀ s : State, s.lde.holder = .free → s.lde.urgent = [] → s.lde.normal ≠ [] → s.lde.starved = true →
    s.arbitrate = { s with lde := { s.lde with holder := .normal } }

/-! ### Trip inputs, camera lines and keys (sections 5, 8 and 10) -/

/-- A trip input line that comes to read active starts its filter, or with filter time 0 makes its condition present at
once; the filter's end makes the condition present, which latches a source of a class and recomputes the acting class; a line
that comes to read inactive ends filter and condition at once, and the latch stays (R89, R91, R94). That a filter counts in the
interval as it stands at its end is the model's choice, log 80. -/
def Obligations.TripInputsAreFiltered : Prop :=
  ∀ (dt : Nat) (n : Fin 8) (s : State), s.Served → s.configured = true →
    let src : Fin 15 := ⟨n.val, by omega⟩
    let present := fun (t : State) => t.tru.cond[src] = true ∧ t.tru.filter[n] = none ∧
      (s.tru.cond[src] = false → s.cfg.classes[src] ≠ .clear → s.tru.latch[src] = none →
        t.tru.latch[src] = some (s.elapse dt).stamp ∧ t.tru.acting = t.localClass.worst t.remoteClass ∧
        t.cnu.flags.getLsbD 0 = true) ∧
      (∀ m : Fin 15, m ≠ src → t.tru.cond[m] = s.tru.cond[m] ∧ t.tru.latch[m] = s.tru.latch[m]) ∧
      OnlyTouches [.now, .tru, .cmu, .flags, .ptu, .lde] s t
    (∀ level, s.tru.tiLevel[n] ≠ level → s.readsActive n level = true →
      ∃ t, exec (.tripInputActive dt n level) s = .next t ∧ t.tru.tiLevel = setAt s.tru.tiLevel n level ∧
        (s.cfg.tiFilter[n] ≠ 0 →
          t.tru = { s.tru with tiLevel := setAt s.tru.tiLevel n level,
                               filter := setAt s.tru.filter n (some (s.now + dt)) } ∧ OnlyTouches [.now, .tru] s t) ∧
        (s.cfg.tiFilter[n] = 0 → s.tru.filter[n] = none → present t)) ∧
    (∀ start, s.tru.filter[n] = some start → s.cfg.tiFilter[n] * s.flu.interval ≤ (s.now + dt - start) * 256 →
      ∃ t, exec (.filterExpiry dt n) s = .next t ∧ t.tru.tiLevel = s.tru.tiLevel ∧ present t) ∧
    (∀ level, s.tru.tiLevel[n] ≠ level → s.readsActive n level = false →
      ∃ t, exec (.tripInputInactive dt n level) s = .next t ∧
        t.tru = { s.tru with
          tiLevel := setAt s.tru.tiLevel n level, filter := setAt s.tru.filter n none,
          cond := setAt s.tru.cond src false } ∧
        OnlyTouches [.now, .tru] s t)

/-- The lines of a configured camera channel. A leading edge of EXP stores an exposure with stamp, live reference and trigger
count, an exposure already stored being overrun with flag 13; a trailing edge stores none (R147, R148). A scheduled firing
whose phase is reached counts and starts the pulse (R145). The pulse ends when its width has passed, counted in the interval
as it stood at the firing: no later epoch changes it (R145; that interval is the model's choice, log 52). -/
def Obligations.CameraLinesTakeEffect : Prop :=
  ∀ (dt : Nat) (n : Fin 4) (cam : CamCfg) (s : State), s.Served → s.configured = true → s.cfg.cams[n] = some cam →
    let c := s.cmu.ch[n]
    (∀ level, c.expLevel ≠ level →
      ∃ t, exec (.exposureEdge dt n level) s = .next t ∧
        t.cmu.ch = setAt s.cmu.ch n (if level = cam.activeLow then { c with expLevel := level } else
          { c with
            expLevel := level, overrun := c.overrun || c.exposure.isSome,
            exposure := some {
              stamp := (s.elapse dt).stamp, count := c.count,
              ref := c.latestS + BitVec.ofInt 32 (if 0 ≤ c.latestQ then c.latestQ * (s.elapse dt).phase / 256
                else -(-c.latestQ * (s.elapse dt).phase / 256)) } }) ∧
        t.cnu.flags = (if level ≠ cam.activeLow ∧ c.exposure.isSome = true then withFlags s.cnu.flags [13]
          else s.cnu.flags) ∧
        OnlyTouches [.now, .cmu, .flags] s t) ∧
    (∀ p, c.sched = some p → p ≤ (s.elapse dt).phase →
      ∃ t, exec (.firing dt n) s = .next t ∧
        t.cmu.ch = setAt s.cmu.ch n { c with sched := none, count := c.count + 1, pulse := some (s.now + dt, s.flu.interval) } ∧
        OnlyTouches [.now, .cmu] s t) ∧
    (∀ start i, c.pulse = some (start, i) → cam.width * i ≤ (s.now + dt - start) * 256 →
      ∃ t, exec (.pulseTimerExpiry dt n) s = .next t ∧ t.cmu.ch = setAt s.cmu.ch n { c with pulse := none } ∧
        OnlyTouches [.now, .cmu] s t)

/-- The reading of the driven row: each of its keys is debounced by two equal readings, the other keys are as before, and the
next row is driven for 1 ms, it alone of the row lines (R179, R180); a press accepted alone with the lock free holds the lock
and is reported with its stamp (R181, R183). -/
def Obligations.RowReadingsAreDebounced : Prop :=
  ∀ (dt : Nat) (cols : BitVec 8) (kc : KeyCfg) (s : State), s.Served → s.configured = true → s.cfg.keys = some kc →
    s.ksc.nextRead ≤ s.now + dt →
    ∃ t, exec (.keyRowReading dt cols) s = .next t ∧
      t.ksc.row = s.ksc.row + 1 ∧ t.ksc.nextRead = s.ksc.nextRead + 125000 ∧
      t.rowLines = 1#8 <<< (s.ksc.row + 1).val ∧
      (∀ k : Fin 64, k.val / 8 = s.ksc.row.val →
        let read := cols.getLsbD (k.val % 8)
        let differs := s.ksc.debounced.getLsbD k.val != read
        t.ksc.debounced.getLsbD k.val = (if differs ∧ s.ksc.mark.getLsbD k.val = true then read
          else s.ksc.debounced.getLsbD k.val) ∧
        t.ksc.mark.getLsbD k.val = (differs && !s.ksc.mark.getLsbD k.val)) ∧
      (∀ k : Fin 64, k.val / 8 ≠ s.ksc.row.val →
        t.ksc.debounced.getLsbD k.val = s.ksc.debounced.getLsbD k.val ∧
        t.ksc.mark.getLsbD k.val = s.ksc.mark.getLsbD k.val) ∧
      t.ksc.writeIndex = s.ksc.writeIndex ∧ t.ksc.landedCount = s.ksc.landedCount ∧
      (∀ k : Fin 64, k.val / 8 = s.ksc.row.val → s.isStopKey k = false → s.ksc.lock = none →
        s.ksc.debounced.getLsbD k.val = false → s.ksc.mark.getLsbD k.val = true → cols.getLsbD (k.val % 8) = true →
        (∀ j : Fin 64, j ≠ k → j.val / 8 = s.ksc.row.val →
          s.ksc.debounced.getLsbD j.val = cols.getLsbD (j.val % 8)) → s.ksc.queue.length < 16 →
        t.ksc.lock = some k ∧ t.ksc.reported.getLsbD k.val = true ∧
        t.ksc.queue = s.ksc.queue ++ [{ key := k, press := true, stamp := (s.elapse dt).stamp }] ∧ t.tru = s.tru) ∧
      OnlyTouches [.now, .tru, .cmu, .ksc, .flags, .ptu, .lde] s t
end

