-- ==== Sys2Proof/Laws/State.lean ====
section
/-! SUPPORT. One lemma per field per update of one block of the state, true by rfl. -/

namespace Sys2Proof.Machine

variable (s : State)

@[simp] theorem State.onFlu_now (f : Flu → Flu) : (s.onFlu f).now = s.now := rfl
@[simp] theorem State.onFlu_free (f : Flu → Flu) : (s.onFlu f).free = s.free := rfl
@[simp] theorem State.onFlu_pending (f : Flu → Flu) : (s.onFlu f).pending = s.pending := rfl
@[simp] theorem State.onFlu_cfg (f : Flu → Flu) : (s.onFlu f).cfg = s.cfg := rfl
@[simp] theorem State.onFlu_flu (f : Flu → Flu) : (s.onFlu f).flu = f s.flu := rfl
@[simp] theorem State.onFlu_lsu (f : Flu → Flu) : (s.onFlu f).lsu = s.lsu := rfl
@[simp] theorem State.onFlu_axu (f : Flu → Flu) : (s.onFlu f).axu = s.axu := rfl
@[simp] theorem State.onFlu_tru (f : Flu → Flu) : (s.onFlu f).tru = s.tru := rfl
@[simp] theorem State.onFlu_slu (f : Flu → Flu) : (s.onFlu f).slu = s.slu := rfl
@[simp] theorem State.onFlu_cls (f : Flu → Flu) : (s.onFlu f).cls = s.cls := rfl
@[simp] theorem State.onFlu_cmu (f : Flu → Flu) : (s.onFlu f).cmu = s.cmu := rfl
@[simp] theorem State.onFlu_igu (f : Flu → Flu) : (s.onFlu f).igu = s.igu := rfl
@[simp] theorem State.onFlu_scu (f : Flu → Flu) : (s.onFlu f).scu = s.scu := rfl
@[simp] theorem State.onFlu_ksc (f : Flu → Flu) : (s.onFlu f).ksc = s.ksc := rfl
@[simp] theorem State.onFlu_cnu (f : Flu → Flu) : (s.onFlu f).cnu = s.cnu := rfl
@[simp] theorem State.onFlu_ptu (f : Flu → Flu) : (s.onFlu f).ptu = s.ptu := rfl
@[simp] theorem State.onFlu_lde (f : Flu → Flu) : (s.onFlu f).lde = s.lde := rfl
@[simp] theorem State.onFlu_mem (f : Flu → Flu) : (s.onFlu f).mem = s.mem := rfl

@[simp] theorem State.onLsu_now (f : Lsu → Lsu) : (s.onLsu f).now = s.now := rfl
@[simp] theorem State.onLsu_free (f : Lsu → Lsu) : (s.onLsu f).free = s.free := rfl
@[simp] theorem State.onLsu_pending (f : Lsu → Lsu) : (s.onLsu f).pending = s.pending := rfl
@[simp] theorem State.onLsu_cfg (f : Lsu → Lsu) : (s.onLsu f).cfg = s.cfg := rfl
@[simp] theorem State.onLsu_flu (f : Lsu → Lsu) : (s.onLsu f).flu = s.flu := rfl
@[simp] theorem State.onLsu_lsu (f : Lsu → Lsu) : (s.onLsu f).lsu = f s.lsu := rfl
@[simp] theorem State.onLsu_axu (f : Lsu → Lsu) : (s.onLsu f).axu = s.axu := rfl
@[simp] theorem State.onLsu_tru (f : Lsu → Lsu) : (s.onLsu f).tru = s.tru := rfl
@[simp] theorem State.onLsu_slu (f : Lsu → Lsu) : (s.onLsu f).slu = s.slu := rfl
@[simp] theorem State.onLsu_cls (f : Lsu → Lsu) : (s.onLsu f).cls = s.cls := rfl
@[simp] theorem State.onLsu_cmu (f : Lsu → Lsu) : (s.onLsu f).cmu = s.cmu := rfl
@[simp] theorem State.onLsu_igu (f : Lsu → Lsu) : (s.onLsu f).igu = s.igu := rfl
@[simp] theorem State.onLsu_scu (f : Lsu → Lsu) : (s.onLsu f).scu = s.scu := rfl
@[simp] theorem State.onLsu_ksc (f : Lsu → Lsu) : (s.onLsu f).ksc = s.ksc := rfl
@[simp] theorem State.onLsu_cnu (f : Lsu → Lsu) : (s.onLsu f).cnu = s.cnu := rfl
@[simp] theorem State.onLsu_ptu (f : Lsu → Lsu) : (s.onLsu f).ptu = s.ptu := rfl
@[simp] theorem State.onLsu_lde (f : Lsu → Lsu) : (s.onLsu f).lde = s.lde := rfl
@[simp] theorem State.onLsu_mem (f : Lsu → Lsu) : (s.onLsu f).mem = s.mem := rfl

@[simp] theorem State.onAxu_now (f : Axu → Axu) : (s.onAxu f).now = s.now := rfl
@[simp] theorem State.onAxu_free (f : Axu → Axu) : (s.onAxu f).free = s.free := rfl
@[simp] theorem State.onAxu_pending (f : Axu → Axu) : (s.onAxu f).pending = s.pending := rfl
@[simp] theorem State.onAxu_cfg (f : Axu → Axu) : (s.onAxu f).cfg = s.cfg := rfl
@[simp] theorem State.onAxu_flu (f : Axu → Axu) : (s.onAxu f).flu = s.flu := rfl
@[simp] theorem State.onAxu_lsu (f : Axu → Axu) : (s.onAxu f).lsu = s.lsu := rfl
@[simp] theorem State.onAxu_axu (f : Axu → Axu) : (s.onAxu f).axu = f s.axu := rfl
@[simp] theorem State.onAxu_tru (f : Axu → Axu) : (s.onAxu f).tru = s.tru := rfl
@[simp] theorem State.onAxu_slu (f : Axu → Axu) : (s.onAxu f).slu = s.slu := rfl
@[simp] theorem State.onAxu_cls (f : Axu → Axu) : (s.onAxu f).cls = s.cls := rfl
@[simp] theorem State.onAxu_cmu (f : Axu → Axu) : (s.onAxu f).cmu = s.cmu := rfl
@[simp] theorem State.onAxu_igu (f : Axu → Axu) : (s.onAxu f).igu = s.igu := rfl
@[simp] theorem State.onAxu_scu (f : Axu → Axu) : (s.onAxu f).scu = s.scu := rfl
@[simp] theorem State.onAxu_ksc (f : Axu → Axu) : (s.onAxu f).ksc = s.ksc := rfl
@[simp] theorem State.onAxu_cnu (f : Axu → Axu) : (s.onAxu f).cnu = s.cnu := rfl
@[simp] theorem State.onAxu_ptu (f : Axu → Axu) : (s.onAxu f).ptu = s.ptu := rfl
@[simp] theorem State.onAxu_lde (f : Axu → Axu) : (s.onAxu f).lde = s.lde := rfl
@[simp] theorem State.onAxu_mem (f : Axu → Axu) : (s.onAxu f).mem = s.mem := rfl

@[simp] theorem State.onTru_now (f : Tru → Tru) : (s.onTru f).now = s.now := rfl
@[simp] theorem State.onTru_free (f : Tru → Tru) : (s.onTru f).free = s.free := rfl
@[simp] theorem State.onTru_pending (f : Tru → Tru) : (s.onTru f).pending = s.pending := rfl
@[simp] theorem State.onTru_cfg (f : Tru → Tru) : (s.onTru f).cfg = s.cfg := rfl
@[simp] theorem State.onTru_flu (f : Tru → Tru) : (s.onTru f).flu = s.flu := rfl
@[simp] theorem State.onTru_lsu (f : Tru → Tru) : (s.onTru f).lsu = s.lsu := rfl
@[simp] theorem State.onTru_axu (f : Tru → Tru) : (s.onTru f).axu = s.axu := rfl
@[simp] theorem State.onTru_tru (f : Tru → Tru) : (s.onTru f).tru = f s.tru := rfl
@[simp] theorem State.onTru_slu (f : Tru → Tru) : (s.onTru f).slu = s.slu := rfl
@[simp] theorem State.onTru_cls (f : Tru → Tru) : (s.onTru f).cls = s.cls := rfl
@[simp] theorem State.onTru_cmu (f : Tru → Tru) : (s.onTru f).cmu = s.cmu := rfl
@[simp] theorem State.onTru_igu (f : Tru → Tru) : (s.onTru f).igu = s.igu := rfl
@[simp] theorem State.onTru_scu (f : Tru → Tru) : (s.onTru f).scu = s.scu := rfl
@[simp] theorem State.onTru_ksc (f : Tru → Tru) : (s.onTru f).ksc = s.ksc := rfl
@[simp] theorem State.onTru_cnu (f : Tru → Tru) : (s.onTru f).cnu = s.cnu := rfl
@[simp] theorem State.onTru_ptu (f : Tru → Tru) : (s.onTru f).ptu = s.ptu := rfl
@[simp] theorem State.onTru_lde (f : Tru → Tru) : (s.onTru f).lde = s.lde := rfl
@[simp] theorem State.onTru_mem (f : Tru → Tru) : (s.onTru f).mem = s.mem := rfl

@[simp] theorem State.onSlu_now (f : Slu → Slu) : (s.onSlu f).now = s.now := rfl
@[simp] theorem State.onSlu_free (f : Slu → Slu) : (s.onSlu f).free = s.free := rfl
@[simp] theorem State.onSlu_pending (f : Slu → Slu) : (s.onSlu f).pending = s.pending := rfl
@[simp] theorem State.onSlu_cfg (f : Slu → Slu) : (s.onSlu f).cfg = s.cfg := rfl
@[simp] theorem State.onSlu_flu (f : Slu → Slu) : (s.onSlu f).flu = s.flu := rfl
@[simp] theorem State.onSlu_lsu (f : Slu → Slu) : (s.onSlu f).lsu = s.lsu := rfl
@[simp] theorem State.onSlu_axu (f : Slu → Slu) : (s.onSlu f).axu = s.axu := rfl
@[simp] theorem State.onSlu_tru (f : Slu → Slu) : (s.onSlu f).tru = s.tru := rfl
@[simp] theorem State.onSlu_slu (f : Slu → Slu) : (s.onSlu f).slu = f s.slu := rfl
@[simp] theorem State.onSlu_cls (f : Slu → Slu) : (s.onSlu f).cls = s.cls := rfl
@[simp] theorem State.onSlu_cmu (f : Slu → Slu) : (s.onSlu f).cmu = s.cmu := rfl
@[simp] theorem State.onSlu_igu (f : Slu → Slu) : (s.onSlu f).igu = s.igu := rfl
@[simp] theorem State.onSlu_scu (f : Slu → Slu) : (s.onSlu f).scu = s.scu := rfl
@[simp] theorem State.onSlu_ksc (f : Slu → Slu) : (s.onSlu f).ksc = s.ksc := rfl
@[simp] theorem State.onSlu_cnu (f : Slu → Slu) : (s.onSlu f).cnu = s.cnu := rfl
@[simp] theorem State.onSlu_ptu (f : Slu → Slu) : (s.onSlu f).ptu = s.ptu := rfl
@[simp] theorem State.onSlu_lde (f : Slu → Slu) : (s.onSlu f).lde = s.lde := rfl
@[simp] theorem State.onSlu_mem (f : Slu → Slu) : (s.onSlu f).mem = s.mem := rfl

@[simp] theorem State.onCls_now (f : Cls → Cls) : (s.onCls f).now = s.now := rfl
@[simp] theorem State.onCls_free (f : Cls → Cls) : (s.onCls f).free = s.free := rfl
@[simp] theorem State.onCls_pending (f : Cls → Cls) : (s.onCls f).pending = s.pending := rfl
@[simp] theorem State.onCls_cfg (f : Cls → Cls) : (s.onCls f).cfg = s.cfg := rfl
@[simp] theorem State.onCls_flu (f : Cls → Cls) : (s.onCls f).flu = s.flu := rfl
@[simp] theorem State.onCls_lsu (f : Cls → Cls) : (s.onCls f).lsu = s.lsu := rfl
@[simp] theorem State.onCls_axu (f : Cls → Cls) : (s.onCls f).axu = s.axu := rfl
@[simp] theorem State.onCls_tru (f : Cls → Cls) : (s.onCls f).tru = s.tru := rfl
@[simp] theorem State.onCls_slu (f : Cls → Cls) : (s.onCls f).slu = s.slu := rfl
@[simp] theorem State.onCls_cls (f : Cls → Cls) : (s.onCls f).cls = f s.cls := rfl
@[simp] theorem State.onCls_cmu (f : Cls → Cls) : (s.onCls f).cmu = s.cmu := rfl
@[simp] theorem State.onCls_igu (f : Cls → Cls) : (s.onCls f).igu = s.igu := rfl
@[simp] theorem State.onCls_scu (f : Cls → Cls) : (s.onCls f).scu = s.scu := rfl
@[simp] theorem State.onCls_ksc (f : Cls → Cls) : (s.onCls f).ksc = s.ksc := rfl
@[simp] theorem State.onCls_cnu (f : Cls → Cls) : (s.onCls f).cnu = s.cnu := rfl
@[simp] theorem State.onCls_ptu (f : Cls → Cls) : (s.onCls f).ptu = s.ptu := rfl
@[simp] theorem State.onCls_lde (f : Cls → Cls) : (s.onCls f).lde = s.lde := rfl
@[simp] theorem State.onCls_mem (f : Cls → Cls) : (s.onCls f).mem = s.mem := rfl

@[simp] theorem State.onCmu_now (f : Cmu → Cmu) : (s.onCmu f).now = s.now := rfl
@[simp] theorem State.onCmu_free (f : Cmu → Cmu) : (s.onCmu f).free = s.free := rfl
@[simp] theorem State.onCmu_pending (f : Cmu → Cmu) : (s.onCmu f).pending = s.pending := rfl
@[simp] theorem State.onCmu_cfg (f : Cmu → Cmu) : (s.onCmu f).cfg = s.cfg := rfl
@[simp] theorem State.onCmu_flu (f : Cmu → Cmu) : (s.onCmu f).flu = s.flu := rfl
@[simp] theorem State.onCmu_lsu (f : Cmu → Cmu) : (s.onCmu f).lsu = s.lsu := rfl
@[simp] theorem State.onCmu_axu (f : Cmu → Cmu) : (s.onCmu f).axu = s.axu := rfl
@[simp] theorem State.onCmu_tru (f : Cmu → Cmu) : (s.onCmu f).tru = s.tru := rfl
@[simp] theorem State.onCmu_slu (f : Cmu → Cmu) : (s.onCmu f).slu = s.slu := rfl
@[simp] theorem State.onCmu_cls (f : Cmu → Cmu) : (s.onCmu f).cls = s.cls := rfl
@[simp] theorem State.onCmu_cmu (f : Cmu → Cmu) : (s.onCmu f).cmu = f s.cmu := rfl
@[simp] theorem State.onCmu_igu (f : Cmu → Cmu) : (s.onCmu f).igu = s.igu := rfl
@[simp] theorem State.onCmu_scu (f : Cmu → Cmu) : (s.onCmu f).scu = s.scu := rfl
@[simp] theorem State.onCmu_ksc (f : Cmu → Cmu) : (s.onCmu f).ksc = s.ksc := rfl
@[simp] theorem State.onCmu_cnu (f : Cmu → Cmu) : (s.onCmu f).cnu = s.cnu := rfl
@[simp] theorem State.onCmu_ptu (f : Cmu → Cmu) : (s.onCmu f).ptu = s.ptu := rfl
@[simp] theorem State.onCmu_lde (f : Cmu → Cmu) : (s.onCmu f).lde = s.lde := rfl
@[simp] theorem State.onCmu_mem (f : Cmu → Cmu) : (s.onCmu f).mem = s.mem := rfl

@[simp] theorem State.onIgu_now (f : Igu → Igu) : (s.onIgu f).now = s.now := rfl
@[simp] theorem State.onIgu_free (f : Igu → Igu) : (s.onIgu f).free = s.free := rfl
@[simp] theorem State.onIgu_pending (f : Igu → Igu) : (s.onIgu f).pending = s.pending := rfl
@[simp] theorem State.onIgu_cfg (f : Igu → Igu) : (s.onIgu f).cfg = s.cfg := rfl
@[simp] theorem State.onIgu_flu (f : Igu → Igu) : (s.onIgu f).flu = s.flu := rfl
@[simp] theorem State.onIgu_lsu (f : Igu → Igu) : (s.onIgu f).lsu = s.lsu := rfl
@[simp] theorem State.onIgu_axu (f : Igu → Igu) : (s.onIgu f).axu = s.axu := rfl
@[simp] theorem State.onIgu_tru (f : Igu → Igu) : (s.onIgu f).tru = s.tru := rfl
@[simp] theorem State.onIgu_slu (f : Igu → Igu) : (s.onIgu f).slu = s.slu := rfl
@[simp] theorem State.onIgu_cls (f : Igu → Igu) : (s.onIgu f).cls = s.cls := rfl
@[simp] theorem State.onIgu_cmu (f : Igu → Igu) : (s.onIgu f).cmu = s.cmu := rfl
@[simp] theorem State.onIgu_igu (f : Igu → Igu) : (s.onIgu f).igu = f s.igu := rfl
@[simp] theorem State.onIgu_scu (f : Igu → Igu) : (s.onIgu f).scu = s.scu := rfl
@[simp] theorem State.onIgu_ksc (f : Igu → Igu) : (s.onIgu f).ksc = s.ksc := rfl
@[simp] theorem State.onIgu_cnu (f : Igu → Igu) : (s.onIgu f).cnu = s.cnu := rfl
@[simp] theorem State.onIgu_ptu (f : Igu → Igu) : (s.onIgu f).ptu = s.ptu := rfl
@[simp] theorem State.onIgu_lde (f : Igu → Igu) : (s.onIgu f).lde = s.lde := rfl
@[simp] theorem State.onIgu_mem (f : Igu → Igu) : (s.onIgu f).mem = s.mem := rfl

@[simp] theorem State.onScu_now (f : Scu → Scu) : (s.onScu f).now = s.now := rfl
@[simp] theorem State.onScu_free (f : Scu → Scu) : (s.onScu f).free = s.free := rfl
@[simp] theorem State.onScu_pending (f : Scu → Scu) : (s.onScu f).pending = s.pending := rfl
@[simp] theorem State.onScu_cfg (f : Scu → Scu) : (s.onScu f).cfg = s.cfg := rfl
@[simp] theorem State.onScu_flu (f : Scu → Scu) : (s.onScu f).flu = s.flu := rfl
@[simp] theorem State.onScu_lsu (f : Scu → Scu) : (s.onScu f).lsu = s.lsu := rfl
@[simp] theorem State.onScu_axu (f : Scu → Scu) : (s.onScu f).axu = s.axu := rfl
@[simp] theorem State.onScu_tru (f : Scu → Scu) : (s.onScu f).tru = s.tru := rfl
@[simp] theorem State.onScu_slu (f : Scu → Scu) : (s.onScu f).slu = s.slu := rfl
@[simp] theorem State.onScu_cls (f : Scu → Scu) : (s.onScu f).cls = s.cls := rfl
@[simp] theorem State.onScu_cmu (f : Scu → Scu) : (s.onScu f).cmu = s.cmu := rfl
@[simp] theorem State.onScu_igu (f : Scu → Scu) : (s.onScu f).igu = s.igu := rfl
@[simp] theorem State.onScu_scu (f : Scu → Scu) : (s.onScu f).scu = f s.scu := rfl
@[simp] theorem State.onScu_ksc (f : Scu → Scu) : (s.onScu f).ksc = s.ksc := rfl
@[simp] theorem State.onScu_cnu (f : Scu → Scu) : (s.onScu f).cnu = s.cnu := rfl
@[simp] theorem State.onScu_ptu (f : Scu → Scu) : (s.onScu f).ptu = s.ptu := rfl
@[simp] theorem State.onScu_lde (f : Scu → Scu) : (s.onScu f).lde = s.lde := rfl
@[simp] theorem State.onScu_mem (f : Scu → Scu) : (s.onScu f).mem = s.mem := rfl

@[simp] theorem State.onKsc_now (f : Ksc → Ksc) : (s.onKsc f).now = s.now := rfl
@[simp] theorem State.onKsc_free (f : Ksc → Ksc) : (s.onKsc f).free = s.free := rfl
@[simp] theorem State.onKsc_pending (f : Ksc → Ksc) : (s.onKsc f).pending = s.pending := rfl
@[simp] theorem State.onKsc_cfg (f : Ksc → Ksc) : (s.onKsc f).cfg = s.cfg := rfl
@[simp] theorem State.onKsc_flu (f : Ksc → Ksc) : (s.onKsc f).flu = s.flu := rfl
@[simp] theorem State.onKsc_lsu (f : Ksc → Ksc) : (s.onKsc f).lsu = s.lsu := rfl
@[simp] theorem State.onKsc_axu (f : Ksc → Ksc) : (s.onKsc f).axu = s.axu := rfl
@[simp] theorem State.onKsc_tru (f : Ksc → Ksc) : (s.onKsc f).tru = s.tru := rfl
@[simp] theorem State.onKsc_slu (f : Ksc → Ksc) : (s.onKsc f).slu = s.slu := rfl
@[simp] theorem State.onKsc_cls (f : Ksc → Ksc) : (s.onKsc f).cls = s.cls := rfl
@[simp] theorem State.onKsc_cmu (f : Ksc → Ksc) : (s.onKsc f).cmu = s.cmu := rfl
@[simp] theorem State.onKsc_igu (f : Ksc → Ksc) : (s.onKsc f).igu = s.igu := rfl
@[simp] theorem State.onKsc_scu (f : Ksc → Ksc) : (s.onKsc f).scu = s.scu := rfl
@[simp] theorem State.onKsc_ksc (f : Ksc → Ksc) : (s.onKsc f).ksc = f s.ksc := rfl
@[simp] theorem State.onKsc_cnu (f : Ksc → Ksc) : (s.onKsc f).cnu = s.cnu := rfl
@[simp] theorem State.onKsc_ptu (f : Ksc → Ksc) : (s.onKsc f).ptu = s.ptu := rfl
@[simp] theorem State.onKsc_lde (f : Ksc → Ksc) : (s.onKsc f).lde = s.lde := rfl
@[simp] theorem State.onKsc_mem (f : Ksc → Ksc) : (s.onKsc f).mem = s.mem := rfl

@[simp] theorem State.onCnu_now (f : Cnu → Cnu) : (s.onCnu f).now = s.now := rfl
@[simp] theorem State.onCnu_free (f : Cnu → Cnu) : (s.onCnu f).free = s.free := rfl
@[simp] theorem State.onCnu_pending (f : Cnu → Cnu) : (s.onCnu f).pending = s.pending := rfl
@[simp] theorem State.onCnu_cfg (f : Cnu → Cnu) : (s.onCnu f).cfg = s.cfg := rfl
@[simp] theorem State.onCnu_flu (f : Cnu → Cnu) : (s.onCnu f).flu = s.flu := rfl
@[simp] theorem State.onCnu_lsu (f : Cnu → Cnu) : (s.onCnu f).lsu = s.lsu := rfl
@[simp] theorem State.onCnu_axu (f : Cnu → Cnu) : (s.onCnu f).axu = s.axu := rfl
@[simp] theorem State.onCnu_tru (f : Cnu → Cnu) : (s.onCnu f).tru = s.tru := rfl
@[simp] theorem State.onCnu_slu (f : Cnu → Cnu) : (s.onCnu f).slu = s.slu := rfl
@[simp] theorem State.onCnu_cls (f : Cnu → Cnu) : (s.onCnu f).cls = s.cls := rfl
@[simp] theorem State.onCnu_cmu (f : Cnu → Cnu) : (s.onCnu f).cmu = s.cmu := rfl
@[simp] theorem State.onCnu_igu (f : Cnu → Cnu) : (s.onCnu f).igu = s.igu := rfl
@[simp] theorem State.onCnu_scu (f : Cnu → Cnu) : (s.onCnu f).scu = s.scu := rfl
@[simp] theorem State.onCnu_ksc (f : Cnu → Cnu) : (s.onCnu f).ksc = s.ksc := rfl
@[simp] theorem State.onCnu_cnu (f : Cnu → Cnu) : (s.onCnu f).cnu = f s.cnu := rfl
@[simp] theorem State.onCnu_ptu (f : Cnu → Cnu) : (s.onCnu f).ptu = s.ptu := rfl
@[simp] theorem State.onCnu_lde (f : Cnu → Cnu) : (s.onCnu f).lde = s.lde := rfl
@[simp] theorem State.onCnu_mem (f : Cnu → Cnu) : (s.onCnu f).mem = s.mem := rfl

@[simp] theorem State.onPtu_now (f : Ptu → Ptu) : (s.onPtu f).now = s.now := rfl
@[simp] theorem State.onPtu_free (f : Ptu → Ptu) : (s.onPtu f).free = s.free := rfl
@[simp] theorem State.onPtu_pending (f : Ptu → Ptu) : (s.onPtu f).pending = s.pending := rfl
@[simp] theorem State.onPtu_cfg (f : Ptu → Ptu) : (s.onPtu f).cfg = s.cfg := rfl
@[simp] theorem State.onPtu_flu (f : Ptu → Ptu) : (s.onPtu f).flu = s.flu := rfl
@[simp] theorem State.onPtu_lsu (f : Ptu → Ptu) : (s.onPtu f).lsu = s.lsu := rfl
@[simp] theorem State.onPtu_axu (f : Ptu → Ptu) : (s.onPtu f).axu = s.axu := rfl
@[simp] theorem State.onPtu_tru (f : Ptu → Ptu) : (s.onPtu f).tru = s.tru := rfl
@[simp] theorem State.onPtu_slu (f : Ptu → Ptu) : (s.onPtu f).slu = s.slu := rfl
@[simp] theorem State.onPtu_cls (f : Ptu → Ptu) : (s.onPtu f).cls = s.cls := rfl
@[simp] theorem State.onPtu_cmu (f : Ptu → Ptu) : (s.onPtu f).cmu = s.cmu := rfl
@[simp] theorem State.onPtu_igu (f : Ptu → Ptu) : (s.onPtu f).igu = s.igu := rfl
@[simp] theorem State.onPtu_scu (f : Ptu → Ptu) : (s.onPtu f).scu = s.scu := rfl
@[simp] theorem State.onPtu_ksc (f : Ptu → Ptu) : (s.onPtu f).ksc = s.ksc := rfl
@[simp] theorem State.onPtu_cnu (f : Ptu → Ptu) : (s.onPtu f).cnu = s.cnu := rfl
@[simp] theorem State.onPtu_ptu (f : Ptu → Ptu) : (s.onPtu f).ptu = f s.ptu := rfl
@[simp] theorem State.onPtu_lde (f : Ptu → Ptu) : (s.onPtu f).lde = s.lde := rfl
@[simp] theorem State.onPtu_mem (f : Ptu → Ptu) : (s.onPtu f).mem = s.mem := rfl

@[simp] theorem State.onLde_now (f : Lde → Lde) : (s.onLde f).now = s.now := rfl
@[simp] theorem State.onLde_free (f : Lde → Lde) : (s.onLde f).free = s.free := rfl
@[simp] theorem State.onLde_pending (f : Lde → Lde) : (s.onLde f).pending = s.pending := rfl
@[simp] theorem State.onLde_cfg (f : Lde → Lde) : (s.onLde f).cfg = s.cfg := rfl
@[simp] theorem State.onLde_flu (f : Lde → Lde) : (s.onLde f).flu = s.flu := rfl
@[simp] theorem State.onLde_lsu (f : Lde → Lde) : (s.onLde f).lsu = s.lsu := rfl
@[simp] theorem State.onLde_axu (f : Lde → Lde) : (s.onLde f).axu = s.axu := rfl
@[simp] theorem State.onLde_tru (f : Lde → Lde) : (s.onLde f).tru = s.tru := rfl
@[simp] theorem State.onLde_slu (f : Lde → Lde) : (s.onLde f).slu = s.slu := rfl
@[simp] theorem State.onLde_cls (f : Lde → Lde) : (s.onLde f).cls = s.cls := rfl
@[simp] theorem State.onLde_cmu (f : Lde → Lde) : (s.onLde f).cmu = s.cmu := rfl
@[simp] theorem State.onLde_igu (f : Lde → Lde) : (s.onLde f).igu = s.igu := rfl
@[simp] theorem State.onLde_scu (f : Lde → Lde) : (s.onLde f).scu = s.scu := rfl
@[simp] theorem State.onLde_ksc (f : Lde → Lde) : (s.onLde f).ksc = s.ksc := rfl
@[simp] theorem State.onLde_cnu (f : Lde → Lde) : (s.onLde f).cnu = s.cnu := rfl
@[simp] theorem State.onLde_ptu (f : Lde → Lde) : (s.onLde f).ptu = s.ptu := rfl
@[simp] theorem State.onLde_lde (f : Lde → Lde) : (s.onLde f).lde = f s.lde := rfl
@[simp] theorem State.onLde_mem (f : Lde → Lde) : (s.onLde f).mem = s.mem := rfl

@[simp] theorem State.onMem_now (f : List Host.Cell → List Host.Cell) : (s.onMem f).now = s.now := rfl
@[simp] theorem State.onMem_free (f : List Host.Cell → List Host.Cell) : (s.onMem f).free = s.free := rfl
@[simp] theorem State.onMem_pending (f : List Host.Cell → List Host.Cell) : (s.onMem f).pending = s.pending := rfl
@[simp] theorem State.onMem_cfg (f : List Host.Cell → List Host.Cell) : (s.onMem f).cfg = s.cfg := rfl
@[simp] theorem State.onMem_flu (f : List Host.Cell → List Host.Cell) : (s.onMem f).flu = s.flu := rfl
@[simp] theorem State.onMem_lsu (f : List Host.Cell → List Host.Cell) : (s.onMem f).lsu = s.lsu := rfl
@[simp] theorem State.onMem_axu (f : List Host.Cell → List Host.Cell) : (s.onMem f).axu = s.axu := rfl
@[simp] theorem State.onMem_tru (f : List Host.Cell → List Host.Cell) : (s.onMem f).tru = s.tru := rfl
@[simp] theorem State.onMem_slu (f : List Host.Cell → List Host.Cell) : (s.onMem f).slu = s.slu := rfl
@[simp] theorem State.onMem_cls (f : List Host.Cell → List Host.Cell) : (s.onMem f).cls = s.cls := rfl
@[simp] theorem State.onMem_cmu (f : List Host.Cell → List Host.Cell) : (s.onMem f).cmu = s.cmu := rfl
@[simp] theorem State.onMem_igu (f : List Host.Cell → List Host.Cell) : (s.onMem f).igu = s.igu := rfl
@[simp] theorem State.onMem_scu (f : List Host.Cell → List Host.Cell) : (s.onMem f).scu = s.scu := rfl
@[simp] theorem State.onMem_ksc (f : List Host.Cell → List Host.Cell) : (s.onMem f).ksc = s.ksc := rfl
@[simp] theorem State.onMem_cnu (f : List Host.Cell → List Host.Cell) : (s.onMem f).cnu = s.cnu := rfl
@[simp] theorem State.onMem_ptu (f : List Host.Cell → List Host.Cell) : (s.onMem f).ptu = s.ptu := rfl
@[simp] theorem State.onMem_lde (f : List Host.Cell → List Host.Cell) : (s.onMem f).lde = s.lde := rfl
@[simp] theorem State.onMem_mem (f : List Host.Cell → List Host.Cell) : (s.onMem f).mem = f s.mem := rfl

@[simp] theorem State.elapse_free (dt : Nat) : (s.elapse dt).free = s.free := rfl
@[simp] theorem State.elapse_pending (dt : Nat) : (s.elapse dt).pending = s.pending := rfl
@[simp] theorem State.elapse_cfg (dt : Nat) : (s.elapse dt).cfg = s.cfg := rfl
@[simp] theorem State.elapse_flu (dt : Nat) : (s.elapse dt).flu = s.flu := rfl
@[simp] theorem State.elapse_lsu (dt : Nat) : (s.elapse dt).lsu = s.lsu := rfl
@[simp] theorem State.elapse_axu (dt : Nat) : (s.elapse dt).axu = s.axu := rfl
@[simp] theorem State.elapse_tru (dt : Nat) : (s.elapse dt).tru = s.tru := rfl
@[simp] theorem State.elapse_slu (dt : Nat) : (s.elapse dt).slu = s.slu := rfl
@[simp] theorem State.elapse_cls (dt : Nat) : (s.elapse dt).cls = s.cls := rfl
@[simp] theorem State.elapse_cmu (dt : Nat) : (s.elapse dt).cmu = s.cmu := rfl
@[simp] theorem State.elapse_igu (dt : Nat) : (s.elapse dt).igu = s.igu := rfl
@[simp] theorem State.elapse_scu (dt : Nat) : (s.elapse dt).scu = s.scu := rfl
@[simp] theorem State.elapse_ksc (dt : Nat) : (s.elapse dt).ksc = s.ksc := rfl
@[simp] theorem State.elapse_cnu (dt : Nat) : (s.elapse dt).cnu = s.cnu := rfl
@[simp] theorem State.elapse_ptu (dt : Nat) : (s.elapse dt).ptu = s.ptu := rfl
@[simp] theorem State.elapse_lde (dt : Nat) : (s.elapse dt).lde = s.lde := rfl
@[simp] theorem State.elapse_mem (dt : Nat) : (s.elapse dt).mem = s.mem := rfl
@[simp] theorem State.elapse_now (dt : Nat) : (s.elapse dt).now = s.now + dt := rfl

@[simp] theorem State.notify_now (n : Nat) : (s.notify n).now = s.now := rfl
@[simp] theorem State.notifyIf_now (b : Bool) (n : Nat) : (s.notifyIf b n).now = s.now := by cases b <;> rfl
@[simp] theorem State.notify_free (n : Nat) : (s.notify n).free = s.free := rfl
@[simp] theorem State.notifyIf_free (b : Bool) (n : Nat) : (s.notifyIf b n).free = s.free := by cases b <;> rfl
@[simp] theorem State.notify_pending (n : Nat) : (s.notify n).pending = s.pending := rfl
@[simp] theorem State.notifyIf_pending (b : Bool) (n : Nat) : (s.notifyIf b n).pending = s.pending := by cases b <;> rfl
@[simp] theorem State.notify_cfg (n : Nat) : (s.notify n).cfg = s.cfg := rfl
@[simp] theorem State.notifyIf_cfg (b : Bool) (n : Nat) : (s.notifyIf b n).cfg = s.cfg := by cases b <;> rfl
@[simp] theorem State.notify_flu (n : Nat) : (s.notify n).flu = s.flu := rfl
@[simp] theorem State.notifyIf_flu (b : Bool) (n : Nat) : (s.notifyIf b n).flu = s.flu := by cases b <;> rfl
@[simp] theorem State.notify_lsu (n : Nat) : (s.notify n).lsu = s.lsu := rfl
@[simp] theorem State.notifyIf_lsu (b : Bool) (n : Nat) : (s.notifyIf b n).lsu = s.lsu := by cases b <;> rfl
@[simp] theorem State.notify_axu (n : Nat) : (s.notify n).axu = s.axu := rfl
@[simp] theorem State.notifyIf_axu (b : Bool) (n : Nat) : (s.notifyIf b n).axu = s.axu := by cases b <;> rfl
@[simp] theorem State.notify_tru (n : Nat) : (s.notify n).tru = s.tru := rfl
@[simp] theorem State.notifyIf_tru (b : Bool) (n : Nat) : (s.notifyIf b n).tru = s.tru := by cases b <;> rfl
@[simp] theorem State.notify_slu (n : Nat) : (s.notify n).slu = s.slu := rfl
@[simp] theorem State.notifyIf_slu (b : Bool) (n : Nat) : (s.notifyIf b n).slu = s.slu := by cases b <;> rfl
@[simp] theorem State.notify_cls (n : Nat) : (s.notify n).cls = s.cls := rfl
@[simp] theorem State.notifyIf_cls (b : Bool) (n : Nat) : (s.notifyIf b n).cls = s.cls := by cases b <;> rfl
@[simp] theorem State.notify_cmu (n : Nat) : (s.notify n).cmu = s.cmu := rfl
@[simp] theorem State.notifyIf_cmu (b : Bool) (n : Nat) : (s.notifyIf b n).cmu = s.cmu := by cases b <;> rfl
@[simp] theorem State.notify_igu (n : Nat) : (s.notify n).igu = s.igu := rfl
@[simp] theorem State.notifyIf_igu (b : Bool) (n : Nat) : (s.notifyIf b n).igu = s.igu := by cases b <;> rfl
@[simp] theorem State.notify_scu (n : Nat) : (s.notify n).scu = s.scu := rfl
@[simp] theorem State.notifyIf_scu (b : Bool) (n : Nat) : (s.notifyIf b n).scu = s.scu := by cases b <;> rfl
@[simp] theorem State.notify_ksc (n : Nat) : (s.notify n).ksc = s.ksc := rfl
@[simp] theorem State.notifyIf_ksc (b : Bool) (n : Nat) : (s.notifyIf b n).ksc = s.ksc := by cases b <;> rfl
@[simp] theorem State.notify_ptu (n : Nat) : (s.notify n).ptu = s.ptu := rfl
@[simp] theorem State.notifyIf_ptu (b : Bool) (n : Nat) : (s.notifyIf b n).ptu = s.ptu := by cases b <;> rfl
@[simp] theorem State.notify_lde (n : Nat) : (s.notify n).lde = s.lde := rfl
@[simp] theorem State.notifyIf_lde (b : Bool) (n : Nat) : (s.notifyIf b n).lde = s.lde := by cases b <;> rfl
@[simp] theorem State.notify_mem (n : Nat) : (s.notify n).mem = s.mem := rfl
@[simp] theorem State.notifyIf_mem (b : Bool) (n : Nat) : (s.notifyIf b n).mem = s.mem := by cases b <;> rfl
@[simp] theorem State.notify_status (n : Nat) : (s.notify n).cnu.status = s.cnu.status := rfl
@[simp] theorem State.notifyIf_status (b : Bool) (n : Nat) : (s.notifyIf b n).cnu.status = s.cnu.status := by cases b <;> rfl
@[simp] theorem State.notify_flash (n : Nat) : (s.notify n).cnu.flash = s.cnu.flash := rfl
@[simp] theorem State.notifyIf_flash (b : Bool) (n : Nat) : (s.notifyIf b n).cnu.flash = s.cnu.flash := by cases b <;> rfl
@[simp] theorem State.notify_fcs (n : Nat) : (s.notify n).cnu.fcs = s.cnu.fcs := rfl
@[simp] theorem State.notifyIf_fcs (b : Bool) (n : Nat) : (s.notifyIf b n).cnu.fcs = s.cnu.fcs := by cases b <;> rfl
@[simp] theorem State.notify_spiOut (n : Nat) : (s.notify n).cnu.spiOut = s.cnu.spiOut := rfl
@[simp] theorem State.notifyIf_spiOut (b : Bool) (n : Nat) : (s.notifyIf b n).cnu.spiOut = s.cnu.spiOut := by cases b <;> rfl
@[simp] theorem State.notify_mask (n : Nat) : (s.notify n).cnu.mask = s.cnu.mask := rfl
@[simp] theorem State.notifyIf_mask (b : Bool) (n : Nat) : (s.notifyIf b n).cnu.mask = s.cnu.mask := by cases b <;> rfl
@[simp] theorem State.notify_flags (n : Nat) : (s.notify n).cnu.flags = s.cnu.flags ||| (1#16 <<< n) := rfl

end Sys2Proof.Machine
end

