-- ==== Sys2Proof/Laws/Frames.lean ====
section
/-! SUPPORT. For every operation over the state: the parts it can change, and that it keeps a sound state sound. -/

namespace Sys2Proof.Machine

/-- From `s` to `t` only the listed parts change, and a sound state stays sound. -/
structure Frame (ps : List Part) (s t : State) : Prop where
  only : OnlyTouches ps s t
  sound : s.Sound → t.Sound

/-- A number for each part. -/
def Part.idx (p : Part) : Nat :=
  match p with
  | .now => 0 | .free => 1 | .pending => 2 | .cfg => 3 | .flu => 4 | .lsu => 5 | .axu => 6 | .tru => 7 | .slu => 8
  | .cls => 9 | .cmu => 10 | .igu => 11 | .scu => 12 | .ksc => 13 | .cnu => 14 | .flags => 15 | .ptu => 16
  | .shadow => 17 | .lde => 18 | .mem => 19

theorem Part.idx_inj (p q : Part) (h : p.idx = q.idx) : p = q := by
  cases p <;> cases q <;> first | rfl | cases h

/-- A list of parts as a number, one bit a part. -/
def partMask (ps : List Part) : Nat :=
  match ps with
  | [] => 0
  | p :: r => 2 ^ p.idx ||| partMask r

theorem partMask_mem (ps : List Part) (p : Part) : (partMask ps).testBit p.idx = true ↔ p ∈ ps := by
  induction ps with
  | nil => simp [partMask]
  | cons q r ih =>
    simp only [partMask, Nat.testBit_or, Nat.testBit_two_pow, Bool.or_eq_true, decide_eq_true_eq, ih, List.mem_cons]
    exact or_congr ⟨fun h => (Part.idx_inj _ _ h).symm, fun h => h ▸ rfl⟩ Iff.rfl

/-- A list of parts within another. -/
def within (ps qs : List Part) : Bool := Nat.beq (partMask ps ||| partMask qs) (partMask qs)

theorem within_mem {ps qs : List Part} (h : within ps qs = true) {p : Part} (hp : p ∉ qs) : p ∉ ps := by
  intro hm
  have h := Nat.eq_of_beq_eq_true h
  rw [← partMask_mem] at hm
  refine hp ((partMask_mem _ _).1 ?_)
  rw [← h, Nat.testBit_or, hm]
  rfl

theorem within_refl (ps : List Part) : within ps ps = true := by simp [within]

theorem Part.same_refl (p : Part) (s : State) : p.same s s := by cases p <;> rfl

theorem Part.same_trans (p : Part) {s t u : State} (h : p.same s t) (k : p.same t u) : p.same s u := by
  cases p <;> exact Eq.trans k h

theorem Frame.refl (ps : List Part) (s : State) : Frame ps s s := ⟨fun p _ => p.same_refl s, id⟩

theorem Frame.comp {ps qs : List Part} {s t u : State} (h : Frame qs s t) (k : Frame ps t u)
    (m : within ps qs = true := by rfl) : Frame qs s u :=
  ⟨fun p hp => Part.same_trans p (h.only p hp) (k.only p (within_mem m hp)), fun x => k.sound (h.sound x)⟩

theorem Frame.mono {ps qs : List Part} {s t : State} (h : Frame ps s t) (m : within ps qs = true := by rfl) :
    Frame qs s t := (Frame.refl qs s).comp h m

/-! ### Updates of one block -/

theorem State.onFlu_fr (s : State) (f : Flu → Flu) : Frame [.flu] s (s.onFlu f) :=
  ⟨fun p hp => by cases p <;> first | rfl | simp at hp, fun h => ⟨h.1, h.2, h.3, h.4, h.5, h.6⟩⟩
theorem State.onLsu_fr (s : State) (f : Lsu → Lsu) : Frame [.lsu] s (s.onLsu f) :=
  ⟨fun p hp => by cases p <;> first | rfl | simp at hp, fun h => ⟨h.1, h.2, h.3, h.4, h.5, h.6⟩⟩
theorem State.onAxu_fr (s : State) (f : Axu → Axu) : Frame [.axu] s (s.onAxu f) :=
  ⟨fun p hp => by cases p <;> first | rfl | simp at hp, fun h => ⟨h.1, h.2, h.3, h.4, h.5, h.6⟩⟩
theorem State.onTru_fr (s : State) (f : Tru → Tru) : Frame [.tru] s (s.onTru f) :=
  ⟨fun p hp => by cases p <;> first | rfl | simp at hp, fun h => ⟨h.1, h.2, h.3, h.4, h.5, h.6⟩⟩
theorem State.onSlu_fr (s : State) (f : Slu → Slu) : Frame [.slu] s (s.onSlu f) :=
  ⟨fun p hp => by cases p <;> first | rfl | simp at hp, fun h => ⟨h.1, h.2, h.3, h.4, h.5, h.6⟩⟩
theorem State.onCls_fr (s : State) (f : Cls → Cls) : Frame [.cls] s (s.onCls f) :=
  ⟨fun p hp => by cases p <;> first | rfl | simp at hp, fun h => ⟨h.1, h.2, h.3, h.4, h.5, h.6⟩⟩
theorem State.onCmu_fr (s : State) (f : Cmu → Cmu) : Frame [.cmu] s (s.onCmu f) :=
  ⟨fun p hp => by cases p <;> first | rfl | simp at hp, fun h => ⟨h.1, h.2, h.3, h.4, h.5, h.6⟩⟩
theorem State.onScu_fr (s : State) (f : Scu → Scu) : Frame [.scu] s (s.onScu f) :=
  ⟨fun p hp => by cases p <;> first | rfl | simp at hp, fun h => ⟨h.1, h.2, h.3, h.4, h.5, h.6⟩⟩

theorem State.onIgu_fr (s : State) (f : Igu → Igu) (hf : (f s.igu).tx.length ≤ max s.igu.tx.length Config.txPlaces) :
    Frame [.igu] s (s.onIgu f) :=
  ⟨fun p hp => by cases p <;> first | rfl | simp at hp,
   fun h => ⟨h.1, h.2, h.3, h.4, le_trans hf (max_le h.5 le_rfl), h.6⟩⟩

theorem State.onKsc_fr (s : State) (f : Ksc → Ksc) (hf : (f s.ksc).queue.length ≤ max s.ksc.queue.length Config.keyPlaces) :
    Frame [.ksc] s (s.onKsc f) :=
  ⟨fun p hp => by cases p <;> first | rfl | simp at hp,
   fun h => ⟨h.1, h.2, h.3, h.4, h.5, le_trans hf (max_le h.6 le_rfl)⟩⟩

theorem State.onPtu_fr (s : State) (f : Ptu → Ptu) (hf : (f s.ptu).shadow = s.ptu.shadow) : Frame [.ptu] s (s.onPtu f) :=
  ⟨fun p hp => by cases p <;> first | rfl | exact hf | simp at hp,
   fun h => ⟨h.1, by simpa [hf] using h.2, h.3, h.4, h.5, h.6⟩⟩

theorem State.onCnu_fr (s : State) (f : Cnu → Cnu) (hf : (f s.cnu).mask = s.cnu.mask) :
    Frame [.cnu, .flags] s (s.onCnu f) :=
  ⟨fun p hp => by cases p <;> first | rfl | simp at hp, fun h => ⟨h.1, h.2, by simpa [hf] using h.3, h.4, h.5, h.6⟩⟩

theorem State.onLde_fr (s : State) (f : Lde → Lde) (hf : s.lde.Sound → (f s.lde).Sound) : Frame [.lde] s (s.onLde f) :=
  ⟨fun p hp => by cases p <;> first | rfl | simp at hp, fun h => ⟨h.1, h.2, h.3, hf h.4, h.5, h.6⟩⟩

theorem State.onMem_fr (s : State) (f : List Host.Cell → List Host.Cell)
    (hf : Memory.wf s.mem = true → Memory.wf (f s.mem) = true) : Frame [.mem] s (s.onMem f) :=
  ⟨fun p hp => by cases p <;> first | rfl | simp at hp, fun h => ⟨hf h.1, h.2, h.3, h.4, h.5, h.6⟩⟩

theorem State.notify_fr (s : State) (n : Nat) : Frame [.flags] s (s.notify n) :=
  ⟨fun p hp => by cases p <;> first | rfl | simp at hp, fun h => ⟨h.1, h.2, h.3, h.4, h.5, h.6⟩⟩

theorem State.notifyIf_fr (s : State) (b : Bool) (n : Nat) : Frame [.flags] s (s.notifyIf b n) := by
  cases b
  · exact Frame.refl _ _
  · exact s.notify_fr n

/-! ### Canonical lists -/

theorem Cells.above_cons {w : Nat} (p : Nat × BitVec w) (r : List (Nat × BitVec w)) (lo : Nat) :
    Cells.above (p :: r) lo = true ↔ lo < p.1 ∧ Cells.above r lo = true := by
  simp only [Cells.above, List.all_cons, Bool.and_eq_true, decide_eq_true_eq]

theorem Cells.above_set {w : Nat} (m : List (Nat × BitVec w)) (lo a : Nat) (v : BitVec w) (h : Cells.above m lo = true)
    (ha : lo < a) : Cells.above (Cells.set m a v) lo = true := by
  induction m with
  | nil => simp only [Cells.set]; split <;> simp [Cells.above, ha]
  | cons p r ih =>
    obtain ⟨k, x⟩ := p
    have h2 := (Cells.above_cons _ _ _).1 h
    simp only [Cells.set]
    split
    · split
      · exact h
      · exact (Cells.above_cons _ _ _).2 ⟨ha, h⟩
    · split
      · split
        · exact h2.2
        · exact (Cells.above_cons _ _ _).2 ⟨ha, h2.2⟩
      · exact (Cells.above_cons _ _ _).2 ⟨h2.1, ih h2.2⟩

theorem Cells.above_trans {w : Nat} (m : List (Nat × BitVec w)) {lo k : Nat} (h : Cells.above m k = true) (hl : lo < k) :
    Cells.above m lo = true := by
  simp only [Cells.above, List.all_eq_true, decide_eq_true_eq] at *
  exact fun p hp => lt_trans hl (h p hp)

theorem Cells.wf_cons {w : Nat} (k : Nat) (x : BitVec w) (r : List (Nat × BitVec w)) :
    Cells.wf ((k, x) :: r) = true ↔ x ≠ 0 ∧ Cells.above r k = true ∧ Cells.wf r = true := by
  simp only [Cells.wf, Bool.and_eq_true, decide_eq_true_eq, and_assoc]

/-- A write keeps the canonical form. -/
theorem Cells.set_wf {w : Nat} (m : List (Nat × BitVec w)) (a : Nat) (v : BitVec w) (h : Cells.wf m = true) :
    Cells.wf (Cells.set m a v) = true := by
  induction m with
  | nil =>
    simp only [Cells.set]
    split
    · exact h
    · rename_i hv
      exact (Cells.wf_cons _ _ _).2 ⟨hv, rfl, rfl⟩
  | cons p r ih =>
    obtain ⟨k, x⟩ := p
    obtain ⟨hx, hab, hr⟩ := (Cells.wf_cons _ _ _).1 h
    simp only [Cells.set]
    split
    · rename_i hlt
      split
      · exact h
      · rename_i hv
        exact (Cells.wf_cons _ _ _).2 ⟨hv, (Cells.above_cons _ _ _).2 ⟨hlt, Cells.above_trans r hab hlt⟩, h⟩
    · split
      · rename_i hk
        subst hk
        split
        · exact hr
        · rename_i hv
          exact (Cells.wf_cons _ _ _).2 ⟨hv, hab, hr⟩
      · exact (Cells.wf_cons _ _ _).2 ⟨hx, Cells.above_set r k a v hab (by omega), ih hr⟩

/-- A read after a write. -/
theorem Cells.get_set {w : Nat} (m : List (Nat × BitVec w)) (a b : Nat) (v : BitVec w) (h : Cells.wf m = true) :
    Cells.get (Cells.set m a v) b = if b = a then v else Cells.get m b := by
  induction m with
  | nil =>
    by_cases hb : b = a
    · subst hb
      simp only [Cells.set]
      split <;> simp_all [Cells.get]
    · have hb' : ¬ a = b := fun e => hb e.symm
      simp only [Cells.set]
      split <;> simp [Cells.get, hb, hb']
  | cons p r ih =>
    obtain ⟨k, x⟩ := p
    simp only [Cells.wf, Bool.and_eq_true, decide_eq_true_eq] at h
    obtain ⟨⟨hx, hab⟩, hr⟩ := h
    have hget : ∀ c, c ≤ k → Cells.get r c = 0 := by
      intro c hc
      have : ∀ (r : List (Nat × BitVec w)), Cells.above r k = true → Cells.get r c = 0 := by
        intro r
        induction r with
        | nil => intro _; rfl
        | cons q r ih2 =>
          intro hq
          simp only [Cells.above, List.all_cons, Bool.and_eq_true, decide_eq_true_eq] at hq
          have : q.1 ≠ c := by omega
          simp only [Cells.get]
          rw [if_neg this]
          exact ih2 (by simpa [Cells.above] using hq.2)
      exact this r hab
    simp only [Cells.set]
    split
    · rename_i hlt
      split
      · rename_i hv
        by_cases hba : b = a
        · subst hba
          simp [Cells.get, hv, show k ≠ b by omega, hget b (by omega)]
        · simp [hba]
      · by_cases hba : b = a
        · simp [Cells.get, hba]
        · simp [Cells.get, hba, show ¬ a = b from fun e => hba e.symm]
    · split
      · rename_i hk
        subst hk
        split
        · rename_i hv
          by_cases hba : b = a
          · subst hba; simp [hv, hget b (by omega)]
          · simp [Cells.get, hba, show ¬ a = b from fun e => hba e.symm]
        · by_cases hba : b = a
          · simp [Cells.get, hba]
          · simp [Cells.get, hba, show ¬ a = b from fun e => hba e.symm]
      · rename_i h1 h2
        by_cases hkb : k = b
        · subst hkb; simp [Cells.get, show ¬ k = a by omega]
        · simp [Cells.get, hkb, ih hr]

theorem Memory.setByte_wf (m : List Host.Cell) (a : Nat) (v : Byte) (h : Memory.wf m = true) :
    Memory.wf (Memory.setByte m a v) = true := Cells.set_wf m _ v h

theorem Memory.setWord_wf (m : List Host.Cell) (wa : Nat) (v : Word) (be : BitVec 4) (h : Memory.wf m = true) :
    Memory.wf (Memory.setWord m wa v be) = true := by
  unfold Memory.setWord
  generalize List.range 4 = l
  induction l generalizing m with
  | nil => exact h
  | cons i l ih =>
    simp only [List.foldl_cons]
    apply ih
    split
    · exact Memory.setByte_wf m _ _ h
    · exact h

theorem Memory.setWords_wf (m : List Host.Cell) (wa : Nat) (ws : List Word) (h : Memory.wf m = true) :
    Memory.wf (Memory.setWords m wa ws) = true := by
  induction ws generalizing m wa with
  | nil => exact h
  | cons w r ih => exact ih _ _ (Memory.setWord_wf m wa w 15 h)

theorem State.setShadow_fr (s : State) (wa : Nat) (v : Word) (be : BitVec 4) : Frame [.shadow] s (s.setShadow wa v be) :=
  ⟨fun p hp => by cases p <;> first | rfl | simp at hp, fun h => ⟨h.1, Cells.set_wf _ _ _ h.2, h.3, h.4, h.5, h.6⟩⟩

theorem State.writeRun_fr (s : State) (r : Run) : Frame [.mem] s (s.writeRun r) :=
  s.onMem_fr _ (Memory.setWords_wf _ _ _)

theorem State.setWord_fr (s : State) (a : Nat) (v : Word) (be : BitVec 4) :
    Frame [.mem] s (s.onMem fun m => Memory.setWord m a v be) := s.onMem_fr _ (Memory.setWord_wf _ _ _ _)

/-! ### The landing queue (R39 to R41) -/

theorem addFollow_keys (f : List (UrgentSource × List Run)) (src : UrgentSource) (runs : List Run) :
    (addFollow f src runs).map Prod.fst =
      if src ∈ f.map Prod.fst then f.map Prod.fst else f.map Prod.fst ++ [src] := by
  induction f with
  | nil => simp [addFollow]
  | cons p r ih =>
    obtain ⟨k, old⟩ := p
    simp only [addFollow]
    by_cases hk : k = src
    · simp [hk]
    · have hk' : ¬ src = k := fun e => hk e.symm
      simp only [hk, if_false, List.map_cons, ih, List.mem_cons, hk', false_or]
      split <;> simp

theorem Lde.requestUrgent_sound (q : Lde) (src : UrgentSource) (runs : List Run) (h : q.Sound) :
    (q.requestUrgent src runs).Sound := by
  obtain ⟨h1, h2, h3, h4⟩ := h
  unfold Lde.requestUrgent
  split
  · rename_i hn
    have hnot : src ∉ q.urgent.map UrgentEntry.src := by
      intro hm
      obtain ⟨e, he, rfl⟩ := List.mem_map.1 hm
      have := List.find?_eq_none.1 hn e he
      simp at this
    refine ⟨?_, h2, ?_, h4⟩
    · simp only [List.map_append, List.map_cons, List.map_nil]
      exact List.nodup_append.2 ⟨h1, by simp, by intro a ha b hb; simp at hb; subst hb; intro e; exact hnot (e ▸ ha)⟩
    · intro f hf
      simp only [List.map_append, List.mem_append]
      exact Or.inl (h3 f hf)
  · rename_i e he
    have hin : src ∈ q.urgent.map UrgentEntry.src := by
      have h5 := List.find?_some he
      have h6 := List.mem_of_find?_eq_some he
      simp only [decide_eq_true_eq] at h5
      exact List.mem_map.2 ⟨e, h6, h5⟩
    split
    · refine ⟨h1, ?_, ?_, h4⟩
      · simp only [addFollow_keys]
        split
        · exact h2
        · rename_i hs
          exact List.nodup_append.2 ⟨h2, by simp, by intro a ha b hb; simp at hb; subst hb; intro e; exact hs (e ▸ ha)⟩
      · intro f hf
        have hm : f.1 ∈ (addFollow q.follow src runs).map Prod.fst := List.mem_map.2 ⟨f, hf, rfl⟩
        rw [addFollow_keys] at hm
        split at hm
        · obtain ⟨g, hg, hge⟩ := List.mem_map.1 hm
          exact hge ▸ h3 g hg
        · rcases List.mem_append.1 hm with hm | hm
          · obtain ⟨g, hg, hge⟩ := List.mem_map.1 hm
            exact hge ▸ h3 g hg
          · simp at hm
            exact hm ▸ hin
    · have hmap : (q.urgent.map fun x => if x.src = src then { x with runs := mergeRuns x.runs runs } else x).map
          UrgentEntry.src = q.urgent.map UrgentEntry.src := by
        simp only [List.map_map]
        apply List.map_congr_left
        intro x _
        simp only [Function.comp]
        split <;> rfl
      refine ⟨?_, h2, ?_, h4⟩
      · simpa only [hmap] using h1
      · intro f hf
        simpa only [hmap] using h3 f hf

theorem State.requestUrgent_fr (s : State) (src : UrgentSource) (runs : List Run) :
    Frame [.lde] s (s.requestUrgent src runs) := by
  unfold State.requestUrgent
  split
  · exact Frame.refl _ _
  · exact s.onLde_fr _ (Lde.requestUrgent_sound _ _ _)

theorem State.requestNormal_fr (s : State) (req : Requester) (runs : List Run) :
    Frame [.flags, .lde] s (s.requestNormal req runs) := by
  unfold State.requestNormal
  split
  · exact (s.notify_fr 15).mono
  · rename_i hn
    refine (s.onLde_fr _ ?_).mono
    intro h
    refine ⟨h.1, h.2.1, h.2.2.1, ?_⟩
    simp only [State.normalFull, decide_eq_true_eq] at hn
    simp only [List.length_append, List.length_cons, List.length_nil]
    omega

theorem Lde.takeFollow_sound (q : Lde) (e : UrgentEntry) (rest : List UrgentEntry) (hu : q.urgent = e :: rest)
    (h : q.Sound) : ({ q with urgent := rest }.takeFollow e.src).Sound := by
  obtain ⟨h1, h2, h3, h4⟩ := h
  rw [hu] at h1 h3
  simp only [List.map_cons, List.nodup_cons] at h1
  have key : ∀ f ∈ q.follow, f.1 ≠ e.src → f.1 ∈ rest.map UrgentEntry.src := by
    intro f hf hne
    rcases List.mem_cons.1 (h3 f hf) with h5 | h5
    · exact absurd h5 hne
    · exact h5
  unfold Lde.takeFollow
  split
  · rename_i f hf
    simp only at hf
    refine ⟨?_, ?_, ?_, h4⟩
    · simp only [List.map_append, List.map_cons, List.map_nil]
      exact List.nodup_append.2 ⟨h1.2, by simp, by intro a ha b hb; simp at hb; subst hb; intro e'; exact h1.1 (e' ▸ ha)⟩
    · exact h2.sublist (List.Sublist.map _ List.filter_sublist)
    · intro g hg
      simp only [List.mem_filter, decide_eq_true_eq] at hg
      simp only [List.map_append, List.mem_append]
      exact Or.inl (key g hg.1 hg.2)
  · rename_i hn
    refine ⟨h1.2, h2, ?_, h4⟩
    intro g hg
    refine key g hg ?_
    intro he
    have := List.find?_eq_none.1 hn g hg
    simp [he] at this

theorem State.giveTo_fr (s : State) (h : Holder) : Frame [.lde] s (s.giveTo h) := s.onLde_fr _ fun k => ⟨k.1, k.2.1, k.2.2.1, k.2.2.2⟩

theorem State.starve_fr (s : State) : Frame [.lde] s s.starve := by
  unfold State.starve
  split
  · exact s.onLde_fr _ fun k => ⟨k.1, k.2.1, k.2.2.1, k.2.2.2⟩
  · exact Frame.refl _ _

/-! ### Folds -/

theorem Frame.foldl {α : Type} {ps : List Part} {s t : State} (f : State → α → State) (l : List α) (h : Frame ps s t)
    (hf : ∀ u x, x ∈ l → Frame ps u (f u x)) : Frame ps s (l.foldl f t) := by
  induction l generalizing t with
  | nil => exact h
  | cons x l ih =>
    exact ih (h.comp (hf t x (List.mem_cons_self ..)) (within_refl _)) fun u y hy => hf u y (List.mem_cons_of_mem _ hy)

/-! ### Queues of items -/

theorem State.pushFragment_fr (s : State) (f : Fragment) (h : s.txAccepts = true) : Frame [.igu] s (s.pushFragment f) := by
  refine s.onIgu_fr _ ?_
  simp only [State.txAccepts, Bool.and_eq_true, decide_eq_true_eq] at h
  simp only [List.length_append, List.length_cons, List.length_nil]
  omega

theorem State.offerKey_fr (s : State) (k : Fin 64) (press : Bool) : Frame [.ksc, .flags] s (s.offerKey k press) := by
  unfold State.offerKey
  split
  · refine (s.onKsc_fr _ ?_).mono
    simp only [List.length_append, List.length_cons, List.length_nil]
    omega
  · exact ((s.onKsc_fr _ (le_max_left _ _)).mono (qs := [.ksc, .flags])).comp (State.notify_fr _ 10)

theorem Frame.ite {ps : List Part} {s a b : State} {c : Prop} [Decidable c] (h : Frame ps s a) (k : Frame ps s b) :
    Frame ps s (if c then a else b) := by
  split
  · exact h
  · exact k


/-! ### Operations outside the general scheme -/

theorem State.draw_fr (s : State) (n : Nat) : Frame [.free] s { s with free := n } :=
  ⟨fun p hp => by cases p <;> first | rfl | simp at hp, fun h => ⟨h.1, h.2, h.3, h.4, h.5, h.6⟩⟩

theorem State.elapse_fr (s : State) (dt : Nat) : Frame [.now] s (s.elapse dt) :=
  ⟨fun p hp => by cases p <;> first | rfl | simp at hp, fun h => ⟨h.1, h.2, h.3, h.4, h.5, h.6⟩⟩

/-- A change of the notice flags alone. -/
theorem State.onFlags_fr (s : State) (f : Cnu → Cnu) (hf : { f s.cnu with flags := 0 } = { s.cnu with flags := 0 }) :
    Frame [.flags] s (s.onCnu f) :=
  ⟨fun p hp => by cases p <;> first | rfl | exact hf | simp at hp,
   fun h => ⟨h.1, h.2, by have := congrArg Cnu.mask hf; simp only at this; simpa [this] using h.3, h.4, h.5, h.6⟩⟩

/-- A change of the rest of the CNU alone. -/
theorem State.onConfig_fr (s : State) (f : Cnu → Cnu) (hf : (f s.cnu).flags = s.cnu.flags) (hm : (f s.cnu).mask = s.cnu.mask) :
    Frame [.cnu] s (s.onCnu f) :=
  ⟨fun p hp => by cases p <;> first | rfl | exact hf | simp at hp, fun h => ⟨h.1, h.2, by simpa [hm] using h.3, h.4, h.5, h.6⟩⟩

theorem State.takeMask_fr (s : State) (w : Word) : Frame [.cnu] s (s.takeMask w) :=
  ⟨fun p hp => by cases p <;> first | rfl | simp at hp,
   fun h => ⟨h.1, h.2, by simp [State.takeMask], h.4, h.5, h.6⟩⟩

theorem State.rejectConfig_fr (s : State) (r : ConfigStatus) : Frame [.cnu, .flags] s (s.rejectConfig r) :=
  ((s.onConfig_fr _ rfl rfl).mono (qs := [.cnu, .flags])).comp (State.notify_fr _ 14)

theorem State.onFlu_of {qs : List Part} {old : State} (s : State) (f : Flu → Flu) (hq : Frame qs old s)
    (m : within [.flu] qs = true) : Frame qs old (State.onFlu s f) := hq.comp (State.onFlu_fr s f) m

theorem State.onLsu_of {qs : List Part} {old : State} (s : State) (f : Lsu → Lsu) (hq : Frame qs old s)
    (m : within [.lsu] qs = true) : Frame qs old (State.onLsu s f) := hq.comp (State.onLsu_fr s f) m

theorem State.onAxu_of {qs : List Part} {old : State} (s : State) (f : Axu → Axu) (hq : Frame qs old s)
    (m : within [.axu] qs = true) : Frame qs old (State.onAxu s f) := hq.comp (State.onAxu_fr s f) m

theorem State.onTru_of {qs : List Part} {old : State} (s : State) (f : Tru → Tru) (hq : Frame qs old s)
    (m : within [.tru] qs = true) : Frame qs old (State.onTru s f) := hq.comp (State.onTru_fr s f) m

theorem State.onSlu_of {qs : List Part} {old : State} (s : State) (f : Slu → Slu) (hq : Frame qs old s)
    (m : within [.slu] qs = true) : Frame qs old (State.onSlu s f) := hq.comp (State.onSlu_fr s f) m

theorem State.onCls_of {qs : List Part} {old : State} (s : State) (f : Cls → Cls) (hq : Frame qs old s)
    (m : within [.cls] qs = true) : Frame qs old (State.onCls s f) := hq.comp (State.onCls_fr s f) m

theorem State.onCmu_of {qs : List Part} {old : State} (s : State) (f : Cmu → Cmu) (hq : Frame qs old s)
    (m : within [.cmu] qs = true) : Frame qs old (State.onCmu s f) := hq.comp (State.onCmu_fr s f) m

theorem State.onScu_of {qs : List Part} {old : State} (s : State) (f : Scu → Scu) (hq : Frame qs old s)
    (m : within [.scu] qs = true) : Frame qs old (State.onScu s f) := hq.comp (State.onScu_fr s f) m

theorem State.notify_of {qs : List Part} {old : State} (s : State) (n : Nat) (hq : Frame qs old s)
    (m : within [.flags] qs = true) : Frame qs old (State.notify s n) := hq.comp (State.notify_fr s n) m

theorem State.notifyIf_of {qs : List Part} {old : State} (s : State) (b : Bool) (n : Nat) (hq : Frame qs old s)
    (m : within [.flags] qs = true) : Frame qs old (State.notifyIf s b n) := hq.comp (State.notifyIf_fr s b n) m

theorem State.setShadow_of {qs : List Part} {old : State} (s : State) (wa : Nat) (v : Word) (be : BitVec 4) (hq : Frame qs old s)
    (m : within [.shadow] qs = true) : Frame qs old (State.setShadow s wa v be) := hq.comp (State.setShadow_fr s wa v be) m

theorem State.requestUrgent_of {qs : List Part} {old : State} (s : State) (src : UrgentSource) (runs : List Run) (hq : Frame qs old s)
    (m : within [.lde] qs = true) : Frame qs old (State.requestUrgent s src runs) := hq.comp (State.requestUrgent_fr s src runs) m

theorem State.requestNormal_of {qs : List Part} {old : State} (s : State) (req : Requester) (runs : List Run) (hq : Frame qs old s)
    (m : within [.lde, .flags] qs = true) : Frame qs old (State.requestNormal s req runs) := hq.comp (State.requestNormal_fr s req runs) m

theorem State.giveTo_of {qs : List Part} {old : State} (s : State) (h : Holder) (hq : Frame qs old s)
    (m : within [.lde] qs = true) : Frame qs old (State.giveTo s h) := hq.comp (State.giveTo_fr s h) m

theorem State.starve_of {qs : List Part} {old : State} (s : State) (hq : Frame qs old s)
    (m : within [.lde] qs = true) : Frame qs old (State.starve s) := hq.comp (State.starve_fr s) m

theorem State.writeRun_of {qs : List Part} {old : State} (s : State) (r : Run) (hq : Frame qs old s)
    (m : within [.mem] qs = true) : Frame qs old (State.writeRun s r) := hq.comp (State.writeRun_fr s r) m

theorem State.offerKey_of {qs : List Part} {old : State} (s : State) (k : Fin 64) (press : Bool) (hq : Frame qs old s)
    (m : within [.ksc, .flags] qs = true) : Frame qs old (State.offerKey s k press) := hq.comp (State.offerKey_fr s k press) m

theorem State.onIgu_of {qs : List Part} {old : State} (s : State) (f : Igu → Igu) (hf : (f s.igu).tx.length ≤ max s.igu.tx.length Config.txPlaces) (hq : Frame qs old s)
    (m : within [.igu] qs = true) : Frame qs old (State.onIgu s f) := hq.comp (State.onIgu_fr s f hf) m

theorem State.onKsc_of {qs : List Part} {old : State} (s : State) (f : Ksc → Ksc) (hf : (f s.ksc).queue.length ≤ max s.ksc.queue.length Config.keyPlaces) (hq : Frame qs old s)
    (m : within [.ksc] qs = true) : Frame qs old (State.onKsc s f) := hq.comp (State.onKsc_fr s f hf) m

theorem State.onPtu_of {qs : List Part} {old : State} (s : State) (f : Ptu → Ptu) (hf : (f s.ptu).shadow = s.ptu.shadow) (hq : Frame qs old s)
    (m : within [.ptu] qs = true) : Frame qs old (State.onPtu s f) := hq.comp (State.onPtu_fr s f hf) m

theorem State.onCnu_of {qs : List Part} {old : State} (s : State) (f : Cnu → Cnu) (hf : (f s.cnu).mask = s.cnu.mask) (hq : Frame qs old s)
    (m : within [.cnu, .flags] qs = true) : Frame qs old (State.onCnu s f) := hq.comp (State.onCnu_fr s f hf) m

theorem State.onLde_of {qs : List Part} {old : State} (s : State) (f : Lde → Lde) (hf : s.lde.Sound → (f s.lde).Sound) (hq : Frame qs old s)
    (m : within [.lde] qs = true) : Frame qs old (State.onLde s f) := hq.comp (State.onLde_fr s f hf) m

theorem State.pushFragment_of {qs : List Part} {old : State} (s : State) (f : Fragment) (hf : s.txAccepts = true) (hq : Frame qs old s)
    (m : within [.igu] qs = true) : Frame qs old (State.pushFragment s f) := hq.comp (State.pushFragment_fr s f hf) m

end Sys2Proof.Machine
end

