-- ==== Sys2Proof/Laws/OpFrames.lean ====
section
/-! SUPPORT. The frame of every operation over the state, one lemma each. -/

namespace Sys2Proof.Machine

theorem State.requestResult_fr (s : State) (wa : Nat) (w : Word) :
    Frame [.flags, .lde] s (State.requestResult s wa w) := by
  unfold State.requestResult
  repeat' first
    | with_reducible exact Frame.refl _ _
    | with_reducible apply Frame.ite
    | ((with_reducible apply State.requestNormal_of); on_goal 2 => rfl)

theorem State.requestResult_of {qs : List Part} {old : State} (s : State) (wa : Nat) (w : Word) (hq : Frame qs old s)
    (m : within [.flags, .lde] qs = true) : Frame qs old (State.requestResult s wa w) := hq.comp (State.requestResult_fr s wa w) m

theorem State.cancelFirings_fr (s : State) :
    Frame [.cmu, .flags] s (State.cancelFirings s) := by
  unfold State.cancelFirings
  repeat' first
    | with_reducible exact Frame.refl _ _
    | with_reducible apply Frame.ite
    | ((with_reducible apply State.notifyIf_of); on_goal 2 => rfl)
    | ((with_reducible apply State.onCmu_of); on_goal 2 => rfl)

theorem State.cancelFirings_of {qs : List Part} {old : State} (s : State) (hq : Frame qs old s)
    (m : within [.cmu, .flags] qs = true) : Frame qs old (State.cancelFirings s) := hq.comp (State.cancelFirings_fr s) m

theorem State.recompute_fr (s : State) :
    Frame [.tru, .cmu, .flags] s (State.recompute s) := by
  unfold State.recompute
  repeat' first
    | with_reducible exact Frame.refl _ _
    | with_reducible apply Frame.ite
    | ((with_reducible apply State.cancelFirings_of); on_goal 2 => rfl)
    | ((with_reducible apply State.onTru_of); on_goal 2 => rfl)

theorem State.recompute_of {qs : List Part} {old : State} (s : State) (hq : Frame qs old s)
    (m : within [.tru, .cmu, .flags] qs = true) : Frame qs old (State.recompute s) := hq.comp (State.recompute_fr s) m

theorem State.handStamped_fr (s : State) (n : Fin 15) (present : Bool) (stamp : Stamp) :
    Frame [.tru, .cmu, .flags] s (State.handStamped s n present stamp) := by
  unfold State.handStamped
  repeat' first
    | with_reducible exact Frame.refl _ _
    | with_reducible apply Frame.ite
    | ((with_reducible apply State.onTru_of); on_goal 2 => rfl)
    | ((with_reducible apply State.recompute_of); on_goal 2 => rfl)

theorem State.handStamped_of {qs : List Part} {old : State} (s : State) (n : Fin 15) (present : Bool) (stamp : Stamp) (hq : Frame qs old s)
    (m : within [.tru, .cmu, .flags] qs = true) : Frame qs old (State.handStamped s n present stamp) := hq.comp (State.handStamped_fr s n present stamp) m

theorem State.handCondition_fr (s : State) (n : Fin 15) (present : Bool) :
    Frame [.tru, .cmu, .flags] s (State.handCondition s n present) := by
  unfold State.handCondition
  repeat' first
    | with_reducible exact Frame.refl _ _
    | with_reducible apply Frame.ite
    | ((with_reducible apply State.handStamped_of); on_goal 2 => rfl)

theorem State.handCondition_of {qs : List Part} {old : State} (s : State) (n : Fin 15) (present : Bool) (hq : Frame qs old s)
    (m : within [.tru, .cmu, .flags] qs = true) : Frame qs old (State.handCondition s n present) := hq.comp (State.handCondition_fr s n present) m

theorem State.startFilter_fr (s : State) (n : Fin 8) :
    Frame [.tru, .cmu, .flags] s (State.startFilter s n) := by
  unfold State.startFilter
  repeat' first
    | with_reducible exact Frame.refl _ _
    | with_reducible apply Frame.ite
    | ((with_reducible apply State.handCondition_of); on_goal 2 => rfl)
    | ((with_reducible apply State.onTru_of); on_goal 2 => rfl)

theorem State.startFilter_of {qs : List Part} {old : State} (s : State) (n : Fin 8) (hq : Frame qs old s)
    (m : within [.tru, .cmu, .flags] qs = true) : Frame qs old (State.startFilter s n) := hq.comp (State.startFilter_fr s n) m

theorem State.truEpoch_fr (s : State) :
    Frame [.tru] s (State.truEpoch s) := by
  unfold State.truEpoch
  repeat' first
    | with_reducible exact Frame.refl _ _
    | with_reducible apply Frame.ite
    | ((with_reducible apply State.onTru_of); on_goal 2 => rfl)

theorem State.truEpoch_of {qs : List Part} {old : State} (s : State) (hq : Frame qs old s)
    (m : within [.tru] qs = true) : Frame qs old (State.truEpoch s) := hq.comp (State.truEpoch_fr s) m

theorem State.takeToken_fr (s : State) (gen : Byte) :
    Frame [.tru, .cmu, .flags] s (State.takeToken s gen) := by
  unfold State.takeToken
  repeat' first
    | with_reducible exact Frame.refl _ _
    | with_reducible apply Frame.ite
    | ((with_reducible apply State.onTru_of); on_goal 2 => rfl)
    | ((with_reducible apply State.recompute_of); on_goal 2 => rfl)

theorem State.takeToken_of {qs : List Part} {old : State} (s : State) (gen : Byte) (hq : Frame qs old s)
    (m : within [.tru, .cmu, .flags] qs = true) : Frame qs old (State.takeToken s gen) := hq.comp (State.takeToken_fr s gen) m

theorem State.memberTrip_fr (s : State) (t : TripFields) (headerGood : Bool) :
    Frame [.tru, .cmu, .flags] s (State.memberTrip s t headerGood).1 := by
  unfold State.memberTrip
  repeat' first
    | with_reducible exact Frame.refl _ _
    | with_reducible apply Frame.ite
    | ((with_reducible apply State.onTru_of); on_goal 2 => rfl)
    | ((with_reducible apply State.recompute_of); on_goal 2 => rfl)
    | ((with_reducible apply State.takeToken_of); on_goal 2 => rfl)
    | split

theorem State.memberTrip_of {qs : List Part} {old : State} (s : State) (t : TripFields) (headerGood : Bool) (hq : Frame qs old s)
    (m : within [.tru, .cmu, .flags] qs = true) : Frame qs old (State.memberTrip s t headerGood).1 := hq.comp (State.memberTrip_fr s t headerGood) m

theorem State.memberReturnTrip_fr (s : State) (t : TripFields) :
    Frame [.tru] s (State.memberReturnTrip s t).1 := by
  unfold State.memberReturnTrip
  repeat' first
    | with_reducible exact Frame.refl _ _
    | with_reducible apply Frame.ite
    | ((with_reducible apply State.onTru_of); on_goal 2 => rfl)

theorem State.memberReturnTrip_of {qs : List Part} {old : State} (s : State) (t : TripFields) (hq : Frame qs old s)
    (m : within [.tru] qs = true) : Frame qs old (State.memberReturnTrip s t).1 := hq.comp (State.memberReturnTrip_fr s t) m

theorem State.masterReturnTrip_fr (s : State) (t : TripFields) :
    Frame [.tru] s (State.masterReturnTrip s t) := by
  unfold State.masterReturnTrip
  repeat' first
    | with_reducible exact Frame.refl _ _
    | with_reducible apply Frame.ite
    | ((with_reducible apply State.onTru_of); on_goal 2 => rfl)

theorem State.masterReturnTrip_of {qs : List Part} {old : State} (s : State) (t : TripFields) (hq : Frame qs old s)
    (m : within [.tru] qs = true) : Frame qs old (State.masterReturnTrip s t) := hq.comp (State.masterReturnTrip_fr s t) m

theorem State.formTrip_fr (s : State) :
    Frame [.tru, .cmu, .flags] s (State.formTrip s).1 := by
  unfold State.formTrip
  repeat' first
    | with_reducible exact Frame.refl _ _
    | with_reducible apply Frame.ite
    | ((with_reducible apply State.onTru_of); on_goal 2 => rfl)
    | ((with_reducible apply State.recompute_of); on_goal 2 => rfl)
    | ((with_reducible apply State.takeToken_of); on_goal 2 => rfl)

theorem State.formTrip_of {qs : List Part} {old : State} (s : State) (hq : Frame qs old s)
    (m : within [.tru, .cmu, .flags] qs = true) : Frame qs old (State.formTrip s).1 := hq.comp (State.formTrip_fr s) m

theorem State.judgeTripRequest_fr (s : State) (operand : Nat) :
    Frame [.tru, .cmu, .flags] s (State.judgeTripRequest s operand).2 := by
  unfold State.judgeTripRequest
  repeat' first
    | with_reducible exact Frame.refl _ _
    | with_reducible apply Frame.ite
    | ((with_reducible apply State.onTru_of); on_goal 2 => rfl)
    | ((with_reducible apply State.recompute_of); on_goal 2 => rfl)
    | split

theorem State.judgeTripRequest_of {qs : List Part} {old : State} (s : State) (operand : Nat) (hq : Frame qs old s)
    (m : within [.tru, .cmu, .flags] qs = true) : Frame qs old (State.judgeTripRequest s operand).2 := hq.comp (State.judgeTripRequest_fr s operand) m

theorem State.judgeReset_fr (s : State) :
    Frame [.tru] s (State.judgeReset s).2 := by
  unfold State.judgeReset
  repeat' first
    | with_reducible exact Frame.refl _ _
    | with_reducible apply Frame.ite
    | ((with_reducible apply State.onTru_of); on_goal 2 => rfl)
    | split

theorem State.judgeReset_of {qs : List Part} {old : State} (s : State) (hq : Frame qs old s)
    (m : within [.tru] qs = true) : Frame qs old (State.judgeReset s).2 := hq.comp (State.judgeReset_fr s) m

theorem State.judgeEnable_fr (s : State) (req : BitVec 4) :
    Frame [.tru] s (State.judgeEnable s req).2 := by
  unfold State.judgeEnable
  repeat' first
    | with_reducible exact Frame.refl _ _
    | with_reducible apply Frame.ite
    | ((with_reducible apply State.onTru_of); on_goal 2 => rfl)
    | split

theorem State.judgeEnable_of {qs : List Part} {old : State} (s : State) (req : BitVec 4) (hq : Frame qs old s)
    (m : within [.tru] qs = true) : Frame qs old (State.judgeEnable s req).2 := hq.comp (State.judgeEnable_fr s req) m

theorem State.tripResult_fr (s : State) (which : Fin 3) (w : Word) :
    Frame [.flags, .lde] s (State.tripResult s which w) := by
  unfold State.tripResult
  repeat' first
    | with_reducible exact Frame.refl _ _
    | with_reducible apply Frame.ite
    | ((with_reducible apply State.requestResult_of); on_goal 2 => rfl)
    | split

theorem State.tripResult_of {qs : List Part} {old : State} (s : State) (which : Fin 3) (w : Word) (hq : Frame qs old s)
    (m : within [.flags, .lde] qs = true) : Frame qs old (State.tripResult s which w) := hq.comp (State.tripResult_fr s which w) m

theorem State.takeTripRequest_fr (s : State) (w : Word) :
    Frame [.tru, .cmu, .flags, .lde] s (State.takeTripRequest s w) := by
  unfold State.takeTripRequest
  repeat' first
    | with_reducible exact Frame.refl _ _
    | with_reducible apply Frame.ite
    | ((with_reducible apply State.judgeTripRequest_of); on_goal 2 => rfl)
    | ((with_reducible apply State.tripResult_of); on_goal 2 => rfl)
    | split

theorem State.takeTripRequest_of {qs : List Part} {old : State} (s : State) (w : Word) (hq : Frame qs old s)
    (m : within [.tru, .cmu, .flags, .lde] qs = true) : Frame qs old (State.takeTripRequest s w) := hq.comp (State.takeTripRequest_fr s w) m

theorem State.takeReset_fr (s : State) (w : Word) :
    Frame [.tru, .flags, .lde] s (State.takeReset s w) := by
  unfold State.takeReset
  repeat' first
    | with_reducible exact Frame.refl _ _
    | with_reducible apply Frame.ite
    | ((with_reducible apply State.judgeReset_of); on_goal 2 => rfl)
    | ((with_reducible apply State.tripResult_of); on_goal 2 => rfl)

theorem State.takeReset_of {qs : List Part} {old : State} (s : State) (w : Word) (hq : Frame qs old s)
    (m : within [.tru, .flags, .lde] qs = true) : Frame qs old (State.takeReset s w) := hq.comp (State.takeReset_fr s w) m

theorem State.takeEnable_fr (s : State) (w : Word) :
    Frame [.tru, .flags, .lde] s (State.takeEnable s w) := by
  unfold State.takeEnable
  repeat' first
    | with_reducible exact Frame.refl _ _
    | with_reducible apply Frame.ite
    | ((with_reducible apply State.judgeEnable_of); on_goal 2 => rfl)
    | ((with_reducible apply State.tripResult_of); on_goal 2 => rfl)

theorem State.takeEnable_of {qs : List Part} {old : State} (s : State) (w : Word) (hq : Frame qs old s)
    (m : within [.tru, .flags, .lde] qs = true) : Frame qs old (State.takeEnable s w) := hq.comp (State.takeEnable_fr s w) m

theorem State.takeTripCommand_fr (s : State) (which : Fin 3) (w : Word) :
    Frame [.tru, .cmu, .flags, .lde] s (State.takeTripCommand s which w) := by
  unfold State.takeTripCommand
  repeat' first
    | with_reducible exact Frame.refl _ _
    | with_reducible apply Frame.ite
    | ((with_reducible apply State.takeEnable_of); on_goal 2 => rfl)
    | ((with_reducible apply State.takeReset_of); on_goal 2 => rfl)
    | ((with_reducible apply State.takeTripRequest_of); on_goal 2 => rfl)

theorem State.takeTripCommand_of {qs : List Part} {old : State} (s : State) (which : Fin 3) (w : Word) (hq : Frame qs old s)
    (m : within [.tru, .cmu, .flags, .lde] qs = true) : Frame qs old (State.takeTripCommand s which w) := hq.comp (State.takeTripCommand_fr s which w) m

theorem State.landTripRecord_fr (s : State) :
    Frame [.lde] s (State.landTripRecord s) := by
  unfold State.landTripRecord
  repeat' first
    | with_reducible exact Frame.refl _ _
    | with_reducible apply Frame.ite
    | ((with_reducible apply State.requestUrgent_of); on_goal 2 => rfl)
    | split

theorem State.landTripRecord_of {qs : List Part} {old : State} (s : State) (hq : Frame qs old s)
    (m : within [.lde] qs = true) : Frame qs old (State.landTripRecord s) := hq.comp (State.landTripRecord_fr s) m

theorem State.reportTrip_fr (s0 s : State) :
    Frame [.flags, .lde] s (State.reportTrip s0 s) := by
  unfold State.reportTrip
  repeat' first
    | with_reducible exact Frame.refl _ _
    | with_reducible apply Frame.ite
    | ((with_reducible apply State.landTripRecord_of); on_goal 2 => rfl)
    | ((with_reducible apply State.notifyIf_of); on_goal 2 => rfl)

theorem State.reportTrip_of {qs : List Part} {old : State} (s0 s : State) (hq : Frame qs old s)
    (m : within [.flags, .lde] qs = true) : Frame qs old (State.reportTrip s0 s) := hq.comp (State.reportTrip_fr s0 s) m

theorem State.onOut_fr (s : State) (i : Fin 2) (f : OutScreen → OutScreen) :
    Frame [.scu] s (State.onOut s i f) := by
  unfold State.onOut
  repeat' first
    | with_reducible exact Frame.refl _ _
    | with_reducible apply Frame.ite
    | ((with_reducible apply State.onScu_of); on_goal 2 => rfl)

theorem State.onOut_of {qs : List Part} {old : State} (s : State) (i : Fin 2) (f : OutScreen → OutScreen) (hq : Frame qs old s)
    (m : within [.scu] qs = true) : Frame qs old (State.onOut s i f) := hq.comp (State.onOut_fr s i f) m

theorem State.markTile_fr (s : State) (i : Fin 2) (t : Nat) :
    Frame [.scu] s (State.markTile s i t) := by
  unfold State.markTile
  repeat' first
    | with_reducible exact Frame.refl _ _
    | with_reducible apply Frame.ite
    | ((with_reducible apply State.onOut_of); on_goal 2 => rfl)

theorem State.markTile_of {qs : List Part} {old : State} (s : State) (i : Fin 2) (t : Nat) (hq : Frame qs old s)
    (m : within [.scu] qs = true) : Frame qs old (State.markTile s i t) := hq.comp (State.markTile_fr s i t) m

theorem State.fetchTile_fr (s : State) (i : Fin 2) (w : Window) (p : ScreenParams) (t : Nat) :
    Frame [.scu, .flags, .lde] s (State.fetchTile s i w p t) := by
  unfold State.fetchTile
  repeat' first
    | with_reducible exact Frame.refl _ _
    | with_reducible apply Frame.ite
    | ((with_reducible apply State.markTile_of); on_goal 2 => rfl)
    | ((with_reducible apply State.onOut_of); on_goal 2 => rfl)
    | ((with_reducible apply State.onScu_of); on_goal 2 => rfl)
    | ((with_reducible apply State.requestNormal_of); on_goal 2 => rfl)

theorem State.fetchTile_of {qs : List Part} {old : State} (s : State) (i : Fin 2) (w : Window) (p : ScreenParams) (t : Nat) (hq : Frame qs old s)
    (m : within [.scu, .flags, .lde] qs = true) : Frame qs old (State.fetchTile s i w p t) := hq.comp (State.fetchTile_fr s i w p t) m

theorem State.fetchOnce_of {qs : List Part} {old s t : State} (e : s.fetchOnce = some t) (hq : Frame qs old s)
    (m : within [.scu, .flags, .lde] qs = true) : Frame qs old t := by
  unfold State.fetchOnce at e
  repeat' split at e
  all_goals first
    | cases e; exact State.fetchTile_of _ _ _ _ _ hq m
    | cases e

theorem State.tryFetch_fr (s : State) : Frame [.scu, .flags, .lde] s s.tryFetch := by
  unfold State.tryFetch
  split
  · exact Frame.refl _ _
  · rename_i h1
    have k1 := State.fetchOnce_of h1 (Frame.refl [.scu, .flags, .lde] _) rfl
    split
    · exact k1
    · split
      · exact k1
      · rename_i h2
        exact State.fetchOnce_of h2 k1 rfl

theorem State.tryFetch_of {qs : List Part} {old : State} (s : State) (hq : Frame qs old s)
    (m : within [.scu, .flags, .lde] qs = true) : Frame qs old (State.tryFetch s) := hq.comp (State.tryFetch_fr s) m

theorem State.fetchDone_fr (s : State) (i : Fin 2) (t : Nat) (words : List Word) :
    Frame [.scu, .flags, .lde] s (State.fetchDone s i t words) := by
  unfold State.fetchDone
  repeat' first
    | with_reducible exact Frame.refl _ _
    | with_reducible apply Frame.ite
    | ((with_reducible apply State.markTile_of); on_goal 2 => rfl)
    | ((with_reducible apply State.onScu_of); on_goal 2 => rfl)
    | ((with_reducible apply State.tryFetch_of); on_goal 2 => rfl)
    | split

theorem State.fetchDone_of {qs : List Part} {old : State} (s : State) (i : Fin 2) (t : Nat) (words : List Word) (hq : Frame qs old s)
    (m : within [.scu, .flags, .lde] qs = true) : Frame qs old (State.fetchDone s i t words) := hq.comp (State.fetchDone_fr s i t words) m

theorem State.screenBeat_fr (s : State) (i : Fin 2) (off : Nat) :
    Frame [.scu, .flags, .lde] s (State.screenBeat s i off) := by
  unfold State.screenBeat
  repeat' first
    | with_reducible exact Frame.refl _ _
    | with_reducible apply Frame.ite
    | ((with_reducible apply State.markTile_of); on_goal 2 => rfl)
    | ((with_reducible apply State.tryFetch_of); on_goal 2 => rfl)
    | split

theorem State.screenBeat_of {qs : List Part} {old : State} (s : State) (i : Fin 2) (off : Nat) (hq : Frame qs old s)
    (m : within [.scu, .flags, .lde] qs = true) : Frame qs old (State.screenBeat s i off) := hq.comp (State.screenBeat_fr s i off) m

theorem State.sweepEpoch_fr (s : State) (i : Fin 2) :
    Frame [.scu, .flags, .lde] s (State.sweepEpoch s i) := by
  unfold State.sweepEpoch
  repeat' first
    | with_reducible exact Frame.refl _ _
    | with_reducible apply Frame.ite
    | ((with_reducible apply State.onOut_of); on_goal 2 => rfl)
    | ((with_reducible apply State.tryFetch_of); on_goal 2 => rfl)
    | split

theorem State.sweepEpoch_of {qs : List Part} {old : State} (s : State) (i : Fin 2) (hq : Frame qs old s)
    (m : within [.scu, .flags, .lde] qs = true) : Frame qs old (State.sweepEpoch s i) := hq.comp (State.sweepEpoch_fr s i) m

theorem State.scuEpoch_fr (s : State) :
    Frame [.scu, .flags, .lde] s (State.scuEpoch s) := by
  unfold State.scuEpoch
  repeat' first
    | with_reducible exact Frame.refl _ _
    | with_reducible apply Frame.ite
    | ((with_reducible apply State.sweepEpoch_of); on_goal 2 => rfl)

theorem State.scuEpoch_of {qs : List Part} {old : State} (s : State) (hq : Frame qs old s)
    (m : within [.scu, .flags, .lde] qs = true) : Frame qs old (State.scuEpoch s) := hq.comp (State.scuEpoch_fr s) m

theorem State.fullRefresh_fr (s : State) (i : Fin 2) :
    Frame [.scu] s (State.fullRefresh s i) := by
  unfold State.fullRefresh
  repeat' first
    | with_reducible exact Frame.refl _ _
    | with_reducible apply Frame.ite
    | ((with_reducible apply State.onOut_of); on_goal 2 => rfl)
    | split

theorem State.fullRefresh_of {qs : List Part} {old : State} (s : State) (i : Fin 2) (hq : Frame qs old s)
    (m : within [.scu] qs = true) : Frame qs old (State.fullRefresh s i) := hq.comp (State.fullRefresh_fr s i) m

theorem State.requestRefresh_fr (s : State) (i : Fin 2) :
    Frame [.cls] s (State.requestRefresh s i) := by
  unfold State.requestRefresh
  repeat' first
    | with_reducible exact Frame.refl _ _
    | with_reducible apply Frame.ite
    | ((with_reducible apply State.onCls_of); on_goal 2 => rfl)
    | split

theorem State.requestRefresh_of {qs : List Part} {old : State} (s : State) (i : Fin 2) (hq : Frame qs old s)
    (m : within [.cls] qs = true) : Frame qs old (State.requestRefresh s i) := hq.comp (State.requestRefresh_fr s i) m

theorem State.screensJoin_fr (s : State) :
    Frame [.cls, .scu, .flags, .lde] s (State.screensJoin s) := by
  unfold State.screensJoin
  repeat' first
    | with_reducible exact Frame.refl _ _
    | with_reducible apply Frame.ite
    | ((with_reducible apply State.fullRefresh_of); on_goal 2 => rfl)
    | ((with_reducible apply State.requestRefresh_of); on_goal 2 => rfl)
    | ((with_reducible apply State.tryFetch_of); on_goal 2 => rfl)

theorem State.screensJoin_of {qs : List Part} {old : State} (s : State) (hq : Frame qs old s)
    (m : within [.cls, .scu, .flags, .lde] qs = true) : Frame qs old (State.screensJoin s) := hq.comp (State.screensJoin_fr s) m

theorem State.screensLeave_fr (s : State) :
    Frame [.scu] s (State.screensLeave s) := by
  unfold State.screensLeave
  repeat' first
    | with_reducible exact Frame.refl _ _
    | with_reducible apply Frame.ite
    | ((with_reducible apply Frame.foldl); on_goal 2 => intro u x _)
    | ((with_reducible apply State.markTile_of); on_goal 2 => rfl)
    | ((with_reducible apply State.onScu_of); on_goal 2 => rfl)

theorem State.screensLeave_of {qs : List Part} {old : State} (s : State) (hq : Frame qs old s)
    (m : within [.scu] qs = true) : Frame qs old (State.screensLeave s) := hq.comp (State.screensLeave_fr s) m

theorem State.refreshScreens_fr (s : State) (sel : Nat) :
    Frame [.cls, .scu, .flags, .lde] s (State.refreshScreens s sel) := by
  unfold State.refreshScreens
  repeat' first
    | with_reducible exact Frame.refl _ _
    | with_reducible apply Frame.ite
    | ((with_reducible apply State.fullRefresh_of); on_goal 2 => rfl)
    | ((with_reducible apply State.requestRefresh_of); on_goal 2 => rfl)
    | ((with_reducible apply State.tryFetch_of); on_goal 2 => rfl)

theorem State.refreshScreens_of {qs : List Part} {old : State} (s : State) (sel : Nat) (hq : Frame qs old s)
    (m : within [.cls, .scu, .flags, .lde] qs = true) : Frame qs old (State.refreshScreens s sel) := hq.comp (State.refreshScreens_fr s sel) m

theorem State.takeRefresh_fr (s : State) (w : Word) :
    Frame [.cls, .scu, .flags, .lde] s (State.takeRefresh s w) := by
  unfold State.takeRefresh
  repeat' first
    | with_reducible exact Frame.refl _ _
    | with_reducible apply Frame.ite
    | ((with_reducible apply State.notify_of); on_goal 2 => rfl)
    | ((with_reducible apply State.onScu_of); on_goal 2 => rfl)
    | ((with_reducible apply State.refreshScreens_of); on_goal 2 => rfl)

theorem State.takeRefresh_of {qs : List Part} {old : State} (s : State) (w : Word) (hq : Frame qs old s)
    (m : within [.cls, .scu, .flags, .lde] qs = true) : Frame qs old (State.takeRefresh s w) := hq.comp (State.takeRefresh_fr s w) m

theorem State.deliverTile_fr (s : State) (c : CellFields) :
    Frame [.flags, .lde] s (State.deliverTile s c) := by
  unfold State.deliverTile
  repeat' first
    | with_reducible exact Frame.refl _ _
    | with_reducible apply Frame.ite
    | ((with_reducible apply State.requestNormal_of); on_goal 2 => rfl)
    | split

theorem State.deliverTile_of {qs : List Part} {old : State} (s : State) (c : CellFields) (hq : Frame qs old s)
    (m : within [.flags, .lde] qs = true) : Frame qs old (State.deliverTile s c) := hq.comp (State.deliverTile_fr s c) m

theorem State.deliverScreenReq_fr (s : State) (c : CellFields) :
    Frame [.scu, .flags, .lde] s (State.deliverScreenReq s c) := by
  unfold State.deliverScreenReq
  repeat' first
    | with_reducible exact Frame.refl _ _
    | with_reducible apply Frame.ite
    | ((with_reducible apply State.fullRefresh_of); on_goal 2 => rfl)
    | ((with_reducible apply State.tryFetch_of); on_goal 2 => rfl)
    | split

theorem State.deliverScreenReq_of {qs : List Part} {old : State} (s : State) (c : CellFields) (hq : Frame qs old s)
    (m : within [.scu, .flags, .lde] qs = true) : Frame qs old (State.deliverScreenReq s c) := hq.comp (State.deliverScreenReq_fr s c) m

theorem State.tileLanded_fr (s : State) (i : Fin 2) :
    Frame [.scu] s (State.tileLanded s i) := by
  unfold State.tileLanded
  repeat' first
    | with_reducible exact Frame.refl _ _
    | with_reducible apply Frame.ite
    | ((with_reducible apply State.onScu_of); on_goal 2 => rfl)

theorem State.tileLanded_of {qs : List Part} {old : State} (s : State) (i : Fin 2) (hq : Frame qs old s)
    (m : within [.scu] qs = true) : Frame qs old (State.tileLanded s i) := hq.comp (State.tileLanded_fr s i) m

theorem State.freeLock_fr (s : State) :
    Frame [.ksc] s (State.freeLock s) := by
  unfold State.freeLock
  repeat' first
    | with_reducible exact Frame.refl _ _
    | with_reducible apply Frame.ite
    | ((with_reducible apply State.onKsc_of _ _ (le_max_left _ _)); on_goal 2 => rfl)

theorem State.freeLock_of {qs : List Part} {old : State} (s : State) (hq : Frame qs old s)
    (m : within [.ksc] qs = true) : Frame qs old (State.freeLock s) := hq.comp (State.freeLock_fr s) m

theorem State.acceptOrdinary_fr (s : State) (k : Fin 64) (press : Bool) :
    Frame [.ksc, .flags] s (State.acceptOrdinary s k press) := by
  unfold State.acceptOrdinary
  repeat' first
    | with_reducible exact Frame.refl _ _
    | with_reducible apply Frame.ite
    | ((with_reducible apply State.freeLock_of); on_goal 2 => rfl)
    | ((with_reducible apply State.offerKey_of); on_goal 2 => rfl)
    | ((with_reducible apply State.onKsc_of _ _ (le_max_left _ _)); on_goal 2 => rfl)

theorem State.acceptOrdinary_of {qs : List Part} {old : State} (s : State) (k : Fin 64) (press : Bool) (hq : Frame qs old s)
    (m : within [.ksc, .flags] qs = true) : Frame qs old (State.acceptOrdinary s k press) := hq.comp (State.acceptOrdinary_fr s k press) m

theorem State.acceptStop_fr (s : State) (k : Fin 64) (press : Bool) :
    Frame [.tru, .cmu, .ksc, .flags] s (State.acceptStop s k press) := by
  unfold State.acceptStop
  repeat' first
    | with_reducible exact Frame.refl _ _
    | with_reducible apply Frame.ite
    | ((with_reducible apply State.handCondition_of); on_goal 2 => rfl)
    | ((with_reducible apply State.offerKey_of); on_goal 2 => rfl)
    | ((with_reducible apply State.onKsc_of _ _ (le_max_left _ _)); on_goal 2 => rfl)

theorem State.acceptStop_of {qs : List Part} {old : State} (s : State) (k : Fin 64) (press : Bool) (hq : Frame qs old s)
    (m : within [.tru, .cmu, .ksc, .flags] qs = true) : Frame qs old (State.acceptStop s k press) := hq.comp (State.acceptStop_fr s k press) m

theorem State.readKey_fr (s : State) (k : Fin 64) (pressed : Bool) :
    Frame [.tru, .cmu, .ksc, .flags] s (State.readKey s k pressed) := by
  unfold State.readKey
  repeat' first
    | with_reducible exact Frame.refl _ _
    | with_reducible apply Frame.ite
    | ((with_reducible apply State.acceptOrdinary_of); on_goal 2 => rfl)
    | ((with_reducible apply State.acceptStop_of); on_goal 2 => rfl)
    | ((with_reducible apply State.onKsc_of _ _ (le_max_left _ _)); on_goal 2 => rfl)

theorem State.readKey_of {qs : List Part} {old : State} (s : State) (k : Fin 64) (pressed : Bool) (hq : Frame qs old s)
    (m : within [.tru, .cmu, .ksc, .flags] qs = true) : Frame qs old (State.readKey s k pressed) := hq.comp (State.readKey_fr s k pressed) m

theorem State.readRow_fr (s : State) (cols : BitVec 8) :
    Frame [.tru, .cmu, .ksc, .flags] s (State.readRow s cols) := by
  unfold State.readRow
  repeat' first
    | with_reducible exact Frame.refl _ _
    | with_reducible apply Frame.ite
    | ((with_reducible apply Frame.foldl); on_goal 2 => intro u x _)
    | ((with_reducible apply State.onKsc_of _ _ (le_max_left _ _)); on_goal 2 => rfl)
    | ((with_reducible apply State.readKey_of); on_goal 2 => rfl)

theorem State.readRow_of {qs : List Part} {old : State} (s : State) (cols : BitVec 8) (hq : Frame qs old s)
    (m : within [.tru, .cmu, .ksc, .flags] qs = true) : Frame qs old (State.readRow s cols) := hq.comp (State.readRow_fr s cols) m

theorem State.deliverKeys_fr (s : State) (c : CellFields) :
    Frame [.ksc, .flags, .lde] s (State.deliverKeys s c) := by
  unfold State.deliverKeys
  repeat' first
    | with_reducible exact Frame.refl _ _
    | with_reducible apply Frame.ite
    | ((with_reducible apply State.onKsc_of _ _ (le_max_left _ _)); on_goal 2 => rfl)
    | ((with_reducible apply State.requestNormal_of); on_goal 2 => rfl)
    | split

theorem State.deliverKeys_of {qs : List Part} {old : State} (s : State) (c : CellFields) (hq : Frame qs old s)
    (m : within [.ksc, .flags, .lde] qs = true) : Frame qs old (State.deliverKeys s c) := hq.comp (State.deliverKeys_fr s c) m

theorem State.onCap_fr (s : State) (ch : Fin 4) (f : Capture → Capture) :
    Frame [.igu] s (State.onCap s ch f) := by
  unfold State.onCap
  repeat' first
    | with_reducible exact Frame.refl _ _
    | with_reducible apply Frame.ite
    | ((with_reducible apply State.onIgu_of _ _ (le_max_left _ _)); on_goal 2 => rfl)

theorem State.onCap_of {qs : List Part} {old : State} (s : State) (ch : Fin 4) (f : Capture → Capture) (hq : Frame qs old s)
    (m : within [.igu] qs = true) : Frame qs old (State.onCap s ch f) := hq.comp (State.onCap_fr s ch f) m

theorem State.overrun_fr (s : State) (ch : Fin 4) (next : CaptureState) :
    Frame [.igu, .flags] s (State.overrun s ch next) := by
  unfold State.overrun
  repeat' first
    | with_reducible exact Frame.refl _ _
    | with_reducible apply Frame.ite
    | ((with_reducible apply State.notify_of); on_goal 2 => rfl)
    | ((with_reducible apply State.onCap_of); on_goal 2 => rfl)

theorem State.overrun_of {qs : List Part} {old : State} (s : State) (ch : Fin 4) (next : CaptureState) (hq : Frame qs old s)
    (m : within [.igu, .flags] qs = true) : Frame qs old (State.overrun s ch next) := hq.comp (State.overrun_fr s ch next) m

theorem State.captureWord_fr (s : State) (ch : Fin 4) (cam : CamCfg) (w : Word) (be : BitVec 4) :
    Frame [.igu, .flags] s (s.captureWord ch cam w be) := by
  unfold State.captureWord
  dsimp only
  split
  · split
    · rename_i h
      exact State.pushFragment_of _ _ h (State.onCap_of _ _ _ (Frame.refl _ _) rfl) rfl
    · exact State.overrun_of _ _ _ (State.onCap_of _ _ _ (Frame.refl _ _) rfl) rfl
  · exact State.onCap_of _ _ _ (Frame.refl _ _) rfl

theorem State.imageStart_fr (s : State) (ch : Fin 4) (cam : CamCfg) (w : Word) (be : BitVec 4) :
    Frame [.cmu, .igu, .flags] s (s.imageStart ch cam w be) := by
  unfold State.imageStart
  dsimp only
  split
  · rename_i h
    refine Frame.comp ?_ (State.captureWord_fr _ ch cam w be) rfl
    exact State.onCap_of _ _ _ (State.pushFragment_of _ _ h
      (State.onCmu_of _ _ (State.onCap_of _ _ _ (Frame.refl _ _) rfl) rfl) rfl) rfl
  · exact State.overrun_of _ _ _ (State.onCmu_of _ _ (State.onCap_of _ _ _ (Frame.refl _ _) rfl) rfl) rfl

theorem State.camBeat_fr (s : State) (ch : Fin 4) (off : Nat) (w : Word) (be : BitVec 4) :
    Frame [.cmu, .igu, .flags] s (s.camBeat ch off w be) := by
  unfold State.camBeat
  split
  · exact Frame.refl _ _
  · split
    · exact State.imageStart_fr ..
    · split
      · exact Frame.refl _ _
      · exact Frame.refl _ _
      · split
        · exact (State.captureWord_fr ..).mono
        · exact State.notify_of _ _ (State.onCap_of _ _ _ (Frame.refl _ _) rfl) rfl

theorem State.camBeat_of {qs : List Part} {old : State} (s : State) (ch : Fin 4) (off : Nat) (w : Word) (be : BitVec 4) (hq : Frame qs old s)
    (m : within [.cmu, .igu, .flags] qs = true) : Frame qs old (State.camBeat s ch off w be) := hq.comp (State.camBeat_fr s ch off w be) m

theorem State.imagesLeave_fr (s : State) :
    Frame [.igu, .flags] s (State.imagesLeave s) := by
  unfold State.imagesLeave
  repeat' first
    | with_reducible exact Frame.refl _ _
    | with_reducible apply Frame.ite
    | ((with_reducible apply State.notifyIf_of); on_goal 2 => rfl)
    | ((with_reducible apply State.onIgu_of _ _ (le_max_left _ _)); on_goal 2 => rfl)

theorem State.imagesLeave_of {qs : List Part} {old : State} (s : State) (hq : Frame qs old s)
    (m : within [.igu, .flags] qs = true) : Frame qs old (State.imagesLeave s) := hq.comp (State.imagesLeave_fr s) m

theorem State.onStream_fr (s : State) (i : Fin 4) (f : Stream → Stream) :
    Frame [.igu] s (State.onStream s i f) := by
  unfold State.onStream
  repeat' first
    | with_reducible exact Frame.refl _ _
    | with_reducible apply Frame.ite
    | ((with_reducible apply State.onIgu_of _ _ (le_max_left _ _)); on_goal 2 => rfl)

theorem State.onStream_of {qs : List Part} {old : State} (s : State) (i : Fin 4) (f : Stream → Stream) (hq : Frame qs old s)
    (m : within [.igu] qs = true) : Frame qs old (State.onStream s i f) := hq.comp (State.onStream_fr s i f) m

theorem State.endImage_fr (s : State) (i : Fin 4) (complete : Bool) :
    Frame [.igu, .flags, .lde] s (State.endImage s i complete) := by
  unfold State.endImage
  repeat' first
    | with_reducible exact Frame.refl _ _
    | with_reducible apply Frame.ite
    | ((with_reducible apply State.notify_of); on_goal 2 => rfl)
    | ((with_reducible apply State.onStream_of); on_goal 2 => rfl)
    | ((with_reducible apply State.requestNormal_of); on_goal 2 => rfl)
    | split

theorem State.endImage_of {qs : List Part} {old : State} (s : State) (i : Fin 4) (complete : Bool) (hq : Frame qs old s)
    (m : within [.igu, .flags, .lde] qs = true) : Frame qs old (State.endImage s i complete) := hq.comp (State.endImage_fr s i complete) m

theorem State.headArrives_fr (s : State) (i : Fin 4) (p : StreamParams) (c : CellFields) :
    Frame [.igu, .flags, .lde] s (State.headArrives s i p c) := by
  unfold State.headArrives
  repeat' first
    | with_reducible exact Frame.refl _ _
    | with_reducible apply Frame.ite
    | ((with_reducible apply State.endImage_of); on_goal 2 => rfl)
    | ((with_reducible apply State.notify_of); on_goal 2 => rfl)
    | ((with_reducible apply State.onStream_of); on_goal 2 => rfl)

theorem State.headArrives_of {qs : List Part} {old : State} (s : State) (i : Fin 4) (p : StreamParams) (c : CellFields) (hq : Frame qs old s)
    (m : within [.igu, .flags, .lde] qs = true) : Frame qs old (State.headArrives s i p c) := hq.comp (State.headArrives_fr s i p c) m

theorem State.dataArrives_fr (s : State) (i : Fin 4) (w : Window) (p : StreamParams) (c : CellFields) :
    Frame [.igu, .flags, .lde] s (State.dataArrives s i w p c) := by
  unfold State.dataArrives
  repeat' first
    | with_reducible exact Frame.refl _ _
    | with_reducible apply Frame.ite
    | ((with_reducible apply State.endImage_of); on_goal 2 => rfl)
    | ((with_reducible apply State.onStream_of); on_goal 2 => rfl)
    | ((with_reducible apply State.requestNormal_of); on_goal 2 => rfl)
    | split

theorem State.dataArrives_of {qs : List Part} {old : State} (s : State) (i : Fin 4) (w : Window) (p : StreamParams) (c : CellFields) (hq : Frame qs old s)
    (m : within [.igu, .flags, .lde] qs = true) : Frame qs old (State.dataArrives s i w p c) := hq.comp (State.dataArrives_fr s i w p c) m

theorem State.deliverImage_fr (s : State) (head : Bool) (c : CellFields) :
    Frame [.igu, .flags, .lde] s (State.deliverImage s head c) := by
  unfold State.deliverImage
  repeat' first
    | with_reducible exact Frame.refl _ _
    | with_reducible apply Frame.ite
    | ((with_reducible apply State.dataArrives_of); on_goal 2 => rfl)
    | ((with_reducible apply State.headArrives_of); on_goal 2 => rfl)
    | split

theorem State.deliverImage_of {qs : List Part} {old : State} (s : State) (head : Bool) (c : CellFields) (hq : Frame qs old s)
    (m : within [.igu, .flags, .lde] qs = true) : Frame qs old (State.deliverImage s head c) := hq.comp (State.deliverImage_fr s head c) m

theorem State.streamEpoch_fr (s : State) (i : Fin 4) :
    Frame [.igu, .flags, .lde] s (State.streamEpoch s i) := by
  unfold State.streamEpoch
  repeat' first
    | with_reducible exact Frame.refl _ _
    | with_reducible apply Frame.ite
    | ((with_reducible apply State.endImage_of); on_goal 2 => rfl)
    | ((with_reducible apply State.onStream_of); on_goal 2 => rfl)
    | split

theorem State.streamEpoch_of {qs : List Part} {old : State} (s : State) (i : Fin 4) (hq : Frame qs old s)
    (m : within [.igu, .flags, .lde] qs = true) : Frame qs old (State.streamEpoch s i) := hq.comp (State.streamEpoch_fr s i) m

theorem State.iguEpoch_fr (s : State) :
    Frame [.igu, .flags, .lde] s (State.iguEpoch s) := by
  unfold State.iguEpoch
  repeat' first
    | with_reducible exact Frame.refl _ _
    | with_reducible apply Frame.ite
    | ((with_reducible apply Frame.foldl); on_goal 2 => intro u x _)
    | ((with_reducible apply State.streamEpoch_of); on_goal 2 => rfl)

theorem State.iguEpoch_of {qs : List Part} {old : State} (s : State) (hq : Frame qs old s)
    (m : within [.igu, .flags, .lde] qs = true) : Frame qs old (State.iguEpoch s) := hq.comp (State.iguEpoch_fr s) m

theorem State.descriptorLanded_fr (s : State) (i : Fin 4) (k : Fin 16) (complete : Bool) :
    Frame [.igu, .flags] s (State.descriptorLanded s i k complete) := by
  unfold State.descriptorLanded
  repeat' first
    | with_reducible exact Frame.refl _ _
    | with_reducible apply Frame.ite
    | ((with_reducible apply State.notify_of); on_goal 2 => rfl)
    | ((with_reducible apply State.onStream_of); on_goal 2 => rfl)

theorem State.descriptorLanded_of {qs : List Part} {old : State} (s : State) (i : Fin 4) (k : Fin 16) (complete : Bool) (hq : Frame qs old s)
    (m : within [.igu, .flags] qs = true) : Frame qs old (State.descriptorLanded s i k complete) := hq.comp (State.descriptorLanded_fr s i k complete) m

theorem State.takeRelease_fr (s : State) (i : Fin 4) (k : Fin 16) :
    Frame [.igu] s (State.takeRelease s i k) := by
  unfold State.takeRelease
  repeat' first
    | with_reducible exact Frame.refl _ _
    | with_reducible apply Frame.ite
    | ((with_reducible apply State.onStream_of); on_goal 2 => rfl)

theorem State.takeRelease_of {qs : List Part} {old : State} (s : State) (i : Fin 4) (k : Fin 16) (hq : Frame qs old s)
    (m : within [.igu] qs = true) : Frame qs old (State.takeRelease s i k) := hq.comp (State.takeRelease_fr s i k) m

theorem State.landEmptyDescriptors_fr (s : State) (i : Fin 4) :
    Frame [.flags, .lde] s (State.landEmptyDescriptors s i) := by
  unfold State.landEmptyDescriptors
  repeat' first
    | with_reducible exact Frame.refl _ _
    | with_reducible apply Frame.ite
    | ((with_reducible apply State.requestNormal_of); on_goal 2 => rfl)
    | split

theorem State.landEmptyDescriptors_of {qs : List Part} {old : State} (s : State) (i : Fin 4) (hq : Frame qs old s)
    (m : within [.flags, .lde] qs = true) : Frame qs old (State.landEmptyDescriptors s i) := hq.comp (State.landEmptyDescriptors_fr s i) m

theorem State.takeCommit_fr (s : State) (n : Fin 128) (wa : Nat) :
    Frame [.slu] s (State.takeCommit s n wa) := by
  unfold State.takeCommit
  repeat' first
    | with_reducible exact Frame.refl _ _
    | with_reducible apply Frame.ite
    | ((with_reducible apply State.onSlu_of); on_goal 2 => rfl)

theorem State.takeCommit_of {qs : List Part} {old : State} (s : State) (n : Fin 128) (wa : Nat) (hq : Frame qs old s)
    (m : within [.slu] qs = true) : Frame qs old (State.takeCommit s n wa) := hq.comp (State.takeCommit_fr s n wa) m

theorem State.takeWithdraw_fr (s : State) (first count : Nat) (w : Word) :
    Frame [.slu] s (State.takeWithdraw s first count w) := by
  unfold State.takeWithdraw
  repeat' first
    | with_reducible exact Frame.refl _ _
    | with_reducible apply Frame.ite
    | ((with_reducible apply State.onSlu_of); on_goal 2 => rfl)
    | split
    | dsimp only

theorem State.takeWithdraw_of {qs : List Part} {old : State} (s : State) (first count : Nat) (w : Word) (hq : Frame qs old s)
    (m : within [.slu] qs = true) : Frame qs old (State.takeWithdraw s first count w) := hq.comp (State.takeWithdraw_fr s first count w) m

theorem State.decideSlots_fr (s : State) (tags : List Byte) :
    Frame [.tru, .slu, .cmu, .flags] s (State.decideSlots s tags).1 := by
  unfold State.decideSlots
  repeat' first
    | with_reducible exact Frame.refl _ _
    | with_reducible apply Frame.ite
    | ((with_reducible apply State.handCondition_of); on_goal 2 => rfl)
    | ((with_reducible apply State.notify_of); on_goal 2 => rfl)
    | ((with_reducible apply State.onSlu_of); on_goal 2 => rfl)
    | split
    | dsimp only

theorem State.decideSlots_of {qs : List Part} {old : State} (s : State) (tags : List Byte) (hq : Frame qs old s)
    (m : within [.tru, .slu, .cmu, .flags] qs = true) : Frame qs old (State.decideSlots s tags).1 := hq.comp (State.decideSlots_fr s tags) m

theorem State.handStale_fr (s0 s : State) :
    Frame [.tru, .cmu, .flags] s (State.handStale s0 s) := by
  unfold State.handStale
  repeat' first
    | with_reducible exact Frame.refl _ _
    | with_reducible apply Frame.ite
    | ((with_reducible apply State.handCondition_of); on_goal 2 => rfl)

theorem State.handStale_of {qs : List Part} {old : State} (s0 s : State) (hq : Frame qs old s)
    (m : within [.tru, .cmu, .flags] qs = true) : Frame qs old (State.handStale s0 s) := hq.comp (State.handStale_fr s0 s) m

theorem State.receiveSlot_fr (s : State) (n : Fin 128) (p : Fin 32) (data : List Byte) :
    Frame [.axu, .tru, .slu, .cmu, .flags] s (State.receiveSlot s n p data) := by
  unfold State.receiveSlot
  repeat' first
    | with_reducible exact Frame.refl _ _
    | with_reducible apply Frame.ite
    | ((with_reducible apply State.handStale_of); on_goal 2 => rfl)
    | ((with_reducible apply State.onAxu_of); on_goal 2 => rfl)
    | ((with_reducible apply State.onSlu_of); on_goal 2 => rfl)

theorem State.receiveSlot_of {qs : List Part} {old : State} (s : State) (n : Fin 128) (p : Fin 32) (data : List Byte) (hq : Frame qs old s)
    (m : within [.axu, .tru, .slu, .cmu, .flags] qs = true) : Frame qs old (State.receiveSlot s n p data) := hq.comp (State.receiveSlot_fr s n p data) m

theorem State.landSlots_fr (s : State) (i : Fin 8) :
    Frame [.slu, .lde] s (State.landSlots s i) := by
  unfold State.landSlots
  repeat' first
    | with_reducible exact Frame.refl _ _
    | with_reducible apply Frame.ite
    | ((with_reducible apply State.onSlu_of); on_goal 2 => rfl)
    | ((with_reducible apply State.requestUrgent_of); on_goal 2 => rfl)
    | split

theorem State.landSlots_of {qs : List Part} {old : State} (s : State) (i : Fin 8) (hq : Frame qs old s)
    (m : within [.slu, .lde] qs = true) : Frame qs old (State.landSlots s i) := hq.comp (State.landSlots_fr s i) m

theorem State.endSlotArea_fr (s : State) :
    Frame [.slu, .lde] s (State.endSlotArea s) := by
  unfold State.endSlotArea
  repeat' first
    | with_reducible exact Frame.refl _ _
    | with_reducible apply Frame.ite
    | ((with_reducible apply Frame.foldl); on_goal 2 => intro u x _)
    | ((with_reducible apply State.landSlots_of); on_goal 2 => rfl)

theorem State.endSlotArea_of {qs : List Part} {old : State} (s : State) (hq : Frame qs old s)
    (m : within [.slu, .lde] qs = true) : Frame qs old (State.endSlotArea s) := hq.comp (State.endSlotArea_fr s) m

theorem State.ageWindow_fr (s : State) (i : Fin 8) :
    Frame [.slu, .flags, .lde] s (State.ageWindow s i) := by
  unfold State.ageWindow
  repeat' first
    | with_reducible exact Frame.refl _ _
    | with_reducible apply Frame.ite
    | ((with_reducible apply State.notifyIf_of); on_goal 2 => rfl)
    | ((with_reducible apply State.onSlu_of); on_goal 2 => rfl)
    | ((with_reducible apply State.requestUrgent_of); on_goal 2 => rfl)
    | split

theorem State.ageWindow_of {qs : List Part} {old : State} (s : State) (i : Fin 8) (hq : Frame qs old s)
    (m : within [.slu, .flags, .lde] qs = true) : Frame qs old (State.ageWindow s i) := hq.comp (State.ageWindow_fr s i) m

theorem State.sluEpoch_fr (s : State) :
    Frame [.tru, .slu, .cmu, .flags, .lde] s (State.sluEpoch s) := by
  unfold State.sluEpoch
  repeat' first
    | with_reducible exact Frame.refl _ _
    | with_reducible apply Frame.ite
    | ((with_reducible apply Frame.foldl); on_goal 2 => intro u x _)
    | ((with_reducible apply State.ageWindow_of); on_goal 2 => rfl)
    | ((with_reducible apply State.handStale_of); on_goal 2 => rfl)

theorem State.sluEpoch_of {qs : List Part} {old : State} (s : State) (hq : Frame qs old s)
    (m : within [.tru, .slu, .cmu, .flags, .lde] qs = true) : Frame qs old (State.sluEpoch s) := hq.comp (State.sluEpoch_fr s) m

theorem State.landInitialStatus_fr (s : State) (i : Fin 8) :
    Frame [.lde] s (State.landInitialStatus s i) := by
  unfold State.landInitialStatus
  repeat' first
    | with_reducible exact Frame.refl _ _
    | with_reducible apply Frame.ite
    | ((with_reducible apply State.requestUrgent_of); on_goal 2 => rfl)
    | split

theorem State.landInitialStatus_of {qs : List Part} {old : State} (s : State) (i : Fin 8) (hq : Frame qs old s)
    (m : within [.lde] qs = true) : Frame qs old (State.landInitialStatus s i) := hq.comp (State.landInitialStatus_fr s i) m

theorem State.startClaims_fr (s : State) :
    Frame [.cls] s (State.startClaims s) := by
  unfold State.startClaims
  repeat' first
    | with_reducible exact Frame.refl _ _
    | with_reducible apply Frame.ite
    | ((with_reducible apply State.onCls_of); on_goal 2 => rfl)

theorem State.startClaims_of {qs : List Part} {old : State} (s : State) (hq : Frame qs old s)
    (m : within [.cls] qs = true) : Frame qs old (State.startClaims s) := hq.comp (State.startClaims_fr s) m

theorem State.takeKeys_fr (s : State) :
    Frame [.ksc] s (State.takeKeys s) := by
  unfold State.takeKeys
  repeat' first
    | with_reducible exact Frame.refl _ _
    | with_reducible apply Frame.ite
    | ((with_reducible apply State.onKsc_of _ _ (le_max_left _ _)); on_goal 2 => rfl)

theorem State.takeKeys_of {qs : List Part} {old : State} (s : State) (hq : Frame qs old s)
    (m : within [.ksc] qs = true) : Frame qs old (State.takeKeys s) := hq.comp (State.takeKeys_fr s) m

theorem State.takeMessage_of {qs : List Part} {old s : State} {r : State × CellFields} (e : s.takeMessage = some r)
    (hq : Frame qs old s) (m : within [.cls, .ksc] qs = true) : Frame qs old r.1 := by
  have k : Frame [.cls, .ksc] s r.1 := by
    unfold State.takeMessage at e
    dsimp only at e
    repeat' split at e
    all_goals first
      | (cases e; done)
      | (cases e; dsimp only; refine State.takeKeys_of _ (State.onCls_of _ _ (Frame.refl _ _) ?_) ?_ <;> rfl)
      | (cases e; dsimp only; refine State.onCls_of _ _ (State.onCls_of _ _ (Frame.refl _ _) ?_) ?_ <;> rfl)
  exact hq.comp k m

theorem State.takeTile_of {qs : List Part} {old s : State} {r : State × CellFields} (e : s.takeTile = some r)
    (hq : Frame qs old s) (m : within [.scu, .flags, .lde] qs = true) : Frame qs old r.1 := by
  have k : Frame [.scu, .flags, .lde] s r.1 := by
    unfold State.takeTile at e
    split at e
    · cases e
    · cases e
      exact State.tryFetch_of _ (State.onScu_of _ _ (Frame.refl _ _) rfl) rfl
  exact hq.comp k m

theorem State.takeFragment_of {qs : List Part} {old s : State} {r : State × CellFields} (e : s.takeFragment = some r)
    (hq : Frame qs old s) (m : within [.igu] qs = true) : Frame qs old r.1 := by
  have k : Frame [.igu] s r.1 := by
    unfold State.takeFragment at e
    split at e
    · cases e
    · rename_i f rest h
      cases e
      dsimp only
      refine State.onIgu_fr _ _ (le_max_of_le_left ?_)
      rw [h]
      exact Nat.le_succ _
  exact hq.comp k m

/-- What an item of the fill order changes (R130, R131). -/
theorem State.nextItem_of {qs : List Part} {old s : State} {r : State × CellFields} (e : s.nextItem = some r)
    (hq : Frame qs old s) (m : within [.cls, .igu, .scu, .ksc, .flags, .lde] qs = true) : Frame qs old r.1 := by
  have k : Frame [.cls, .igu, .scu, .ksc, .flags, .lde] s r.1 := by
    unfold State.nextItem at e
    split at e
    · rename_i h
      cases e
      exact State.takeMessage_of h (Frame.refl _ _) rfl
    · split at e
      · rename_i h
        cases e
        unfold State.takeReserved at h
        split at h
        · exact State.takeTile_of h (State.onCls_of _ _ (Frame.refl _ _) rfl) rfl
        · cases h
      · split at e
        · rename_i h
          cases e
          exact State.takeFragment_of h (Frame.refl _ _) rfl
        · exact State.takeTile_of e (Frame.refl _ _) rfl
  exact hq.comp k m

theorem State.decideCell_fr (s : State) (b : Block) :
    Frame [.cls, .igu, .scu, .ksc, .flags, .lde] s (s.decideCell b).1 := by
  unfold State.decideCell
  split
  · split
    · rename_i h
      have k := State.nextItem_of h (Frame.refl [.cls, .igu, .scu, .ksc, .flags, .lde] _) rfl
      dsimp only at k ⊢
      exact k.comp (State.onCls_fr _ _) rfl
    · exact Frame.refl _ _
  · exact Frame.refl _ _

theorem State.decideCell_of {qs : List Part} {old : State} (s : State) (b : Block) (hq : Frame qs old s)
    (m : within [.cls, .igu, .scu, .ksc, .flags, .lde] qs = true) : Frame qs old (State.decideCell s b).1 := hq.comp (State.decideCell_fr s b) m

theorem State.endClaims_fr (s : State) :
    Frame [.flags] s (State.endClaims s) := by
  unfold State.endClaims
  repeat' first
    | with_reducible exact Frame.refl _ _
    | with_reducible apply Frame.ite
    | ((with_reducible apply State.notifyIf_of); on_goal 2 => rfl)

theorem State.endClaims_of {qs : List Part} {old : State} (s : State) (hq : Frame qs old s)
    (m : within [.flags] qs = true) : Frame qs old (State.endClaims s) := hq.comp (State.endClaims_fr s) m

theorem State.handCell_fr (s : State) (c : CellFields) :
    Frame [.igu, .scu, .ksc, .flags, .lde] s (State.handCell s c) := by
  unfold State.handCell
  repeat' first
    | with_reducible exact Frame.refl _ _
    | with_reducible apply Frame.ite
    | ((with_reducible apply State.deliverImage_of); on_goal 2 => rfl)
    | ((with_reducible apply State.deliverKeys_of); on_goal 2 => rfl)
    | ((with_reducible apply State.deliverScreenReq_of); on_goal 2 => rfl)
    | ((with_reducible apply State.deliverTile_of); on_goal 2 => rfl)

theorem State.handCell_of {qs : List Part} {old : State} (s : State) (c : CellFields) (hq : Frame qs old s)
    (m : within [.igu, .scu, .ksc, .flags, .lde] qs = true) : Frame qs old (State.handCell s c) := hq.comp (State.handCell_fr s c) m

theorem State.deliverCell_fr (s : State) (b : Block) :
    Frame [.igu, .scu, .ksc, .flags, .lde] s (State.deliverCell s b) := by
  unfold State.deliverCell
  repeat' first
    | with_reducible exact Frame.refl _ _
    | with_reducible apply Frame.ite
    | ((with_reducible apply State.handCell_of); on_goal 2 => rfl)
    | split

theorem State.deliverCell_of {qs : List Part} {old : State} (s : State) (b : Block) (hq : Frame qs old s)
    (m : within [.igu, .scu, .ksc, .flags, .lde] qs = true) : Frame qs old (State.deliverCell s b) := hq.comp (State.deliverCell_fr s b) m

theorem State.onChannel_fr (s : State) (i : Fin 4) (f : Channel → Channel) :
    Frame [.cmu] s (State.onChannel s i f) := by
  unfold State.onChannel
  repeat' first
    | with_reducible exact Frame.refl _ _
    | with_reducible apply Frame.ite
    | ((with_reducible apply State.onCmu_of); on_goal 2 => rfl)

theorem State.onChannel_of {qs : List Part} {old : State} (s : State) (i : Fin 4) (f : Channel → Channel) (hq : Frame qs old s)
    (m : within [.cmu] qs = true) : Frame qs old (State.onChannel s i f) := hq.comp (State.onChannel_fr s i f) m

theorem State.channelEpoch_fr (s : State) (mark : Bool) (i : Fin 4) :
    Frame [.cmu, .flags] s (State.channelEpoch s mark i) := by
  unfold State.channelEpoch
  repeat' first
    | with_reducible exact Frame.refl _ _
    | with_reducible apply Frame.ite
    | ((with_reducible apply State.notifyIf_of); on_goal 2 => rfl)
    | ((with_reducible apply State.onChannel_of); on_goal 2 => rfl)
    | split

theorem State.channelEpoch_of {qs : List Part} {old : State} (s : State) (mark : Bool) (i : Fin 4) (hq : Frame qs old s)
    (m : within [.cmu, .flags] qs = true) : Frame qs old (State.channelEpoch s mark i) := hq.comp (State.channelEpoch_fr s mark i) m

theorem State.cmuEpoch_fr (s : State) (mark : Bool) :
    Frame [.cmu, .flags] s (State.cmuEpoch s mark) := by
  unfold State.cmuEpoch
  repeat' first
    | with_reducible exact Frame.refl _ _
    | with_reducible apply Frame.ite
    | ((with_reducible apply Frame.foldl); on_goal 2 => intro u x _)
    | ((with_reducible apply State.channelEpoch_of); on_goal 2 => rfl)

theorem State.cmuEpoch_of {qs : List Part} {old : State} (s : State) (mark : Bool) (hq : Frame qs old s)
    (m : within [.cmu, .flags] qs = true) : Frame qs old (State.cmuEpoch s mark) := hq.comp (State.cmuEpoch_fr s mark) m

theorem State.expose_fr (s : State) (i : Fin 4) :
    Frame [.cmu, .flags] s (State.expose s i) := by
  unfold State.expose
  repeat' first
    | with_reducible exact Frame.refl _ _
    | with_reducible apply Frame.ite
    | ((with_reducible apply State.notifyIf_of); on_goal 2 => rfl)
    | ((with_reducible apply State.onChannel_of); on_goal 2 => rfl)

theorem State.expose_of {qs : List Part} {old : State} (s : State) (i : Fin 4) (hq : Frame qs old s)
    (m : within [.cmu, .flags] qs = true) : Frame qs old (State.expose s i) := hq.comp (State.expose_fr s i) m

theorem State.expLine_fr (s : State) (i : Fin 4) (level : Bool) :
    Frame [.cmu, .flags] s (State.expLine s i level) := by
  unfold State.expLine
  repeat' first
    | with_reducible exact Frame.refl _ _
    | with_reducible apply Frame.ite
    | ((with_reducible apply State.expose_of); on_goal 2 => rfl)
    | ((with_reducible apply State.onChannel_of); on_goal 2 => rfl)
    | split

theorem State.expLine_of {qs : List Part} {old : State} (s : State) (i : Fin 4) (level : Bool) (hq : Frame qs old s)
    (m : within [.cmu, .flags] qs = true) : Frame qs old (State.expLine s i level) := hq.comp (State.expLine_fr s i level) m

theorem State.generatorEpoch_fr (s : State) :
    Frame [.lsu, .ptu] s (State.generatorEpoch s).1 := by
  unfold State.generatorEpoch
  repeat' first
    | with_reducible exact Frame.refl _ _
    | with_reducible apply Frame.ite
    | ((with_reducible apply State.onLsu_of); on_goal 2 => rfl)
    | ((with_reducible apply State.onPtu_of _ _ (rfl)); on_goal 2 => rfl)

theorem State.generatorEpoch_of {qs : List Part} {old : State} (s : State) (hq : Frame qs old s)
    (m : within [.lsu, .ptu] qs = true) : Frame qs old (State.generatorEpoch s).1 := hq.comp (State.generatorEpoch_fr s) m

theorem State.lsuEpoch_fr (s : State) (hdr : Option HeaderShaft) (mark : Bool) :
    Frame [.lsu, .flags, .ptu, .lde] s (State.lsuEpoch s hdr mark) := by
  unfold State.lsuEpoch
  repeat' first
    | with_reducible exact Frame.refl _ _
    | with_reducible apply Frame.ite
    | ((with_reducible apply State.generatorEpoch_of); on_goal 2 => rfl)
    | ((with_reducible apply State.onLsu_of); on_goal 2 => rfl)
    | ((with_reducible apply State.requestResult_of); on_goal 2 => rfl)
    | ((with_reducible apply State.requestUrgent_of); on_goal 2 => rfl)
    | split
    | dsimp only

theorem State.lsuEpoch_of {qs : List Part} {old : State} (s : State) (hdr : Option HeaderShaft) (mark : Bool) (hq : Frame qs old s)
    (m : within [.lsu, .flags, .ptu, .lde] qs = true) : Frame qs old (State.lsuEpoch s hdr mark) := hq.comp (State.lsuEpoch_fr s hdr mark) m

theorem State.axisSteps_fr (s : State) (mark : Bool) :
    Frame [.axu, .ptu] s (State.axisSteps s mark) := by
  unfold State.axisSteps
  repeat' first
    | with_reducible exact Frame.refl _ _
    | with_reducible apply Frame.ite
    | ((with_reducible apply State.onAxu_of); on_goal 2 => rfl)
    | ((with_reducible apply State.onPtu_of _ _ (rfl)); on_goal 2 => rfl)

theorem State.axisSteps_of {qs : List Part} {old : State} (s : State) (mark : Bool) (hq : Frame qs old s)
    (m : within [.axu, .ptu] qs = true) : Frame qs old (State.axisSteps s mark) := hq.comp (State.axisSteps_fr s mark) m

theorem State.axuEpoch_fr (s : State) (synthesized mark : Bool) :
    Frame [.axu, .flags, .ptu, .lde] s (State.axuEpoch s synthesized mark) := by
  unfold State.axuEpoch
  repeat' first
    | with_reducible exact Frame.refl _ _
    | with_reducible apply Frame.ite
    | ((with_reducible apply State.axisSteps_of); on_goal 2 => rfl)
    | ((with_reducible apply State.requestNormal_of); on_goal 2 => rfl)
    | ((with_reducible apply State.requestUrgent_of); on_goal 2 => rfl)
    | split

theorem State.axuEpoch_of {qs : List Part} {old : State} (s : State) (synthesized mark : Bool) (hq : Frame qs old s)
    (m : within [.axu, .flags, .ptu, .lde] qs = true) : Frame qs old (State.axuEpoch s synthesized mark) := hq.comp (State.axuEpoch_fr s synthesized mark) m

theorem State.handSourceLost_fr (s : State) :
    Frame [.tru, .cmu, .flags] s (State.handSourceLost s) := by
  unfold State.handSourceLost
  repeat' first
    | with_reducible exact Frame.refl _ _
    | with_reducible apply Frame.ite
    | ((with_reducible apply State.handCondition_of); on_goal 2 => rfl)

theorem State.handSourceLost_of {qs : List Part} {old : State} (s : State) (hq : Frame qs old s)
    (m : within [.tru, .cmu, .flags] qs = true) : Frame qs old (State.handSourceLost s) := hq.comp (State.handSourceLost_fr s) m

theorem State.noticeEnd_fr (s0 s : State) :
    Frame [.flags] s (State.noticeEnd s0 s) := by
  unfold State.noticeEnd
  repeat' first
    | with_reducible exact Frame.refl _ _
    | with_reducible apply Frame.ite
    | ((with_reducible apply State.notifyIf_of); on_goal 2 => rfl)

theorem State.noticeEnd_of {qs : List Part} {old : State} (s0 s : State) (hq : Frame qs old s)
    (m : within [.flags] qs = true) : Frame qs old (State.noticeEnd s0 s) := hq.comp (State.noticeEnd_fr s0 s) m

theorem State.enterJoined_fr (s : State) :
    Frame [.flu, .tru, .cls, .cmu, .scu, .flags, .lde] s (State.enterJoined s) := by
  unfold State.enterJoined
  repeat' first
    | with_reducible exact Frame.refl _ _
    | with_reducible apply Frame.ite
    | ((with_reducible apply State.handCondition_of); on_goal 2 => rfl)
    | ((with_reducible apply State.notify_of); on_goal 2 => rfl)
    | ((with_reducible apply State.onFlu_of); on_goal 2 => rfl)
    | ((with_reducible apply State.screensJoin_of); on_goal 2 => rfl)

theorem State.enterJoined_of {qs : List Part} {old : State} (s : State) (hq : Frame qs old s)
    (m : within [.flu, .tru, .cls, .cmu, .scu, .flags, .lde] qs = true) : Frame qs old (State.enterJoined s) := hq.comp (State.enterJoined_fr s) m

theorem State.leaveJoined_fr (s : State) :
    Frame [.flu, .cmu, .igu, .scu, .flags] s (State.leaveJoined s) := by
  unfold State.leaveJoined
  repeat' first
    | with_reducible exact Frame.refl _ _
    | with_reducible apply Frame.ite
    | ((with_reducible apply State.cancelFirings_of); on_goal 2 => rfl)
    | ((with_reducible apply State.imagesLeave_of); on_goal 2 => rfl)
    | ((with_reducible apply State.onFlu_of); on_goal 2 => rfl)
    | ((with_reducible apply State.screensLeave_of); on_goal 2 => rfl)

theorem State.leaveJoined_of {qs : List Part} {old : State} (s : State) (hq : Frame qs old s)
    (m : within [.flu, .cmu, .igu, .scu, .flags] qs = true) : Frame qs old (State.leaveJoined s) := hq.comp (State.leaveJoined_fr s) m

theorem State.leaveRing_fr (s : State) :
    Frame [.flu, .tru, .cmu, .igu, .scu, .flags] s (State.leaveRing s) := by
  unfold State.leaveRing
  repeat' first
    | with_reducible exact Frame.refl _ _
    | with_reducible apply Frame.ite
    | ((with_reducible apply State.handCondition_of); on_goal 2 => rfl)
    | ((with_reducible apply State.leaveJoined_of); on_goal 2 => rfl)
    | ((with_reducible apply State.notify_of); on_goal 2 => rfl)
    | ((with_reducible apply State.onFlu_of); on_goal 2 => rfl)
    | ((with_reducible apply State.onTru_of); on_goal 2 => rfl)
    | ((with_reducible apply State.recompute_of); on_goal 2 => rfl)

theorem State.leaveRing_of {qs : List Part} {old : State} (s : State) (hq : Frame qs old s)
    (m : within [.flu, .tru, .cmu, .igu, .scu, .flags] qs = true) : Frame qs old (State.leaveRing s) := hq.comp (State.leaveRing_fr s) m

theorem State.loseRing_fr (s : State) (sweepFirst : Bool) :
    Frame [.flu, .tru, .cmu, .igu, .scu, .flags, .lde] s (State.loseRing s sweepFirst) := by
  unfold State.loseRing
  exact State.leaveRing_of _ (Frame.ite ((State.scuEpoch_fr s).mono (m := rfl)) (Frame.refl _ _)) rfl

theorem State.loseRing_of {qs : List Part} {old : State} (s : State) (sweepFirst : Bool) (hq : Frame qs old s)
    (m : within [.flu, .tru, .cmu, .igu, .scu, .flags, .lde] qs = true) : Frame qs old (State.loseRing s sweepFirst) := hq.comp (State.loseRing_fr s sweepFirst) m

theorem State.epochIn_fr (s : State) (lossFirst sweepFirst ageFirst lostFirst : Bool) (hdr : Option HeaderShaft) (mark loss : Bool) :
    Frame [.flu, .lsu, .axu, .tru, .slu, .cmu, .igu, .scu, .flags, .ptu, .lde] s (State.epochIn s lossFirst sweepFirst ageFirst lostFirst hdr mark loss) := by
  unfold State.epochIn
  repeat' first
    | with_reducible exact Frame.refl _ _
    | with_reducible apply Frame.ite
    | ((with_reducible apply State.axuEpoch_of); on_goal 2 => rfl)
    | ((with_reducible apply State.cmuEpoch_of); on_goal 2 => rfl)
    | ((with_reducible apply State.handSourceLost_of); on_goal 2 => rfl)
    | ((with_reducible apply State.iguEpoch_of); on_goal 2 => rfl)
    | ((with_reducible apply State.loseRing_of); on_goal 2 => rfl)
    | ((with_reducible apply State.lsuEpoch_of); on_goal 2 => rfl)
    | ((with_reducible apply State.scuEpoch_of); on_goal 2 => rfl)
    | ((with_reducible apply State.sluEpoch_of); on_goal 2 => rfl)
    | ((with_reducible apply State.truEpoch_of); on_goal 2 => rfl)

theorem State.epochIn_of {qs : List Part} {old : State} (s : State) (lossFirst sweepFirst ageFirst lostFirst : Bool) (hdr : Option HeaderShaft) (mark loss : Bool) (hq : Frame qs old s)
    (m : within [.flu, .lsu, .axu, .tru, .slu, .cmu, .igu, .scu, .flags, .ptu, .lde] qs = true) : Frame qs old (State.epochIn s lossFirst sweepFirst ageFirst lostFirst hdr mark loss) := hq.comp (State.epochIn_fr s lossFirst sweepFirst ageFirst lostFirst hdr mark loss) m

theorem State.epochWork_fr (s : State) (hdr : Option HeaderShaft) (mark loss : Bool) :
    Frame [.free, .flu, .lsu, .axu, .tru, .slu, .cmu, .igu, .scu, .flags, .ptu, .lde] s (State.epochWork s hdr mark loss) := by
  exact State.epochIn_of _ _ _ _ _ _ _ _ ((s.draw_fr _).mono (m := rfl)) rfl

theorem State.epochWork_of {qs : List Part} {old : State} (s : State) (hdr : Option HeaderShaft) (mark loss : Bool) (hq : Frame qs old s)
    (m : within [.free, .flu, .lsu, .axu, .tru, .slu, .cmu, .igu, .scu, .flags, .ptu, .lde] qs = true) : Frame qs old (State.epochWork s hdr mark loss) := hq.comp (State.epochWork_fr s hdr mark loss) m

theorem State.watchEpoch_fr (s : State) :
    Frame [.flu, .flags] s (State.watchEpoch s) := by
  unfold State.watchEpoch
  repeat' first
    | with_reducible exact Frame.refl _ _
    | with_reducible apply Frame.ite
    | ((with_reducible apply State.noticeEnd_of); on_goal 2 => rfl)
    | ((with_reducible apply State.onFlu_of); on_goal 2 => rfl)

theorem State.watchEpoch_of {qs : List Part} {old : State} (s : State) (hq : Frame qs old s)
    (m : within [.flu, .flags] qs = true) : Frame qs old (State.watchEpoch s) := hq.comp (State.watchEpoch_fr s) m

theorem State.takeEntry_fr (s : State) (e : PendingEntry) :
    Frame [.free, .flu, .lsu, .axu, .tru, .slu, .cmu, .igu, .scu, .flags, .ptu, .lde] s (State.takeEntry s e) := by
  unfold State.takeEntry
  repeat' first
    | with_reducible exact Frame.refl _ _
    | with_reducible apply Frame.ite
    | ((with_reducible apply State.epochWork_of); on_goal 2 => rfl)
    | ((with_reducible apply State.notifyIf_of); on_goal 2 => rfl)
    | ((with_reducible apply State.onFlu_of); on_goal 2 => rfl)
    | ((with_reducible apply State.watchEpoch_of); on_goal 2 => rfl)

theorem State.takeEntry_of {qs : List Part} {old : State} (s : State) (e : PendingEntry) (hq : Frame qs old s)
    (m : within [.free, .flu, .lsu, .axu, .tru, .slu, .cmu, .igu, .scu, .flags, .ptu, .lde] qs = true) : Frame qs old (State.takeEntry s e) := hq.comp (State.takeEntry_fr s e) m

theorem State.takeOldest_fr (s : State) :
    Frame [.free, .flu, .lsu, .axu, .tru, .slu, .cmu, .igu, .scu, .flags, .ptu, .lde] s (State.takeOldest s) := by
  unfold State.takeOldest
  repeat' first
    | with_reducible exact Frame.refl _ _
    | with_reducible apply Frame.ite
    | ((with_reducible apply State.onFlu_of); on_goal 2 => rfl)
    | ((with_reducible apply State.takeEntry_of); on_goal 2 => rfl)
    | split

theorem State.takeOldest_of {qs : List Part} {old : State} (s : State) (hq : Frame qs old s)
    (m : within [.free, .flu, .lsu, .axu, .tru, .slu, .cmu, .igu, .scu, .flags, .ptu, .lde] qs = true) : Frame qs old (State.takeOldest s) := hq.comp (State.takeOldest_fr s) m

theorem State.takeDue_fr (s : State) (fuel : Nat) :
    Frame [.free, .flu, .lsu, .axu, .tru, .slu, .cmu, .igu, .scu, .flags, .ptu, .lde] s (State.takeDue s fuel) := by
  induction fuel generalizing s with
  | zero => exact Frame.refl _ _
  | succ n ih =>
    unfold State.takeDue
    split
    · exact (State.takeOldest_fr s).comp (ih _) rfl
    · exact Frame.refl _ _

theorem State.takeDue_of {qs : List Part} {old : State} (s : State) (fuel : Nat) (hq : Frame qs old s)
    (m : within [.free, .flu, .lsu, .axu, .tru, .slu, .cmu, .igu, .scu, .flags, .ptu, .lde] qs = true) : Frame qs old (State.takeDue s fuel) := hq.comp (State.takeDue_fr s fuel) m

theorem State.placeEntry_fr (s : State) (e : Bool → PendingEntry) :
    Frame [.free, .flu, .lsu, .axu, .tru, .slu, .cmu, .igu, .scu, .flags, .ptu, .lde] s (State.placeEntry s e) := by
  unfold State.placeEntry
  repeat' first
    | with_reducible exact Frame.refl _ _
    | with_reducible apply Frame.ite
    | ((with_reducible apply State.onFlu_of); on_goal 2 => rfl)
    | ((with_reducible apply State.takeDue_of); on_goal 2 => rfl)
    | ((with_reducible apply State.takeOldest_of); on_goal 2 => rfl)

theorem State.placeEntry_of {qs : List Part} {old : State} (s : State) (e : Bool → PendingEntry) (hq : Frame qs old s)
    (m : within [.free, .flu, .lsu, .axu, .tru, .slu, .cmu, .igu, .scu, .flags, .ptu, .lde] qs = true) : Frame qs old (State.placeEntry s e) := hq.comp (State.placeEntry_fr s e) m

theorem State.synthesize_fr (s : State) :
    Frame [.free, .flu, .lsu, .axu, .tru, .slu, .cmu, .igu, .scu, .flags, .ptu, .lde] s (State.synthesize s) := by
  unfold State.synthesize
  repeat' first
    | with_reducible exact Frame.refl _ _
    | with_reducible apply Frame.ite
    | ((with_reducible apply State.epochWork_of); on_goal 2 => rfl)
    | ((with_reducible apply State.onFlu_of); on_goal 2 => rfl)
    | ((with_reducible apply State.watchEpoch_of); on_goal 2 => rfl)

theorem State.synthesize_of {qs : List Part} {old : State} (s : State) (hq : Frame qs old s)
    (m : within [.free, .flu, .lsu, .axu, .tru, .slu, .cmu, .igu, .scu, .flags, .ptu, .lde] qs = true) : Frame qs old (State.synthesize s) := hq.comp (State.synthesize_fr s) m

theorem State.takeTimer_fr (s : State) :
    Frame [.free, .flu, .lsu, .axu, .tru, .slu, .cmu, .igu, .scu, .flags, .ptu, .lde] s (State.takeTimer s) := by
  unfold State.takeTimer
  repeat' first
    | with_reducible exact Frame.refl _ _
    | with_reducible apply Frame.ite
    | ((with_reducible apply State.onFlu_of); on_goal 2 => rfl)
    | ((with_reducible apply State.synthesize_of); on_goal 2 => rfl)

theorem State.takeTimer_of {qs : List Part} {old : State} (s : State) (hq : Frame qs old s)
    (m : within [.free, .flu, .lsu, .axu, .tru, .slu, .cmu, .igu, .scu, .flags, .ptu, .lde] qs = true) : Frame qs old (State.takeTimer s) := hq.comp (State.takeTimer_fr s) m

theorem State.dueEpoch_fr (s : State) :
    Frame [.free, .flu, .lsu, .axu, .tru, .slu, .cmu, .igu, .scu, .flags, .ptu, .lde] s (State.dueEpoch s) := by
  unfold State.dueEpoch
  repeat' first
    | with_reducible exact Frame.refl _ _
    | with_reducible apply Frame.ite
    | ((with_reducible apply State.takeDue_of); on_goal 2 => rfl)
    | ((with_reducible apply State.takeTimer_of); on_goal 2 => rfl)

theorem State.dueEpoch_of {qs : List Part} {old : State} (s : State) (hq : Frame qs old s)
    (m : within [.free, .flu, .lsu, .axu, .tru, .slu, .cmu, .igu, .scu, .flags, .ptu, .lde] qs = true) : Frame qs old (State.dueEpoch s) := hq.comp (State.dueEpoch_fr s) m

theorem State.endOut_fr (s : State) :
    Frame [.flu, .flags] s (State.endOut s) := by
  unfold State.endOut
  repeat' first
    | with_reducible exact Frame.refl _ _
    | with_reducible apply Frame.ite
    | ((with_reducible apply State.endClaims_of); on_goal 2 => rfl)
    | ((with_reducible apply State.onFlu_of); on_goal 2 => rfl)

theorem State.endOut_of {qs : List Part} {old : State} (s : State) (hq : Frame qs old s)
    (m : within [.flu, .flags] qs = true) : Frame qs old (State.endOut s) := hq.comp (State.endOut_fr s) m

theorem State.resetRunUp_fr (s : State) :
    Frame [.flu] s (State.resetRunUp s) := by
  unfold State.resetRunUp
  repeat' first
    | with_reducible exact Frame.refl _ _
    | with_reducible apply Frame.ite
    | ((with_reducible apply State.onFlu_of); on_goal 2 => rfl)

theorem State.resetRunUp_of {qs : List Part} {old : State} (s : State) (hq : Frame qs old s)
    (m : within [.flu] qs = true) : Frame qs old (State.resetRunUp s) := hq.comp (State.resetRunUp_fr s) m

theorem State.endReturnStage_fr (s : State) (p : Passage) :
    Frame [.slu, .lde] s (State.endReturnStage s p) := by
  unfold State.endReturnStage
  repeat' first
    | with_reducible exact Frame.refl _ _
    | with_reducible apply Frame.ite
    | ((with_reducible apply State.endSlotArea_of); on_goal 2 => rfl)

theorem State.endReturnStage_of {qs : List Part} {old : State} (s : State) (p : Passage) (hq : Frame qs old s)
    (m : within [.slu, .lde] qs = true) : Frame qs old (State.endReturnStage s p) := hq.comp (State.endReturnStage_fr s p) m

theorem State.endRet_fr (s : State) :
    Frame [.flu, .slu, .lde] s (State.endRet s) := by
  unfold State.endRet
  repeat' first
    | with_reducible exact Frame.refl _ _
    | with_reducible apply Frame.ite
    | ((with_reducible apply State.endReturnStage_of); on_goal 2 => rfl)
    | ((with_reducible apply State.onFlu_of); on_goal 2 => rfl)
    | ((with_reducible apply State.resetRunUp_of); on_goal 2 => rfl)

theorem State.endRet_of {qs : List Part} {old : State} (s : State) (hq : Frame qs old s)
    (m : within [.flu, .slu, .lde] qs = true) : Frame qs old (State.endRet s) := hq.comp (State.endRet_fr s) m

theorem State.endCopy_fr (s : State) :
    Frame [.flu, .slu, .lde] s (State.endCopy s) := by
  unfold State.endCopy
  repeat' first
    | with_reducible exact Frame.refl _ _
    | with_reducible apply Frame.ite
    | ((with_reducible apply State.endReturnStage_of); on_goal 2 => rfl)
    | ((with_reducible apply State.onFlu_of); on_goal 2 => rfl)

theorem State.endCopy_of {qs : List Part} {old : State} (s : State) (hq : Frame qs old s)
    (m : within [.flu, .slu, .lde] qs = true) : Frame qs old (State.endCopy s) := hq.comp (State.endCopy_fr s) m

theorem State.endReception_fr (s : State) (p : Port) :
    Frame [.flu, .slu, .flags, .lde] s (State.endReception s p) := by
  unfold State.endReception
  repeat' first
    | with_reducible exact Frame.refl _ _
    | with_reducible apply Frame.ite
    | ((with_reducible apply State.endOut_of); on_goal 2 => rfl)
    | ((with_reducible apply State.endRet_of); on_goal 2 => rfl)
    | split

theorem State.endReception_of {qs : List Part} {old : State} (s : State) (p : Port) (hq : Frame qs old s)
    (m : within [.flu, .slu, .flags, .lde] qs = true) : Frame qs old (State.endReception s p) := hq.comp (State.endReception_fr s p) m

theorem State.goDark_fr (s : State) (p : Port) :
    Frame [.flu, .slu, .flags, .lde] s (State.goDark s p) := by
  unfold State.goDark
  repeat' first
    | with_reducible exact Frame.refl _ _
    | with_reducible apply Frame.ite
    | ((with_reducible apply State.endReception_of); on_goal 2 => rfl)
    | ((with_reducible apply State.noticeEnd_of); on_goal 2 => rfl)
    | ((with_reducible apply State.onFlu_of); on_goal 2 => rfl)

theorem State.goDark_of {qs : List Part} {old : State} (s : State) (p : Port) (hq : Frame qs old s)
    (m : within [.flu, .slu, .flags, .lde] qs = true) : Frame qs old (State.goDark s p) := hq.comp (State.goDark_fr s p) m

theorem State.lightOn_fr (s : State) (p : Port) :
    Frame [.flu, .flags] s (State.lightOn s p) := by
  unfold State.lightOn
  repeat' first
    | with_reducible exact Frame.refl _ _
    | with_reducible apply Frame.ite
    | ((with_reducible apply State.noticeEnd_of); on_goal 2 => rfl)
    | ((with_reducible apply State.onFlu_of); on_goal 2 => rfl)

theorem State.lightOn_of {qs : List Part} {old : State} (s : State) (p : Port) (hq : Frame qs old s)
    (m : within [.flu, .flags] qs = true) : Frame qs old (State.lightOn s p) := hq.comp (State.lightOn_fr s p) m

theorem State.lockDone_fr (s : State) (p : Port) :
    Frame [.flu] s (State.lockDone s p) := by
  unfold State.lockDone
  repeat' first
    | with_reducible exact Frame.refl _ _
    | with_reducible apply Frame.ite
    | ((with_reducible apply State.onFlu_of); on_goal 2 => rfl)

theorem State.lockDone_of {qs : List Part} {old : State} (s : State) (p : Port) (hq : Frame qs old s)
    (m : within [.flu] qs = true) : Frame qs old (State.lockDone s p) := hq.comp (State.lockDone_fr s p) m

theorem State.clockBad_fr (s : State) (p : Port) :
    Frame [.flu, .slu, .flags, .lde] s (State.clockBad s p) := by
  unfold State.clockBad
  repeat' first
    | with_reducible exact Frame.refl _ _
    | with_reducible apply Frame.ite
    | ((with_reducible apply State.goDark_of); on_goal 2 => rfl)
    | ((with_reducible apply State.onFlu_of); on_goal 2 => rfl)
    | split

theorem State.clockBad_of {qs : List Part} {old : State} (s : State) (p : Port) (hq : Frame qs old s)
    (m : within [.flu, .slu, .flags, .lde] qs = true) : Frame qs old (State.clockBad s p) := hq.comp (State.clockBad_fr s p) m

theorem State.lightOff_fr (s : State) (p : Port) :
    Frame [.flu, .slu, .flags, .lde] s (State.lightOff s p) := by
  unfold State.lightOff
  repeat' first
    | with_reducible exact Frame.refl _ _
    | with_reducible apply Frame.ite
    | ((with_reducible apply State.goDark_of); on_goal 2 => rfl)
    | split

theorem State.lightOff_of {qs : List Part} {old : State} (s : State) (p : Port) (hq : Frame qs old s)
    (m : within [.flu, .slu, .flags, .lde] qs = true) : Frame qs old (State.lightOff s p) := hq.comp (State.lightOff_fr s p) m

theorem State.follow_fr (s : State) (p : Nat) :
    Frame [.flu] s (State.follow s p) := by
  unfold State.follow
  repeat' first
    | with_reducible exact Frame.refl _ _
    | with_reducible apply Frame.ite
    | ((with_reducible apply State.onFlu_of); on_goal 2 => rfl)

theorem State.follow_of {qs : List Part} {old : State} (s : State) (p : Nat) (hq : Frame qs old s)
    (m : within [.flu] qs = true) : Frame qs old (State.follow s p) := hq.comp (State.follow_fr s p) m

theorem State.ringHeader_fr (s : State) (p : Nat) :
    Frame [.flu, .tru, .cmu, .igu, .scu, .flags] s (State.ringHeader s p) := by
  unfold State.ringHeader
  repeat' first
    | with_reducible exact Frame.refl _ _
    | with_reducible apply Frame.ite
    | ((with_reducible apply State.follow_of); on_goal 2 => rfl)
    | ((with_reducible apply State.leaveRing_of); on_goal 2 => rfl)
    | ((with_reducible apply State.notify_of); on_goal 2 => rfl)
    | ((with_reducible apply State.onFlu_of); on_goal 2 => rfl)
    | split

theorem State.ringHeader_of {qs : List Part} {old : State} (s : State) (p : Nat) (hq : Frame qs old s)
    (m : within [.flu, .tru, .cmu, .igu, .scu, .flags] qs = true) : Frame qs old (State.ringHeader s p) := hq.comp (State.ringHeader_fr s p) m

theorem State.beginMeasure_fr (s : State) (cycle : Word) :
    Frame [.flu] s (State.beginMeasure s cycle) := by
  unfold State.beginMeasure
  repeat' first
    | with_reducible exact Frame.refl _ _
    | with_reducible apply Frame.ite
    | ((with_reducible apply State.onFlu_of); on_goal 2 => rfl)

theorem State.beginMeasure_of {qs : List Part} {old : State} (s : State) (cycle : Word) (hq : Frame qs old s)
    (m : within [.flu] qs = true) : Frame qs old (State.beginMeasure s cycle) := hq.comp (State.beginMeasure_fr s cycle) m

theorem State.tryJoin_fr (s : State) (was : RingState) (p : Nat) :
    Frame [.flu, .tru, .cls, .cmu, .scu, .flags, .lde] s (State.tryJoin s was p) := by
  unfold State.tryJoin
  repeat' first
    | with_reducible exact Frame.refl _ _
    | with_reducible apply Frame.ite
    | ((with_reducible apply State.enterJoined_of); on_goal 2 => rfl)

theorem State.tryJoin_of {qs : List Part} {old : State} (s : State) (was : RingState) (p : Nat) (hq : Frame qs old s)
    (m : within [.flu, .tru, .cls, .cmu, .scu, .flags, .lde] qs = true) : Frame qs old (State.tryJoin s was p) := hq.comp (State.tryJoin_fr s was p) m

theorem State.goodHeader_fr (s : State) (h : HeaderFields) :
    Frame [.free, .flu, .lsu, .axu, .tru, .slu, .cls, .cmu, .igu, .scu, .flags, .ptu, .lde] s (State.goodHeader s h) := by
  unfold State.goodHeader
  repeat' first
    | with_reducible exact Frame.refl _ _
    | with_reducible apply Frame.ite
    | ((with_reducible apply State.beginMeasure_of); on_goal 2 => rfl)
    | ((with_reducible apply State.onFlu_of); on_goal 2 => rfl)
    | ((with_reducible apply State.placeEntry_of); on_goal 2 => rfl)
    | ((with_reducible apply State.ringHeader_of); on_goal 2 => rfl)
    | ((with_reducible apply State.startClaims_of); on_goal 2 => rfl)
    | ((with_reducible apply State.tryJoin_of); on_goal 2 => rfl)

theorem State.goodHeader_of {qs : List Part} {old : State} (s : State) (h : HeaderFields) (hq : Frame qs old s)
    (m : within [.free, .flu, .lsu, .axu, .tru, .slu, .cls, .cmu, .igu, .scu, .flags, .ptu, .lde] qs = true) : Frame qs old (State.goodHeader s h) := hq.comp (State.goodHeader_fr s h) m

theorem State.sendHeader_fr (s : State) (b : Block) :
    Frame [.flu] s (State.sendHeader s b) := by
  unfold State.sendHeader
  repeat' first
    | with_reducible exact Frame.refl _ _
    | with_reducible apply Frame.ite
    | ((with_reducible apply State.onFlu_of); on_goal 2 => rfl)

theorem State.sendHeader_of {qs : List Part} {old : State} (s : State) (b : Block) (hq : Frame qs old s)
    (m : within [.flu] qs = true) : Frame qs old (State.sendHeader s b) := hq.comp (State.sendHeader_fr s b) m

theorem State.outHeader_fr (s : State) (b : Block) :
    Frame [.free, .flu, .lsu, .axu, .tru, .slu, .cls, .cmu, .igu, .scu, .flags, .ptu, .lde] s (State.outHeader s b) := by
  unfold State.outHeader
  repeat' first
    | with_reducible exact Frame.refl _ _
    | with_reducible apply Frame.ite
    | ((with_reducible apply State.goodHeader_of); on_goal 2 => rfl)
    | ((with_reducible apply State.onFlu_of); on_goal 2 => rfl)
    | ((with_reducible apply State.sendHeader_of); on_goal 2 => rfl)
    | split

theorem State.outHeader_of {qs : List Part} {old : State} (s : State) (b : Block) (hq : Frame qs old s)
    (m : within [.free, .flu, .lsu, .axu, .tru, .slu, .cls, .cmu, .igu, .scu, .flags, .ptu, .lde] qs = true) : Frame qs old (State.outHeader s b) := hq.comp (State.outHeader_fr s b) m

theorem State.outTrip_fr (s : State) (b : Block) :
    Frame [.flu, .tru, .cmu, .flags] s (State.outTrip s b) := by
  unfold State.outTrip
  repeat' first
    | with_reducible exact Frame.refl _ _
    | with_reducible apply Frame.ite
    | ((with_reducible apply State.memberTrip_of); on_goal 2 => rfl)
    | ((with_reducible apply State.onFlu_of); on_goal 2 => rfl)
    | split

theorem State.outTrip_of {qs : List Part} {old : State} (s : State) (b : Block) (hq : Frame qs old s)
    (m : within [.flu, .tru, .cmu, .flags] qs = true) : Frame qs old (State.outTrip s b) := hq.comp (State.outTrip_fr s b) m

theorem State.outSlots_fr (s : State) (tags : Block) (slots : List Block) :
    Frame [.flu, .tru, .slu, .cmu, .flags] s (State.outSlots s tags slots) := by
  unfold State.outSlots
  repeat' first
    | with_reducible exact Frame.refl _ _
    | with_reducible apply Frame.ite
    | ((with_reducible apply State.decideSlots_of); on_goal 2 => rfl)
    | ((with_reducible apply State.onFlu_of); on_goal 2 => rfl)
    | split

theorem State.outSlots_of {qs : List Part} {old : State} (s : State) (tags : Block) (slots : List Block) (hq : Frame qs old s)
    (m : within [.flu, .tru, .slu, .cmu, .flags] qs = true) : Frame qs old (State.outSlots s tags slots) := hq.comp (State.outSlots_fr s tags slots) m

theorem State.outCell_fr (s : State) (b : Block) :
    Frame [.flu, .cls, .igu, .scu, .ksc, .flags, .lde] s (State.outCell s b) := by
  unfold State.outCell
  repeat' first
    | with_reducible exact Frame.refl _ _
    | with_reducible apply Frame.ite
    | ((with_reducible apply State.decideCell_of); on_goal 2 => rfl)
    | ((with_reducible apply State.onFlu_of); on_goal 2 => rfl)
    | split

theorem State.outCell_of {qs : List Part} {old : State} (s : State) (b : Block) (hq : Frame qs old s)
    (m : within [.flu, .cls, .igu, .scu, .ksc, .flags, .lde] qs = true) : Frame qs old (State.outCell s b) := hq.comp (State.outCell_fr s b) m

theorem State.outEnd_fr (s : State) :
    Frame [.flu, .flags] s (State.outEnd s) := by
  unfold State.outEnd
  repeat' first
    | with_reducible exact Frame.refl _ _
    | with_reducible apply Frame.ite
    | ((with_reducible apply State.endOut_of); on_goal 2 => rfl)

theorem State.outEnd_of {qs : List Part} {old : State} (s : State) (hq : Frame qs old s)
    (m : within [.flu, .flags] qs = true) : Frame qs old (State.outEnd s) := hq.comp (State.outEnd_fr s) m

theorem State.onReturn_fr (s : State) (copy : Bool) (f : Passage → Passage) :
    Frame [.flu] s (State.onReturn s copy f) := by
  unfold State.onReturn
  repeat' first
    | with_reducible exact Frame.refl _ _
    | with_reducible apply Frame.ite
    | ((with_reducible apply State.onFlu_of); on_goal 2 => rfl)

theorem State.onReturn_of {qs : List Part} {old : State} (s : State) (copy : Bool) (f : Passage → Passage) (hq : Frame qs old s)
    (m : within [.flu] qs = true) : Frame qs old (State.onReturn s copy f) := hq.comp (State.onReturn_fr s copy f) m

theorem State.seeReturn_fr (s : State) :
    Frame [.flu, .flags] s (State.seeReturn s) := by
  unfold State.seeReturn
  repeat' first
    | with_reducible exact Frame.refl _ _
    | with_reducible apply Frame.ite
    | ((with_reducible apply State.noticeEnd_of); on_goal 2 => rfl)
    | ((with_reducible apply State.onFlu_of); on_goal 2 => rfl)

theorem State.seeReturn_of {qs : List Part} {old : State} (s : State) (hq : Frame qs old s)
    (m : within [.flu, .flags] qs = true) : Frame qs old (State.seeReturn s) := hq.comp (State.seeReturn_fr s) m

theorem State.measure_fr (s : State) (cycle : Word) :
    Frame [.flu] s (State.measure s cycle) := by
  unfold State.measure
  repeat' first
    | with_reducible exact Frame.refl _ _
    | with_reducible apply Frame.ite
    | ((with_reducible apply State.onFlu_of); on_goal 2 => rfl)
    | split

theorem State.measure_of {qs : List Part} {old : State} (s : State) (cycle : Word) (hq : Frame qs old s)
    (m : within [.flu] qs = true) : Frame qs old (State.measure s cycle) := hq.comp (State.measure_fr s cycle) m

theorem State.matchReturn_fr (s : State) (cycle : Word) :
    Frame [.flu] s (State.matchReturn s cycle) := by
  unfold State.matchReturn
  repeat' first
    | with_reducible exact Frame.refl _ _
    | with_reducible apply Frame.ite
    | ((with_reducible apply State.onFlu_of); on_goal 2 => rfl)

theorem State.matchReturn_of {qs : List Part} {old : State} (s : State) (cycle : Word) (hq : Frame qs old s)
    (m : within [.flu] qs = true) : Frame qs old (State.matchReturn s cycle) := hq.comp (State.matchReturn_fr s cycle) m

theorem State.goodReturn_fr (s : State) (h : HeaderFields) :
    Frame [.flu, .flags] s (State.goodReturn s h) := by
  unfold State.goodReturn
  repeat' first
    | with_reducible exact Frame.refl _ _
    | with_reducible apply Frame.ite
    | ((with_reducible apply State.matchReturn_of); on_goal 2 => rfl)
    | ((with_reducible apply State.measure_of); on_goal 2 => rfl)
    | ((with_reducible apply State.onReturn_of); on_goal 2 => rfl)
    | ((with_reducible apply State.seeReturn_of); on_goal 2 => rfl)

theorem State.goodReturn_of {qs : List Part} {old : State} (s : State) (h : HeaderFields) (hq : Frame qs old s)
    (m : within [.flu, .flags] qs = true) : Frame qs old (State.goodReturn s h) := hq.comp (State.goodReturn_fr s h) m

theorem State.sendUp_fr (s : State) (b : Block) :
    Frame [.flu] s (State.sendUp s b) := by
  unfold State.sendUp
  repeat' first
    | with_reducible exact Frame.refl _ _
    | with_reducible apply Frame.ite
    | ((with_reducible apply State.onFlu_of); on_goal 2 => rfl)

theorem State.sendUp_of {qs : List Part} {old : State} (s : State) (b : Block) (hq : Frame qs old s)
    (m : within [.flu] qs = true) : Frame qs old (State.sendUp s b) := hq.comp (State.sendUp_fr s b) m

theorem State.retHeader_fr (s : State) (src : ReturnSource) :
    Frame [.flu, .flags] s (State.retHeader s src) := by
  unfold State.retHeader
  repeat' first
    | with_reducible exact Frame.refl _ _
    | with_reducible apply Frame.ite
    | ((with_reducible apply State.goodReturn_of); on_goal 2 => rfl)
    | ((with_reducible apply State.onReturn_of); on_goal 2 => rfl)
    | ((with_reducible apply State.resetRunUp_of); on_goal 2 => rfl)
    | ((with_reducible apply State.sendUp_of); on_goal 2 => rfl)
    | split

theorem State.retHeader_of {qs : List Part} {old : State} (s : State) (src : ReturnSource) (hq : Frame qs old s)
    (m : within [.flu, .flags] qs = true) : Frame qs old (State.retHeader s src) := hq.comp (State.retHeader_fr s src) m

theorem State.runUpTrip_fr (s : State) (t : TripFields) :
    Frame [.flu, .flags] s (State.runUpTrip s t) := by
  unfold State.runUpTrip
  repeat' first
    | with_reducible exact Frame.refl _ _
    | with_reducible apply Frame.ite
    | ((with_reducible apply State.notify_of); on_goal 2 => rfl)
    | ((with_reducible apply State.onFlu_of); on_goal 2 => rfl)

theorem State.runUpTrip_of {qs : List Part} {old : State} (s : State) (t : TripFields) (hq : Frame qs old s)
    (m : within [.flu, .flags] qs = true) : Frame qs old (State.runUpTrip s t) := hq.comp (State.runUpTrip_fr s t) m

theorem State.absenceTrip_fr (s : State) (t : TripFields) :
    Frame [.flu, .tru, .cmu, .flags] s (State.absenceTrip s t) := by
  unfold State.absenceTrip
  repeat' first
    | with_reducible exact Frame.refl _ _
    | with_reducible apply Frame.ite
    | ((with_reducible apply State.handStamped_of); on_goal 2 => rfl)
    | ((with_reducible apply State.onFlu_of); on_goal 2 => rfl)

theorem State.absenceTrip_of {qs : List Part} {old : State} (s : State) (t : TripFields) (hq : Frame qs old s)
    (m : within [.flu, .tru, .cmu, .flags] qs = true) : Frame qs old (State.absenceTrip s t) := hq.comp (State.absenceTrip_fr s t) m

theorem State.masterTrip_fr (s : State) (t : TripFields) :
    Frame [.flu, .tru, .cmu, .flags] s (State.masterTrip s t) := by
  unfold State.masterTrip
  repeat' first
    | with_reducible exact Frame.refl _ _
    | with_reducible apply Frame.ite
    | ((with_reducible apply State.absenceTrip_of); on_goal 2 => rfl)
    | ((with_reducible apply State.masterReturnTrip_of); on_goal 2 => rfl)
    | ((with_reducible apply State.runUpTrip_of); on_goal 2 => rfl)

theorem State.masterTrip_of {qs : List Part} {old : State} (s : State) (t : TripFields) (hq : Frame qs old s)
    (m : within [.flu, .tru, .cmu, .flags] qs = true) : Frame qs old (State.masterTrip s t) := hq.comp (State.masterTrip_fr s t) m

theorem State.memberRetTrip_fr (s : State) (b : Block) :
    Frame [.flu, .tru] s (State.memberRetTrip s b) := by
  unfold State.memberRetTrip
  repeat' first
    | with_reducible exact Frame.refl _ _
    | with_reducible apply Frame.ite
    | ((with_reducible apply State.memberReturnTrip_of); on_goal 2 => rfl)
    | ((with_reducible apply State.onFlu_of); on_goal 2 => rfl)
    | split

theorem State.memberRetTrip_of {qs : List Part} {old : State} (s : State) (b : Block) (hq : Frame qs old s)
    (m : within [.flu, .tru] qs = true) : Frame qs old (State.memberRetTrip s b) := hq.comp (State.memberRetTrip_fr s b) m

theorem State.arrivedTrip_fr (s : State) (b : Block) :
    Frame [.flu, .tru, .cmu, .flags] s (State.arrivedTrip s b) := by
  unfold State.arrivedTrip
  repeat' first
    | with_reducible exact Frame.refl _ _
    | with_reducible apply Frame.ite
    | ((with_reducible apply State.masterTrip_of); on_goal 2 => rfl)
    | ((with_reducible apply State.memberRetTrip_of); on_goal 2 => rfl)
    | ((with_reducible apply State.onFlu_of); on_goal 2 => rfl)
    | ((with_reducible apply State.resetRunUp_of); on_goal 2 => rfl)
    | split

theorem State.arrivedTrip_of {qs : List Part} {old : State} (s : State) (b : Block) (hq : Frame qs old s)
    (m : within [.flu, .tru, .cmu, .flags] qs = true) : Frame qs old (State.arrivedTrip s b) := hq.comp (State.arrivedTrip_fr s b) m

theorem State.retTrip_fr (s : State) (src : ReturnSource) :
    Frame [.flu, .tru, .cmu, .flags] s (State.retTrip s src) := by
  unfold State.retTrip
  repeat' first
    | with_reducible exact Frame.refl _ _
    | with_reducible apply Frame.ite
    | ((with_reducible apply State.arrivedTrip_of); on_goal 2 => rfl)
    | ((with_reducible apply State.memberRetTrip_of); on_goal 2 => rfl)
    | ((with_reducible apply State.onReturn_of); on_goal 2 => rfl)
    | split

theorem State.retTrip_of {qs : List Part} {old : State} (s : State) (src : ReturnSource) (hq : Frame qs old s)
    (m : within [.flu, .tru, .cmu, .flags] qs = true) : Frame qs old (State.retTrip s src) := hq.comp (State.retTrip_fr s src) m

theorem State.slotArrives_fr (s : State) (p : Passage) (n : Fin 128) (tags slot : Block) :
    Frame [.axu, .tru, .slu, .cmu, .flags] s (State.slotArrives s p n tags slot) := by
  unfold State.slotArrives
  repeat' first
    | with_reducible exact Frame.refl _ _
    | with_reducible apply Frame.ite
    | ((with_reducible apply State.receiveSlot_of); on_goal 2 => rfl)
    | split

theorem State.slotArrives_of {qs : List Part} {old : State} (s : State) (p : Passage) (n : Fin 128) (tags slot : Block) (hq : Frame qs old s)
    (m : within [.axu, .tru, .slu, .cmu, .flags] qs = true) : Frame qs old (State.slotArrives s p n tags slot) := hq.comp (State.slotArrives_fr s p n tags slot) m

theorem State.retSlot_fr (s : State) (n : Fin 128) (src : SlotSource) :
    Frame [.flu, .axu, .tru, .slu, .cmu, .flags] s (State.retSlot s n src) := by
  unfold State.retSlot
  repeat' first
    | with_reducible exact Frame.refl _ _
    | with_reducible apply Frame.ite
    | ((with_reducible apply State.onReturn_of); on_goal 2 => rfl)
    | ((with_reducible apply State.slotArrives_of); on_goal 2 => rfl)
    | split

theorem State.retSlot_of {qs : List Part} {old : State} (s : State) (n : Fin 128) (src : SlotSource) (hq : Frame qs old s)
    (m : within [.flu, .axu, .tru, .slu, .cmu, .flags] qs = true) : Frame qs old (State.retSlot s n src) := hq.comp (State.retSlot_fr s n src) m

theorem State.sendArea_fr (s : State) (src : AreaSource) :
    Frame [.flu] s (State.sendArea s src) := by
  unfold State.sendArea
  repeat' first
    | with_reducible exact Frame.refl _ _
    | with_reducible apply Frame.ite
    | ((with_reducible apply State.onFlu_of); on_goal 2 => rfl)
    | split

theorem State.sendArea_of {qs : List Part} {old : State} (s : State) (src : AreaSource) (hq : Frame qs old s)
    (m : within [.flu] qs = true) : Frame qs old (State.sendArea s src) := hq.comp (State.sendArea_fr s src) m

theorem State.retSlotsEnd_fr (s : State) (src : AreaSource) :
    Frame [.flu, .slu, .lde] s (State.retSlotsEnd s src) := by
  unfold State.retSlotsEnd
  repeat' first
    | with_reducible exact Frame.refl _ _
    | with_reducible apply Frame.ite
    | ((with_reducible apply State.endSlotArea_of); on_goal 2 => rfl)
    | ((with_reducible apply State.onReturn_of); on_goal 2 => rfl)
    | ((with_reducible apply State.sendArea_of); on_goal 2 => rfl)

theorem State.retSlotsEnd_of {qs : List Part} {old : State} (s : State) (src : AreaSource) (hq : Frame qs old s)
    (m : within [.flu, .slu, .lde] qs = true) : Frame qs old (State.retSlotsEnd s src) := hq.comp (State.retSlotsEnd_fr s src) m

theorem State.cellArrives_fr (s : State) (p : Passage) (b : Block) :
    Frame [.igu, .scu, .ksc, .flags, .lde] s (State.cellArrives s p b) := by
  unfold State.cellArrives
  repeat' first
    | with_reducible exact Frame.refl _ _
    | with_reducible apply Frame.ite
    | ((with_reducible apply State.deliverCell_of); on_goal 2 => rfl)

theorem State.cellArrives_of {qs : List Part} {old : State} (s : State) (p : Passage) (b : Block) (hq : Frame qs old s)
    (m : within [.igu, .scu, .ksc, .flags, .lde] qs = true) : Frame qs old (State.cellArrives s p b) := hq.comp (State.cellArrives_fr s p b) m

theorem State.sendCell_fr (s : State) (copy : Bool) (b : Block) :
    Frame [.flu] s (State.sendCell s copy b) := by
  unfold State.sendCell
  repeat' first
    | with_reducible exact Frame.refl _ _
    | with_reducible apply Frame.ite
    | ((with_reducible apply State.onFlu_of); on_goal 2 => rfl)

theorem State.sendCell_of {qs : List Part} {old : State} (s : State) (copy : Bool) (b : Block) (hq : Frame qs old s)
    (m : within [.flu] qs = true) : Frame qs old (State.sendCell s copy b) := hq.comp (State.sendCell_fr s copy b) m

theorem State.passCell_fr (s : State) (copy : Bool) (b : Block) :
    Frame [.flu, .igu, .scu, .ksc, .flags, .lde] s (State.passCell s copy b) := by
  unfold State.passCell
  repeat' first
    | with_reducible exact Frame.refl _ _
    | with_reducible apply Frame.ite
    | ((with_reducible apply State.cellArrives_of); on_goal 2 => rfl)
    | ((with_reducible apply State.onReturn_of); on_goal 2 => rfl)
    | ((with_reducible apply State.sendCell_of); on_goal 2 => rfl)

theorem State.passCell_of {qs : List Part} {old : State} (s : State) (copy : Bool) (b : Block) (hq : Frame qs old s)
    (m : within [.flu, .igu, .scu, .ksc, .flags, .lde] qs = true) : Frame qs old (State.passCell s copy b) := hq.comp (State.passCell_fr s copy b) m

theorem State.retCell_fr (s : State) (src : ReturnSource) :
    Frame [.flu, .igu, .scu, .ksc, .flags, .lde] s (State.retCell s src) := by
  unfold State.retCell
  repeat' first
    | with_reducible exact Frame.refl _ _
    | with_reducible apply Frame.ite
    | ((with_reducible apply State.passCell_of); on_goal 2 => rfl)
    | split

theorem State.retCell_of {qs : List Part} {old : State} (s : State) (src : ReturnSource) (hq : Frame qs old s)
    (m : within [.flu, .igu, .scu, .ksc, .flags, .lde] qs = true) : Frame qs old (State.retCell s src) := hq.comp (State.retCell_fr s src) m

theorem State.drainCopy_fr (s : State) :
    Frame [.flu, .axu, .tru, .slu, .cmu, .igu, .scu, .ksc, .flags, .lde] s (State.drainCopy s) := by
  unfold State.drainCopy
  repeat' first
    | with_reducible exact Frame.refl _ _
    | with_reducible apply Frame.ite
    | ((with_reducible apply Frame.foldl); on_goal 2 => intro u x _)
    | ((with_reducible apply State.endCopy_of); on_goal 2 => rfl)
    | ((with_reducible apply State.retCell_of); on_goal 2 => rfl)
    | ((with_reducible apply State.retHeader_of); on_goal 2 => rfl)
    | ((with_reducible apply State.retSlot_of); on_goal 2 => rfl)
    | ((with_reducible apply State.retSlotsEnd_of); on_goal 2 => rfl)
    | ((with_reducible apply State.retTrip_of); on_goal 2 => rfl)

theorem State.drainCopy_of {qs : List Part} {old : State} (s : State) (hq : Frame qs old s)
    (m : within [.flu, .axu, .tru, .slu, .cmu, .igu, .scu, .ksc, .flags, .lde] qs = true) : Frame qs old (State.drainCopy s) := hq.comp (State.drainCopy_fr s) m

theorem State.disregardRet_fr (s : State) :
    Frame [.flu, .slu, .lde] s (State.disregardRet s) := by
  unfold State.disregardRet
  repeat' first
    | with_reducible exact Frame.refl _ _
    | ((with_reducible apply State.endReturnStage_of); on_goal 2 => rfl)
    | ((with_reducible apply State.onFlu_of); on_goal 2 => rfl)

theorem State.disregardRet_of {qs : List Part} {old : State} (s : State) (hq : Frame qs old s)
    (m : within [.flu, .slu, .lde] qs = true) : Frame qs old (State.disregardRet s) := hq.comp (State.disregardRet_fr s) m

theorem State.startOut_fr (s : State) :
    Frame [.flu, .axu, .tru, .slu, .cmu, .igu, .scu, .ksc, .flags, .lde] s (State.startOut s) := by
  unfold State.startOut
  repeat' first
    | with_reducible exact Frame.refl _ _
    | with_reducible apply Frame.ite
    | ((with_reducible apply State.disregardRet_of); on_goal 2 => rfl)
    | ((with_reducible apply State.drainCopy_of); on_goal 2 => rfl)
    | ((with_reducible apply State.endOut_of); on_goal 2 => rfl)
    | ((with_reducible apply State.onFlu_of); on_goal 2 => rfl)

theorem State.startOut_of {qs : List Part} {old : State} (s : State) (hq : Frame qs old s)
    (m : within [.flu, .axu, .tru, .slu, .cmu, .igu, .scu, .ksc, .flags, .lde] qs = true) : Frame qs old (State.startOut s) := hq.comp (State.startOut_fr s) m

theorem State.startRet_fr (s : State) :
    Frame [.flu, .slu, .lde] s (State.startRet s) := by
  unfold State.startRet
  repeat' first
    | with_reducible exact Frame.refl _ _
    | with_reducible apply Frame.ite
    | ((with_reducible apply State.endRet_of); on_goal 2 => rfl)
    | ((with_reducible apply State.onFlu_of); on_goal 2 => rfl)

theorem State.startRet_of {qs : List Part} {old : State} (s : State) (hq : Frame qs old s)
    (m : within [.flu, .slu, .lde] qs = true) : Frame qs old (State.startRet s) := hq.comp (State.startRet_fr s) m

theorem State.startFrame_fr (s : State) (p : Port) :
    Frame [.flu, .axu, .tru, .slu, .cmu, .igu, .scu, .ksc, .flags, .lde] s (State.startFrame s p) := by
  unfold State.startFrame
  repeat' first
    | with_reducible exact Frame.refl _ _
    | with_reducible apply Frame.ite
    | ((with_reducible apply State.startOut_of); on_goal 2 => rfl)
    | ((with_reducible apply State.startRet_of); on_goal 2 => rfl)
    | split

theorem State.startFrame_of {qs : List Part} {old : State} (s : State) (p : Port) (hq : Frame qs old s)
    (m : within [.flu, .axu, .tru, .slu, .cmu, .igu, .scu, .ksc, .flags, .lde] qs = true) : Frame qs old (State.startFrame s p) := hq.comp (State.startFrame_fr s p) m

theorem State.judgeReturn_fr (s : State) :
    Frame [.flu] s (State.judgeReturn s) := by
  unfold State.judgeReturn
  repeat' first
    | with_reducible exact Frame.refl _ _
    | with_reducible apply Frame.ite
    | ((with_reducible apply State.onFlu_of); on_goal 2 => rfl)
    | ((with_reducible apply State.resetRunUp_of); on_goal 2 => rfl)

theorem State.judgeReturn_of {qs : List Part} {old : State} (s : State) (hq : Frame qs old s)
    (m : within [.flu] qs = true) : Frame qs old (State.judgeReturn s) := hq.comp (State.judgeReturn_fr s) m

theorem State.handMasterLoss_fr (s : State) :
    Frame [.tru, .cmu, .flags] s (State.handMasterLoss s) := by
  unfold State.handMasterLoss
  repeat' first
    | with_reducible exact Frame.refl _ _
    | with_reducible apply Frame.ite
    | ((with_reducible apply State.handStamped_of); on_goal 2 => rfl)

theorem State.handMasterLoss_of {qs : List Part} {old : State} (s : State) (hq : Frame qs old s)
    (m : within [.tru, .cmu, .flags] qs = true) : Frame qs old (State.handMasterLoss s) := hq.comp (State.handMasterLoss_fr s) m

theorem State.countFrame_fr (s : State) :
    Frame [.flu] s (State.countFrame s) := by
  unfold State.countFrame
  repeat' first
    | with_reducible exact Frame.refl _ _
    | with_reducible apply Frame.ite
    | ((with_reducible apply State.onFlu_of); on_goal 2 => rfl)

theorem State.countFrame_of {qs : List Part} {old : State} (s : State) (hq : Frame qs old s)
    (m : within [.flu] qs = true) : Frame qs old (State.countFrame s) := hq.comp (State.countFrame_fr s) m

theorem State.formSlots_fr (s : State) :
    Frame [.tru, .slu, .cmu, .flags] s (State.formSlots s).1 := by
  unfold State.formSlots
  repeat' first
    | with_reducible exact Frame.refl _ _
    | with_reducible apply Frame.ite
    | ((with_reducible apply State.decideSlots_of); on_goal 2 => rfl)
    | split

theorem State.formSlots_of {qs : List Part} {old : State} (s : State) (hq : Frame qs old s)
    (m : within [.tru, .slu, .cmu, .flags] qs = true) : Frame qs old (State.formSlots s).1 := hq.comp (State.formSlots_fr s) m

theorem State.finishCells_fr (s : State) :
    Frame [.flu, .cls, .igu, .scu, .ksc, .flags, .lde] s (State.finishCells s) := by
  unfold State.finishCells
  repeat' first
    | with_reducible exact Frame.refl _ _
    | with_reducible apply Frame.ite
    | ((with_reducible apply Frame.foldl); on_goal 2 => intro u x _)
    | ((with_reducible apply State.endOut_of); on_goal 2 => rfl)
    | ((with_reducible apply State.outCell_of); on_goal 2 => rfl)

theorem State.finishCells_of {qs : List Part} {old : State} (s : State) (hq : Frame qs old s)
    (m : within [.flu, .cls, .igu, .scu, .ksc, .flags, .lde] qs = true) : Frame qs old (State.finishCells s) := hq.comp (State.finishCells_fr s) m

theorem State.openClaims_fr (s : State) :
    Frame [.cls] s (State.openClaims s) := by
  unfold State.openClaims
  repeat' first
    | with_reducible exact Frame.refl _ _
    | with_reducible apply Frame.ite
    | ((with_reducible apply State.startClaims_of); on_goal 2 => rfl)

theorem State.openClaims_of {qs : List Part} {old : State} (s : State) (hq : Frame qs old s)
    (m : within [.cls] qs = true) : Frame qs old (State.openClaims s) := hq.comp (State.openClaims_fr s) m

theorem State.originate_fr (s : State) :
    Frame [.free, .flu, .lsu, .axu, .tru, .slu, .cls, .cmu, .igu, .scu, .ksc, .flags, .ptu, .lde] s (State.originate s) := by
  unfold State.originate
  repeat' first
    | with_reducible exact Frame.refl _ _
    | with_reducible apply Frame.ite
    | ((with_reducible apply State.countFrame_of); on_goal 2 => rfl)
    | ((with_reducible apply State.finishCells_of); on_goal 2 => rfl)
    | ((with_reducible apply State.formSlots_of); on_goal 2 => rfl)
    | ((with_reducible apply State.formTrip_of); on_goal 2 => rfl)
    | ((with_reducible apply State.handMasterLoss_of); on_goal 2 => rfl)
    | ((with_reducible apply State.judgeReturn_of); on_goal 2 => rfl)
    | ((with_reducible apply State.onFlu_of); on_goal 2 => rfl)
    | ((with_reducible apply State.openClaims_of); on_goal 2 => rfl)
    | ((with_reducible apply State.placeEntry_of); on_goal 2 => rfl)

theorem State.originate_of {qs : List Part} {old : State} (s : State) (hq : Frame qs old s)
    (m : within [.free, .flu, .lsu, .axu, .tru, .slu, .cls, .cmu, .igu, .scu, .ksc, .flags, .ptu, .lde] qs = true) : Frame qs old (State.originate s) := hq.comp (State.originate_fr s) m

theorem State.takeOrigin_fr (s : State) :
    Frame [.free, .flu, .lsu, .axu, .tru, .slu, .cls, .cmu, .igu, .scu, .ksc, .flags, .ptu, .lde] s (State.takeOrigin s) := by
  unfold State.takeOrigin
  repeat' first
    | with_reducible exact Frame.refl _ _
    | with_reducible apply Frame.ite
    | ((with_reducible apply State.originate_of); on_goal 2 => rfl)

theorem State.takeOrigin_of {qs : List Part} {old : State} (s : State) (hq : Frame qs old s)
    (m : within [.free, .flu, .lsu, .axu, .tru, .slu, .cls, .cmu, .igu, .scu, .ksc, .flags, .ptu, .lde] qs = true) : Frame qs old (State.takeOrigin s) := hq.comp (State.takeOrigin_fr s) m

theorem State.blockBeat_fr (s : State) (b : PBeat) :
    Frame [.flags, .ptu] s (State.blockBeat s b) := by
  unfold State.blockBeat
  repeat' first
    | with_reducible exact Frame.refl _ _
    | with_reducible apply Frame.ite
    | ((with_reducible apply State.notify_of); on_goal 2 => rfl)
    | ((with_reducible apply State.onPtu_of _ _ (rfl)); on_goal 2 => rfl)

theorem State.blockBeat_of {qs : List Part} {old : State} (s : State) (b : PBeat) (hq : Frame qs old s)
    (m : within [.flags, .ptu] qs = true) : Frame qs old (State.blockBeat s b) := hq.comp (State.blockBeat_fr s b) m

theorem State.ownerBeat_fr (s : State) (b : PBeat) :
    Frame [.slu, .cmu, .igu, .scu, .flags, .ptu, .lde] s (State.ownerBeat s b) := by
  unfold State.ownerBeat
  repeat' first
    | with_reducible exact Frame.refl _ _
    | with_reducible apply Frame.ite
    | ((with_reducible apply State.camBeat_of); on_goal 2 => rfl)
    | ((with_reducible apply State.onPtu_of _ _ (rfl)); on_goal 2 => rfl)
    | ((with_reducible apply State.screenBeat_of); on_goal 2 => rfl)
    | ((with_reducible apply State.takeCommit_of); on_goal 2 => rfl)
    | split

theorem State.ownerBeat_of {qs : List Part} {old : State} (s : State) (b : PBeat) (hq : Frame qs old s)
    (m : within [.slu, .cmu, .igu, .scu, .flags, .ptu, .lde] qs = true) : Frame qs old (State.ownerBeat s b) := hq.comp (State.ownerBeat_fr s b) m

theorem State.writeBeat_fr (s : State) (b : PBeat) :
    Frame [.slu, .cmu, .igu, .scu, .flags, .ptu, .shadow, .lde, .mem] s (State.writeBeat s b) := by
  have km : ∀ u : State, Frame [.mem] u (u.onMem fun m => Memory.setWord m b.addr b.data b.be) :=
    fun u => u.setWord_fr _ _ _
  unfold State.writeBeat
  split
  · exact (State.blockBeat_fr s b).mono
  · exact Frame.refl _ _
  · exact (km s).mono
  · exact (km s).mono
  · dsimp only
    split
    · exact State.ownerBeat_of _ _ (State.setShadow_of _ _ _ _ ((km s).mono (m := rfl)) rfl) rfl
    · exact State.ownerBeat_of _ _ ((km s).mono (m := rfl)) rfl

theorem State.writeBeat_of {qs : List Part} {old : State} (s : State) (b : PBeat) (hq : Frame qs old s)
    (m : within [.slu, .cmu, .igu, .scu, .flags, .ptu, .shadow, .lde, .mem] qs = true) : Frame qs old (State.writeBeat s b) := hq.comp (State.writeBeat_fr s b) m

theorem State.acceptBeat_fr (s : State) (write : Bool) (b : PBeat) :
    Frame [.slu, .cmu, .igu, .scu, .flags, .ptu, .shadow, .lde, .mem] s (State.acceptBeat s write b) := by
  unfold State.acceptBeat
  repeat' first
    | with_reducible exact Frame.refl _ _
    | with_reducible apply Frame.ite
    | ((with_reducible apply State.onPtu_of _ _ (rfl)); on_goal 2 => rfl)
    | ((with_reducible apply State.writeBeat_of); on_goal 2 => rfl)

theorem State.acceptBeat_of {qs : List Part} {old : State} (s : State) (write : Bool) (b : PBeat) (hq : Frame qs old s)
    (m : within [.slu, .cmu, .igu, .scu, .flags, .ptu, .shadow, .lde, .mem] qs = true) : Frame qs old (State.acceptBeat s write b) := hq.comp (State.acceptBeat_fr s write b) m

theorem State.acceptBeats_fr (s : State) (write : Bool) (bs : List PBeat) :
    Frame [.slu, .cmu, .igu, .scu, .flags, .ptu, .shadow, .lde, .mem] s (State.acceptBeats s write bs) := by
  unfold State.acceptBeats
  repeat' first
    | with_reducible exact Frame.refl _ _
    | with_reducible apply Frame.ite
    | ((with_reducible apply Frame.foldl); on_goal 2 => intro u x _)
    | ((with_reducible apply State.acceptBeat_of); on_goal 2 => rfl)

theorem State.acceptBeats_of {qs : List Part} {old : State} (s : State) (write : Bool) (bs : List PBeat) (hq : Frame qs old s)
    (m : within [.slu, .cmu, .igu, .scu, .flags, .ptu, .shadow, .lde, .mem] qs = true) : Frame qs old (State.acceptBeats s write bs) := hq.comp (State.acceptBeats_fr s write bs) m

theorem State.clearKept_fr (s : State) (f : BitVec 16) :
    Frame [.flu, .slu, .cmu, .ptu] s (State.clearKept s f) := by
  unfold State.clearKept
  repeat' first
    | with_reducible exact Frame.refl _ _
    | with_reducible apply Frame.ite
    | ((with_reducible apply State.onCmu_of); on_goal 2 => rfl)
    | ((with_reducible apply State.onFlu_of); on_goal 2 => rfl)
    | ((with_reducible apply State.onPtu_of _ _ (rfl)); on_goal 2 => rfl)
    | ((with_reducible apply State.onSlu_of); on_goal 2 => rfl)

theorem State.clearKept_of {qs : List Part} {old : State} (s : State) (f : BitVec 16) (hq : Frame qs old s)
    (m : within [.flu, .slu, .cmu, .ptu] qs = true) : Frame qs old (State.clearKept s f) := hq.comp (State.clearKept_fr s f) m

theorem State.takeClear_fr (s : State) (b : PBeat) :
    Frame [.flu, .slu, .cmu, .flags, .ptu] s (State.takeClear s b) := by
  exact State.clearKept_of _ _ ((s.onFlags_fr _ rfl).mono (m := rfl)) rfl

theorem State.takeClear_of {qs : List Part} {old : State} (s : State) (b : PBeat) (hq : Frame qs old s)
    (m : within [.flu, .slu, .cmu, .flags, .ptu] qs = true) : Frame qs old (State.takeClear s b) := hq.comp (State.takeClear_fr s b) m

theorem State.takeBeat_fr (s : State) (b : PBeat) :
    Frame [.flu, .tru, .slu, .cls, .cmu, .igu, .scu, .cnu, .flags, .ptu, .lde] s (State.takeBeat s b) := by
  unfold State.takeBeat
  split
  · exact (State.takeMask_fr ..).mono
  · exact (State.takeClear_fr ..).mono
  · exact (State.takeRefresh_fr ..).mono
  · exact (State.takeTripCommand_fr ..).mono
  · exact (State.takeWithdraw_fr ..).mono
  · exact (State.takeRelease_fr ..).mono
  · exact Frame.refl _ _

theorem State.takeBeat_of {qs : List Part} {old : State} (s : State) (b : PBeat) (hq : Frame qs old s)
    (m : within [.flu, .tru, .slu, .cls, .cmu, .igu, .scu, .cnu, .flags, .ptu, .lde] qs = true) : Frame qs old (State.takeBeat s b) := hq.comp (State.takeBeat_fr s b) m

theorem State.endCycle_fr (s : State) :
    Frame [.flu, .tru, .slu, .cls, .cmu, .igu, .scu, .cnu, .flags, .ptu, .lde] s (State.endCycle s) := by
  unfold State.endCycle
  repeat' first
    | with_reducible exact Frame.refl _ _
    | with_reducible apply Frame.ite
    | ((with_reducible apply Frame.foldl); on_goal 2 => intro u x _)
    | ((with_reducible apply State.onPtu_of _ _ (rfl)); on_goal 2 => rfl)
    | ((with_reducible apply State.takeBeat_of); on_goal 2 => rfl)
    | split

theorem State.endCycle_of {qs : List Part} {old : State} (s : State) (hq : Frame qs old s)
    (m : within [.flu, .tru, .slu, .cls, .cmu, .igu, .scu, .cnu, .flags, .ptu, .lde] qs = true) : Frame qs old (State.endCycle s) := hq.comp (State.endCycle_fr s) m

/-- Beats that do not reach memory change nothing but the cycle, the blocked-write latch and flag 4 (R28, R33). -/
theorem State.acceptBeats_fr_of_stays (s : State) (write : Bool) (bs : List PBeat)
    (h : ∀ b ∈ bs, b.id.reaches write = false) : Frame [.flags, .ptu] s (s.acceptBeats write bs) := by
  unfold State.acceptBeats
  refine Frame.foldl _ _ (Frame.refl _ _) fun u b hb => ?_
  have hr := h b hb
  unfold State.acceptBeat
  cases write
  · simp only [Bool.false_eq_true, if_false]
    refine State.onPtu_of _ _ ?_ (Frame.refl _ _) ?_ <;> rfl
  · simp only [Ident.reaches] at hr
    unfold State.writeBeat
    simp only [if_true]
    split <;> rename_i hc <;> simp only [hc] at hr
    · exact (State.blockBeat_fr u b).mono
    · exact Frame.refl _ _
    all_goals cases hr

theorem State.passBeats_fr (s : State) : Frame [.flags, .ptu] s s.passBeats := by
  unfold State.passBeats
  split
  · rename_i c _
    refine Frame.comp (State.onPtu_of _ _ rfl (Frame.refl _ _) rfl) (State.acceptBeats_fr_of_stays _ _ _ fun b hb => ?_) rfl
    have := List.mem_takeWhile_imp hb
    simpa using this
  · exact Frame.refl _ _

theorem State.passBeats_of {qs : List Part} {old : State} (s : State) (hq : Frame qs old s)
    (m : within [.flags, .ptu] qs = true) : Frame qs old (State.passBeats s) := hq.comp (State.passBeats_fr s) m

theorem State.passRun_fr (s : State) :
    Frame [.slu, .cmu, .igu, .scu, .flags, .ptu, .shadow, .lde, .mem] s (State.passRun s) := by
  unfold State.passRun
  repeat' first
    | with_reducible exact Frame.refl _ _
    | with_reducible apply Frame.ite
    | ((with_reducible apply State.acceptBeats_of); on_goal 2 => rfl)
    | ((with_reducible apply State.onPtu_of _ _ (rfl)); on_goal 2 => rfl)
    | ((with_reducible apply State.passBeats_of); on_goal 2 => rfl)
    | split

theorem State.passRun_of {qs : List Part} {old : State} (s : State) (hq : Frame qs old s)
    (m : within [.slu, .cmu, .igu, .scu, .flags, .ptu, .shadow, .lde, .mem] qs = true) : Frame qs old (State.passRun s) := hq.comp (State.passRun_fr s) m

theorem State.grantCycle_fr (s : State) :
    Frame [.flags, .ptu, .lde] s (State.grantCycle s) := by
  unfold State.grantCycle
  repeat' first
    | with_reducible exact Frame.refl _ _
    | with_reducible apply Frame.ite
    | ((with_reducible apply State.giveTo_of); on_goal 2 => rfl)
    | ((with_reducible apply State.onPtu_of _ _ (rfl)); on_goal 2 => rfl)
    | ((with_reducible apply State.passBeats_of); on_goal 2 => rfl)

theorem State.grantCycle_of {qs : List Part} {old : State} (s : State) (hq : Frame qs old s)
    (m : within [.flags, .ptu, .lde] qs = true) : Frame qs old (State.grantCycle s) := hq.comp (State.grantCycle_fr s) m

theorem State.arbitrate_fr (s : State) :
    Frame [.flags, .ptu, .lde] s (State.arbitrate s) := by
  unfold State.arbitrate
  repeat' first
    | with_reducible exact Frame.refl _ _
    | with_reducible apply Frame.ite
    | ((with_reducible apply State.giveTo_of); on_goal 2 => rfl)
    | ((with_reducible apply State.grantCycle_of); on_goal 2 => rfl)
    | ((with_reducible apply State.starve_of); on_goal 2 => rfl)

theorem State.arbitrate_of {qs : List Part} {old : State} (s : State) (hq : Frame qs old s)
    (m : within [.flags, .ptu, .lde] qs = true) : Frame qs old (State.arbitrate s) := hq.comp (State.arbitrate_fr s) m

theorem State.urgentBurst_fr (s : State) :
    Frame [.lde, .mem] s (State.urgentBurst s) := by
  unfold State.urgentBurst
  split
  · exact Frame.refl _ _
  · rename_i e rest hu
    have k : Frame [.lde, .mem] s (match (burstsOf e.runs)[e.done]? with
        | some r => s.writeRun r
        | none => s) := by
      split
      · exact (State.writeRun_fr ..).mono
      · exact Frame.refl _ _
    have kl : (match (burstsOf e.runs)[e.done]? with
        | some r => s.writeRun r
        | none => s).lde = s.lde := by split <;> rfl
    dsimp only
    split
    · refine k.comp (State.onLde_fr _ _ fun hs => ?_) rfl
      exact Lde.takeFollow_sound _ e rest (by rw [kl]; exact hu) hs
    · refine k.comp (State.onLde_fr _ _ fun hs => ?_) rfl
      rw [kl] at hs ⊢
      obtain ⟨h1, h2, h3, h4⟩ := hs
      rw [hu] at h1 h3
      exact ⟨h1, h2, h3, h4⟩

theorem State.urgentBurst_of {qs : List Part} {old : State} (s : State) (hq : Frame qs old s)
    (m : within [.lde, .mem] qs = true) : Frame qs old (State.urgentBurst s) := hq.comp (State.urgentBurst_fr s) m

theorem State.entryDone_fr (s : State) (req : Requester) (got : List Word) :
    Frame [.igu, .scu, .flags, .lde] s (State.entryDone s req got) := by
  unfold State.entryDone
  repeat' first
    | with_reducible exact Frame.refl _ _
    | with_reducible apply Frame.ite
    | ((with_reducible apply State.descriptorLanded_of); on_goal 2 => rfl)
    | ((with_reducible apply State.fetchDone_of); on_goal 2 => rfl)
    | ((with_reducible apply State.notify_of); on_goal 2 => rfl)
    | ((with_reducible apply State.tileLanded_of); on_goal 2 => rfl)
    | split

theorem State.entryDone_of {qs : List Part} {old : State} (s : State) (req : Requester) (got : List Word) (hq : Frame qs old s)
    (m : within [.igu, .scu, .flags, .lde] qs = true) : Frame qs old (State.entryDone s req got) := hq.comp (State.entryDone_fr s req got) m

theorem State.normalBurst_fr (s : State) :
    Frame [.igu, .scu, .flags, .lde, .mem] s (State.normalBurst s) := by
  unfold State.normalBurst
  split
  · exact Frame.refl _ _
  · rename_i e rest hu
    dsimp only
    generalize (burstsOf e.runs).getD e.done { addr := 0, words := [] } = run
    have k : Frame [.igu, .scu, .flags, .lde, .mem] s (if e.req.isRead then s else s.writeRun run) := by
      split
      · exact Frame.refl _ _
      · exact (State.writeRun_fr ..).mono
    have kl : (if e.req.isRead then s else s.writeRun run).lde = s.lde := by split <;> rfl
    split
    · refine State.entryDone_of _ _ _ (k.comp (State.onLde_fr _ _ fun hs => ?_) rfl) rfl
      rw [kl] at hs ⊢
      exact ⟨hs.1, hs.2.1, hs.2.2.1, by have := hs.2.2.2; rw [hu] at this; simp at this ⊢; omega⟩
    · refine k.comp (State.onLde_fr _ _ fun hs => ?_) rfl
      rw [kl] at hs ⊢
      exact ⟨hs.1, hs.2.1, hs.2.2.1, by have := hs.2.2.2; rw [hu] at this; simpa using this⟩

theorem State.normalBurst_of {qs : List Part} {old : State} (s : State) (hq : Frame qs old s)
    (m : within [.igu, .scu, .flags, .lde, .mem] qs = true) : Frame qs old (State.normalBurst s) := hq.comp (State.normalBurst_fr s) m

theorem State.freePort_fr (s : State) :
    Frame [.lde] s (State.freePort s) := by
  unfold State.freePort
  repeat' first
    | with_reducible exact Frame.refl _ _
    | with_reducible apply Frame.ite
    | ((with_reducible apply State.giveTo_of); on_goal 2 => rfl)

theorem State.freePort_of {qs : List Part} {old : State} (s : State) (hq : Frame qs old s)
    (m : within [.lde] qs = true) : Frame qs old (State.freePort s) := hq.comp (State.freePort_fr s) m

theorem State.nextCycle_fr (s : State) :
    Frame [.ptu] s (State.nextCycle s) := by
  unfold State.nextCycle
  repeat' first
    | with_reducible exact Frame.refl _ _
    | ((with_reducible apply State.onPtu_of _ _ (rfl)); on_goal 2 => rfl)
    | split

theorem State.nextCycle_of {qs : List Part} {old : State} (s : State) (hq : Frame qs old s)
    (m : within [.ptu] qs = true) : Frame qs old (State.nextCycle s) := hq.comp (State.nextCycle_fr s) m

theorem State.cycleBurst_fr (s : State) :
    Frame [.flu, .tru, .slu, .cls, .cmu, .igu, .scu, .cnu, .flags, .ptu, .shadow, .lde, .mem] s (State.cycleBurst s) := by
  unfold State.cycleBurst
  repeat' first
    | with_reducible exact Frame.refl _ _
    | with_reducible apply Frame.ite
    | ((with_reducible apply State.nextCycle_of); on_goal 2 => rfl)
    | ((with_reducible apply State.endCycle_of); on_goal 2 => rfl)
    | ((with_reducible apply State.freePort_of); on_goal 2 => rfl)
    | ((with_reducible apply State.passRun_of); on_goal 2 => rfl)

theorem State.cycleBurst_of {qs : List Part} {old : State} (s : State) (hq : Frame qs old s)
    (m : within [.flu, .tru, .slu, .cls, .cmu, .igu, .scu, .cnu, .flags, .ptu, .shadow, .lde, .mem] qs = true) : Frame qs old (State.cycleBurst s) := hq.comp (State.cycleBurst_fr s) m

theorem State.burstDone_fr (s : State) :
    Frame [.flu, .tru, .slu, .cls, .cmu, .igu, .scu, .cnu, .flags, .ptu, .shadow, .lde, .mem] s (State.burstDone s) := by
  unfold State.burstDone
  repeat' first
    | with_reducible exact Frame.refl _ _
    | with_reducible apply Frame.ite
    | ((with_reducible apply State.cycleBurst_of); on_goal 2 => rfl)
    | ((with_reducible apply State.freePort_of); on_goal 2 => rfl)
    | ((with_reducible apply State.normalBurst_of); on_goal 2 => rfl)
    | ((with_reducible apply State.urgentBurst_of); on_goal 2 => rfl)
    | split

theorem State.burstDone_of {qs : List Part} {old : State} (s : State) (hq : Frame qs old s)
    (m : within [.flu, .tru, .slu, .cls, .cmu, .igu, .scu, .cnu, .flags, .ptu, .shadow, .lde, .mem] qs = true) : Frame qs old (State.burstDone s) := hq.comp (State.burstDone_fr s) m

theorem State.answerNow_fr (s : State) (c : PCycle) :
    Frame [.flu, .tru, .slu, .cls, .cmu, .igu, .scu, .cnu, .flags, .ptu, .lde] s (State.answerNow s c) := by
  unfold State.answerNow
  repeat' first
    | with_reducible exact Frame.refl _ _
    | ((with_reducible apply State.endCycle_of); on_goal 2 => rfl)
    | ((with_reducible apply State.onPtu_of _ _ (rfl)); on_goal 2 => rfl)
    | ((with_reducible apply State.passBeats_of); on_goal 2 => rfl)

theorem State.answerNow_of {qs : List Part} {old : State} (s : State) (c : PCycle) (hq : Frame qs old s)
    (m : within [.flu, .tru, .slu, .cls, .cmu, .igu, .scu, .cnu, .flags, .ptu, .lde] qs = true) : Frame qs old (State.answerNow s c) := hq.comp (State.answerNow_fr s c) m

theorem State.holdCycle_fr (s : State) (c : PCycle) :
    Frame [.ptu] s (State.holdCycle s c) := by
  unfold State.holdCycle
  repeat' first
    | with_reducible exact Frame.refl _ _
    | with_reducible apply Frame.ite
    | ((with_reducible apply State.onPtu_of _ _ (rfl)); on_goal 2 => rfl)

theorem State.holdCycle_of {qs : List Part} {old : State} (s : State) (c : PCycle) (hq : Frame qs old s)
    (m : within [.ptu] qs = true) : Frame qs old (State.holdCycle s c) := hq.comp (State.holdCycle_fr s c) m

theorem State.present_fr (s : State) (write : Bool) (addr : BitVec 24) (beats : List Beat) :
    Frame [.flu, .tru, .slu, .cls, .cmu, .igu, .scu, .cnu, .flags, .ptu, .lde] s (State.present s write addr beats) := by
  unfold State.present
  exact Frame.ite (State.holdCycle_of _ _ (Frame.refl _ _) rfl) (State.answerNow_fr _ _)

theorem State.present_of {qs : List Part} {old : State} (s : State) (write : Bool) (addr : BitVec 24) (beats : List Beat) (hq : Frame qs old s)
    (m : within [.flu, .tru, .slu, .cls, .cmu, .igu, .scu, .cnu, .flags, .ptu, .lde] qs = true) : Frame qs old (State.present s write addr beats) := hq.comp (State.present_fr s write addr beats) m

theorem State.initialLandings_fr (s : State) :
    Frame [.flags, .lde] s (State.initialLandings s) := by
  unfold State.initialLandings
  repeat' first
    | with_reducible exact Frame.refl _ _
    | with_reducible apply Frame.ite
    | ((with_reducible apply Frame.foldl); on_goal 2 => intro u x _)
    | ((with_reducible apply State.landEmptyDescriptors_of); on_goal 2 => rfl)
    | ((with_reducible apply State.landInitialStatus_of); on_goal 2 => rfl)
    | ((with_reducible apply State.landTripRecord_of); on_goal 2 => rfl)

theorem State.initialLandings_of {qs : List Part} {old : State} (s : State) (hq : Frame qs old s)
    (m : within [.flags, .lde] qs = true) : Frame qs old (State.initialLandings s) := hq.comp (State.initialLandings_fr s) m

theorem State.readHeader_fr (s : State) (bs : List Byte) :
    Frame [.cnu, .flags] s (State.readHeader s bs) := by
  unfold State.readHeader
  have k : ∀ h, Frame [.cnu, .flags] s (s.onCnu fun c => { c with flash := some h }) := fun h => (s.onConfig_fr _ rfl rfl).mono
  dsimp only
  split
  · split
    · exact (k _).comp (State.rejectConfig_fr _ _) rfl
    · split
      · exact (k _).comp (State.rejectConfig_fr _ _) rfl
      · exact k _
  · exact Frame.refl _ _

theorem State.readHeader_of {qs : List Part} {old : State} (s : State) (bs : List Byte) (hq : Frame qs old s)
    (m : within [.cnu, .flags] qs = true) : Frame qs old (State.readHeader s bs) := hq.comp (State.readHeader_fr s bs) m

theorem State.tripLine_fr (s : State) (n : Fin 8) (level : Bool) :
    Frame [.tru, .cmu, .flags] s (State.tripLine s n level) := by
  unfold State.tripLine
  repeat' first
    | with_reducible exact Frame.refl _ _
    | with_reducible apply Frame.ite
    | ((with_reducible apply State.handCondition_of); on_goal 2 => rfl)
    | ((with_reducible apply State.onTru_of); on_goal 2 => rfl)
    | ((with_reducible apply State.startFilter_of); on_goal 2 => rfl)

theorem State.tripLine_of {qs : List Part} {old : State} (s : State) (n : Fin 8) (level : Bool) (hq : Frame qs old s)
    (m : within [.tru, .cmu, .flags] qs = true) : Frame qs old (State.tripLine s n level) := hq.comp (State.tripLine_fr s n level) m

theorem State.filterDone_fr (s : State) (n : Fin 8) :
    Frame [.tru, .cmu, .flags] s (State.filterDone s n) := by
  unfold State.filterDone
  repeat' first
    | with_reducible exact Frame.refl _ _
    | with_reducible apply Frame.ite
    | ((with_reducible apply State.handCondition_of); on_goal 2 => rfl)
    | ((with_reducible apply State.onTru_of); on_goal 2 => rfl)
    | split

theorem State.filterDone_of {qs : List Part} {old : State} (s : State) (n : Fin 8) (hq : Frame qs old s)
    (m : within [.tru, .cmu, .flags] qs = true) : Frame qs old (State.filterDone s n) := hq.comp (State.filterDone_fr s n) m

theorem State.takeFiring_fr (s : State) (n : Fin 4) :
    Frame [.cmu] s (State.takeFiring s n) := by
  unfold State.takeFiring
  repeat' first
    | with_reducible exact Frame.refl _ _
    | with_reducible apply Frame.ite
    | ((with_reducible apply State.onChannel_of); on_goal 2 => rfl)
    | split

theorem State.takeFiring_of {qs : List Part} {old : State} (s : State) (n : Fin 4) (hq : Frame qs old s)
    (m : within [.cmu] qs = true) : Frame qs old (State.takeFiring s n) := hq.comp (State.takeFiring_fr s n) m

theorem State.pulseDone_fr (s : State) (n : Fin 4) :
    Frame [.cmu] s (State.pulseDone s n) := by
  unfold State.pulseDone
  repeat' first
    | with_reducible exact Frame.refl _ _
    | with_reducible apply Frame.ite
    | ((with_reducible apply State.onChannel_of); on_goal 2 => rfl)
    | split

theorem State.pulseDone_of {qs : List Part} {old : State} (s : State) (n : Fin 4) (hq : Frame qs old s)
    (m : within [.cmu] qs = true) : Frame qs old (State.pulseDone s n) := hq.comp (State.pulseDone_fr s n) m

theorem State.scanRow_fr (s : State) (cols : BitVec 8) :
    Frame [.tru, .cmu, .ksc, .flags] s (State.scanRow s cols) := by
  unfold State.scanRow
  repeat' first
    | with_reducible exact Frame.refl _ _
    | with_reducible apply Frame.ite
    | ((with_reducible apply State.readRow_of); on_goal 2 => rfl)

theorem State.scanRow_of {qs : List Part} {old : State} (s : State) (cols : BitVec 8) (hq : Frame qs old s)
    (m : within [.tru, .cmu, .ksc, .flags] qs = true) : Frame qs old (State.scanRow s cols) := hq.comp (State.scanRow_fr s cols) m

theorem State.carry_fr (s : State) :
    Frame [.flu, .tru, .slu, .cls, .cmu, .igu, .scu, .cnu, .flags, .ptu, .shadow, .lde, .mem] s (State.carry s) := by
  unfold State.carry
  repeat' first
    | with_reducible exact Frame.refl _ _
    | with_reducible apply Frame.ite
    | ((with_reducible apply State.burstDone_of); on_goal 2 => rfl)

theorem State.carry_of {qs : List Part} {old : State} (s : State) (hq : Frame qs old s)
    (m : within [.flu, .tru, .slu, .cls, .cmu, .igu, .scu, .cnu, .flags, .ptu, .shadow, .lde, .mem] qs = true) : Frame qs old (State.carry s) := hq.comp (State.carry_fr s) m

theorem State.writeOne_fr (s : State) (a : Nat) (b : Beat) :
    Frame [.flu, .tru, .slu, .cls, .cmu, .igu, .scu, .cnu, .flags, .ptu, .shadow, .lde, .mem] s (State.writeOne s a b) := by
  unfold State.writeOne
  repeat' first
    | with_reducible exact Frame.refl _ _
    | with_reducible apply Frame.ite
    | ((with_reducible apply State.arbitrate_of); on_goal 2 => rfl)
    | ((with_reducible apply State.carry_of); on_goal 2 => rfl)
    | ((with_reducible apply State.present_of); on_goal 2 => rfl)

theorem State.writeOne_of {qs : List Part} {old : State} (s : State) (a : Nat) (b : Beat) (hq : Frame qs old s)
    (m : within [.flu, .tru, .slu, .cls, .cmu, .igu, .scu, .cnu, .flags, .ptu, .shadow, .lde, .mem] qs = true) : Frame qs old (State.writeOne s a b) := hq.comp (State.writeOne_fr s a b) m

theorem State.writeIf_fr (s : State) (p : Ident → Bool) (a : BitVec 24) (b : Beat) :
    Frame [.flu, .tru, .slu, .cls, .cmu, .igu, .scu, .cnu, .flags, .ptu, .shadow, .lde, .mem] s (State.writeIf s p a b) := by
  unfold State.writeIf
  repeat' first
    | with_reducible exact Frame.refl _ _
    | with_reducible apply Frame.ite
    | ((with_reducible apply State.writeOne_of); on_goal 2 => rfl)

theorem State.writeIf_of {qs : List Part} {old : State} (s : State) (p : Ident → Bool) (a : BitVec 24) (b : Beat) (hq : Frame qs old s)
    (m : within [.flu, .tru, .slu, .cls, .cmu, .igu, .scu, .cnu, .flags, .ptu, .shadow, .lde, .mem] qs = true) : Frame qs old (State.writeIf s p a b) := hq.comp (State.writeIf_fr s p a b) m

theorem State.writeFixed_fr (s : State) (k : WindowKind) (off : Nat) (code : Nat → Bool) (b : Beat) :
    Frame [.flu, .tru, .slu, .cls, .cmu, .igu, .scu, .cnu, .flags, .ptu, .shadow, .lde, .mem] s (State.writeFixed s k off code b) := by
  unfold State.writeFixed
  repeat' first
    | with_reducible exact Frame.refl _ _
    | with_reducible apply Frame.ite
    | ((with_reducible apply State.writeOne_of); on_goal 2 => rfl)
    | split

theorem State.writeFixed_of {qs : List Part} {old : State} (s : State) (k : WindowKind) (off : Nat) (code : Nat → Bool) (b : Beat) (hq : Frame qs old s)
    (m : within [.flu, .tru, .slu, .cls, .cmu, .igu, .scu, .cnu, .flags, .ptu, .shadow, .lde, .mem] qs = true) : Frame qs old (State.writeFixed s k off code b) := hq.comp (State.writeFixed_fr s k off code b) m

end Sys2Proof.Machine
end

