-- ==== Sys2Proof/Laws/Bus.lean ====
section
/-! SUPPORT. A single-beat write at a quiet M-port: what the cycle comes to, for each class of word (log 5). -/

namespace Sys2Proof.Machine

/-- The node with its M-port held by a cycle whose one beat has been taken from it. -/
def State.busy (s : State) : State :=
  { s with
      ptu := { s.ptu with cycle := some { write := true, beats := [], answers := [], takes := [], granted := true } }
      lde := { s.lde with holder := .cycle } }

/-- The node with a cycle in progress that needs no memory and whose one beat has been taken from it. -/
def State.alone (s : State) : State :=
  { s with ptu := { s.ptu with
      cycle := some { write := true, beats := [], answers := [], takes := [], granted := false } } }

/-- The beat as classified. -/
def State.beatAt (s : State) (wa : Nat) (b : Beat) : PBeat :=
  { addr := wa, be := b.be, data := b.data, id := s.identOf wa, ans := s.liveWord (s.identOf wa) }

theorem State.classify_eq (s : State) {wa : Nat} (b : Beat) (h : wa < 2 ^ 24) :
    s.classify (BitVec.ofNat 24 wa) 0 b = s.beatAt wa b := by
  unfold State.classify State.beatAt
  have e : ((BitVec.ofNat 24 wa).toNat + 0) % 2 ^ 24 = wa := by simpa using h
  rw [e]

/-- At a quiet M-port no NORMAL entry is starved. -/
theorem State.Quiet.starve {s : State} (q : s.Quiet) : s.starve = s := by
  unfold State.starve State.waitReached
  rw [q.2.2.1]
  rfl

/-- With no cycle held behind, none comes next. -/
theorem State.nextCycle_none {s : State} (h : s.ptu.behind = []) : s.nextCycle = s := by
  unfold State.nextCycle
  rw [h]

/-- The next cycle is the one presented next (R44). -/
theorem State.nextCycle_some {s : State} {c : PCycle} {rest : List PCycle} (h : s.ptu.behind = c :: rest) :
    s.nextCycle = s.onPtu fun p => { p with cycle := some c, behind := rest } := by
  unfold State.nextCycle
  rw [h]

/-- With no cycle in progress, a cycle that needs the M-port is the one in progress. -/
theorem State.holdCycle_free {s : State} (c : PCycle) (h : s.ptu.cycle = none) :
    s.holdCycle c = s.onPtu fun p => { p with cycle := some c } := by
  simp [State.holdCycle, h]

/-- Behind another it is held. -/
theorem State.holdCycle_busy {s : State} (c : PCycle) (h : s.ptu.cycle.isSome = true) :
    s.holdCycle c = s.onPtu fun p => { p with behind := p.behind ++ [c] } := by
  obtain ⟨c0, h0⟩ := Option.isSome_iff_exists.mp h
  simp [State.holdCycle, h0]

/-- Taking a command leaves the cycles held alone (R36). -/
theorem State.takeBeat_behind (s : State) (b : PBeat) : (s.takeBeat b).ptu.behind = s.ptu.behind := by
  have key : ∀ {ps : List Part} {t : State}, Frame ps s t → Part.ptu ∉ ps → t.ptu.behind = s.ptu.behind := by
    intro ps t h m
    have k := h.only .ptu m
    simp only [Part.same] at k
    exact (Ptu.mk.injEq .. ▸ k).2.2.2.2.2.1
  unfold State.takeBeat
  split
  · exact key (State.takeMask_fr ..) (by decide)
  · unfold State.takeClear State.clearKept
    dsimp only
    repeat' split
    all_goals rfl
  · exact key (State.takeRefresh_fr ..) (by decide)
  · exact key (State.takeTripCommand_fr ..) (by decide)
  · exact key (State.takeWithdraw_fr ..) (by decide)
  · exact key (State.takeRelease_fr ..) (by decide)
  · rfl

/-- A write whose beat reaches memory is granted, carried out and completed. -/
theorem State.writeOne_reaches {s : State} {wa : Nat} (b : Beat) (q : s.Quiet) (h : wa < 2 ^ 24)
    (r : (s.identOf wa).reaches true = true) :
    s.writeOne wa b = (let t := (s.busy.writeBeat (s.beatAt wa b)).passBeats
      if t.cycleSpent then t.freePort.endCycle.nextCycle else t) := by
  obtain ⟨qh, qu, qn, qc, qb⟩ := q
  have hr : (s.beatAt wa b).id.reaches true = true := r
  unfold State.writeOne State.present State.cycleOf
  simp only [qc, Option.isSome_none, Bool.false_eq_true, if_false, List.zipIdx_cons, List.zipIdx_nil, List.map_cons,
    List.map_nil, s.classify_eq b h, List.any_cons, hr, Bool.true_or, if_true]
  rw [s.holdCycle_free _ qc]
  simp [State.arbitrate, State.starve, State.waitReached, State.onPtu, State.cycleWaits, State.grantCycle, State.giveTo,
    State.onLde, State.passBeats, State.acceptBeats, State.carry, State.burstDone, State.cycleBurst, State.passRun,
    qh, qu, qn, hr, State.busy, State.acceptBeat]

/-- A write whose beat reaches no memory completes at once. -/
theorem State.writeOne_absorbed {s : State} {wa : Nat} (b : Beat) (q : s.Quiet) (h : wa < 2 ^ 24)
    (r : (s.identOf wa).reaches true = false) :
    s.writeOne wa b =
      ((s.alone.writeBeat (s.beatAt wa b)).endCycle.onPtu fun p => { p with cycle := none }).arbitrate.carry := by
  obtain ⟨qh, qu, qn, qc, qb⟩ := q
  have hr : (s.beatAt wa b).id.reaches true = false := r
  unfold State.writeOne State.present State.cycleOf
  simp only [qc, Option.isSome_none, Bool.false_eq_true, if_false, List.zipIdx_cons, List.zipIdx_nil, List.map_cons,
    List.map_nil, s.classify_eq b h, List.any_cons, hr, Bool.or_self, List.any_nil, if_false]
  simp [State.answerNow, qc, State.onPtu, State.passBeats, State.acceptBeats, hr, State.acceptBeat, State.alone]

/-- The node after a capture write has reached memory and shadow, before its owner acts. -/
def State.written (s : State) (wa : Nat) (b : Beat) : State :=
  { s with
      mem := Memory.setWord s.mem wa b.data b.be
      ptu := { s.ptu with shadow := Cells.set s.ptu.shadow wa (mergeBytes (s.shadowAt wa) b.data b.be) } }

/-- A word whose write is taken at the completion of its cycle (R36). -/
def Ident.isTaken (i : Ident) : Bool :=
  match i with
  | .noticeMask => true
  | .noticeClear => true
  | .refresh => true
  | .tripCommand _ => true
  | .withdraw _ _ => true
  | .release _ _ => true
  | _ => false

/-- A single-beat write to such a word: memory and shadow take it, then its owner does. -/
theorem State.writeOne_takes {s : State} {wa : Nat} (b : Beat) (q : s.Quiet) (h : wa < 2 ^ 24)
    (t : (s.identOf wa).isTaken = true) : s.writeOne wa b = (s.written wa b).takeBeat (s.beatAt wa b) := by
  have hc : (s.beatAt wa b).id.wordClass = .capture := by
    show (s.identOf wa).wordClass = .capture
    revert t
    cases s.identOf wa <;> simp [Ident.isTaken, Ident.wordClass]
  have hs : (s.beatAt wa b).id.hasShadow = true := by
    show (s.identOf wa).hasShadow = true
    revert t
    cases s.identOf wa <;> simp [Ident.isTaken, Ident.wordClass, Ident.hasShadow]
  have ho : ∀ u : State, u.ownerBeat (s.beatAt wa b) =
      u.onPtu fun p => { p with cycle := p.cycle.map fun c => { c with takes := c.takes ++ [s.beatAt wa b] } } := by
    have e : (s.beatAt wa b).id = s.identOf wa := rfl
    intro u
    unfold State.ownerBeat
    revert t
    rw [e]
    cases s.identOf wa <;> simp [Ident.isTaken]
  have ha : (s.beatAt wa b).addr = wa ∧ (s.beatAt wa b).data = b.data ∧ (s.beatAt wa b).be = b.be := ⟨rfl, rfl, rfl⟩
  have hr : (s.identOf wa).reaches true = true := by
    unfold Ident.reaches
    rw [show (s.identOf wa).wordClass = .capture from hc]
  rw [State.writeOne_reaches b q h hr]
  obtain ⟨qh, qu, qn, qc, qb⟩ := q
  unfold State.writeBeat
  simp only [hc, hs, ho, ha, if_true]
  simp only [State.busy, State.onMem, State.setShadow, State.onPtu, State.passBeats, State.acceptBeats, State.cycleSpent,
    State.endCycle, State.freePort, State.giveTo, State.onLde, State.written, State.shadowAt, Option.map_some,
    List.takeWhile_nil, List.dropWhile_nil, List.foldl_nil, List.nil_append, Option.any_some, List.isEmpty_nil, if_true,
    List.foldl_cons]
  rw [← qh, ← qc]
  exact State.nextCycle_none ((State.takeBeat_behind ..).trans qb)

end Sys2Proof.Machine
end

