-- ==== Sys2Proof/Laws/Events.lean ====
section
/-! SUPPORT. What ends every event: the trip report and the arbiter; the configuration load; that the arbiter leaves nothing
to grant, and does nothing in a state that it left; what the master's header shows. -/

namespace Sys2Proof.Machine

/-! ### The shaft values of the master's header (R16, R56; log 50) -/

@[simp] theorem Gen.header_run (g : Gen) :
    g.header true = { angle := g.angle, rev := g.rev, speed := g.speed, state := g.state } := rfl

@[simp] theorem Gen.header_setup (g : Gen) :
    g.header false = { angle := g.angle, rev := g.rev, speed := 0, state := .standstill } := rfl

/-! ### The arbiter (R42) -/

/-- After the arbiter, nothing is left to grant. -/
theorem State.arbitrate_served (s : State) : s.arbitrate.Served := by
  unfold State.arbitrate
  split
  · rename_i h
    exact fun h2 => absurd h2 h
  · dsimp only
    split
    · intro h2
      cases h2
    · rename_i hu
      split
      · intro h2
        exact absurd h2 (by
          unfold State.grantCycle
          have k := (State.passBeats_fr ((s.starve.giveTo .cycle).onPtu fun p =>
            { p with cycle := p.cycle.map fun c => { c with granted := true } })).only .lde (by decide)
          simp only [Part.same] at k
          rw [k]
          simp [State.giveTo])
      · rename_i hc
        split
        · intro h2
          cases h2
        · rename_i hn
          intro _
          simp only [Bool.not_eq_true', Bool.not_eq_false, List.isEmpty_iff] at hu hn
          simp [hn] at hc
          exact ⟨hu, hn, hc⟩

theorem State.starve_id (s : State) (h : s.lde.normal = []) : s.starve = s := by
  simp [State.starve, State.waitReached, h]

/-- Where nothing is to be granted the arbiter changes nothing. -/
theorem State.Served.arbitrate_eq {s : State} (h : s.Served) : s.arbitrate = s := by
  unfold State.arbitrate
  split
  · rfl
  · rename_i hf
    obtain ⟨h1, h2, h3⟩ := h (by simpa using hf)
    simp [s.starve_id h2, h1, h2, h3]

/-- Whether there is something to grant depends on the landing queue and the P-port cycle alone. -/
theorem State.Served.of_same {s t : State} (h : s.Served) (hl : t.lde = s.lde) (hc : t.ptu.cycle = s.ptu.cycle) : t.Served := by
  intro hf
  have := h (by rwa [hl] at hf)
  simpa [State.cycleWaits, hl, hc] using this

/-! ### The first source (R93) -/

/-- The local first source is latched with its stamp, which is earlier than that of every latched source below it. -/
theorem State.firstSource_latched {s : State} {n : Fin 15} {st : Stamp} (h : s.firstSource = some (n, st)) :
    s.tru.latch[n] = some st ∧ ∀ m < n, ∀ x, s.tru.latch[m] = some x → st.earlier x = true := by
  have key : ∀ (l : List (Fin 15)) (best : Option (Fin 15 × Stamp)),
      (∀ b ∈ best, s.tru.latch[b.1] = some b.2 ∧ s.earliestBefore b.1 b.2 = true) →
      ∀ b ∈ l.foldl (fun best n => match s.tru.latch[n] with
        | none => best
        | some st => if s.earliestBefore n st then some (n, st) else best) best,
        s.tru.latch[b.1] = some b.2 ∧ s.earliestBefore b.1 b.2 = true := by
    intro l
    induction l with
    | nil => exact fun best hb => hb
    | cons k l ih =>
      intro best hb
      refine ih _ ?_
      dsimp only
      split
      · exact hb
      · rename_i x hx
        split
        · rintro b ⟨⟩
          exact ⟨hx, ‹_›⟩
        · exact hb
  obtain ⟨hl, he⟩ := key _ none (by simp) (n, st) h
  refine ⟨hl, fun m hm x hx => ?_⟩
  have := List.all_eq_true.mp he m (List.mem_finRange m)
  simp only [hx, Option.all_some, Bool.or_eq_true, decide_eq_true_eq] at this
  exact this.resolve_left (Fin.not_le.mpr hm)

/-! ### The trip report (R107) -/

theorem State.tripRecord_congr {s t : State} (ht : t.tru = s.tru) (hp : t.flu.position = s.flu.position) :
    t.tripRecord = s.tripRecord := by
  simp [State.tripRecord, State.firstSource, State.earliestBefore, State.remoteClass, State.ownBit, ht, hp]

/-- An event that leaves the trip state and the position alone makes no report. -/
theorem State.reportTrip_id {s t : State} (ht : t.tru = s.tru) (hp : t.flu.position = s.flu.position) :
    State.reportTrip s t = t := by
  unfold State.reportTrip
  split
  · simp [ht, State.tripRecord_congr ht hp, State.notifyIf]
  · rfl

theorem State.settle_fr (s0 s : State) : Frame [.flags, .ptu, .lde] s (State.settle s0 s) :=
  ((State.reportTrip_fr s0 s).mono (qs := [.flags, .ptu, .lde])).comp (State.arbitrate_fr _)

/-- An event that touches neither trip state nor position nor anything the arbiter looks at ends as its own effect. -/
theorem State.settle_id {s t : State} (hs : s.Served) (ht : t.tru = s.tru) (hp : t.flu.position = s.flu.position)
    (hl : t.lde = s.lde) (hc : t.ptu.cycle = s.ptu.cycle) : State.settle s t = t := by
  rw [State.settle, State.reportTrip_id ht hp, (hs.of_same hl hc).arbitrate_eq]

theorem State.Served.elapse {s : State} (h : s.Served) (dt : Nat) : (s.elapse dt).Served := h

/-! ### Configuration (R190, R187) -/

theorem State.takeConfig_fr (s : State) (c : NodeCfg) :
    Frame [.cfg, .flu, .lsu, .axu, .tru, .slu, .cls, .cmu, .igu, .scu, .ksc, .cnu] s (s.takeConfig c) :=
  ⟨fun p hp => by cases p <;> first | exact absurd (by decide) hp | rfl,
   fun h => ⟨h.1, h.2, h.3, h.4, Nat.zero_le _, Nat.zero_le _⟩⟩

theorem State.completeConfig_fr (s : State) (c : NodeCfg) :
    Frame [.cfg, .flu, .lsu, .axu, .tru, .slu, .cls, .cmu, .igu, .scu, .ksc, .cnu, .flags, .lde] s (s.completeConfig c) := by
  unfold State.completeConfig
  refine State.reportTrip_of _ _ (Frame.foldl _ _ ?_ fun u x _ => (State.startFilter_fr u x).mono) rfl
  have k : Frame [.cfg, .flu, .lsu, .axu, .tru, .slu, .cls, .cmu, .igu, .scu, .ksc, .cnu, .flags, .lde] s
      (((s.takeConfig c).notify 14).initialLandings) :=
    State.initialLandings_of _ (State.notify_of _ _ ((s.takeConfig_fr c).mono (m := rfl)) rfl) rfl
  exact Frame.ite (State.screensJoin_of _ k rfl) k

theorem State.readBody_fr (s : State) (bs : List Byte) :
    Frame [.cfg, .flu, .lsu, .axu, .tru, .slu, .cls, .cmu, .igu, .scu, .ksc, .cnu, .flags, .lde] s (s.readBody bs) := by
  unfold State.readBody
  repeat' split
  · exact (State.rejectConfig_fr _ _).mono
  · exact (State.rejectConfig_fr _ _).mono
  · exact State.completeConfig_fr _ _
  · exact Frame.refl _ _
  · exact Frame.refl _ _

theorem State.readBody_of {qs : List Part} {old : State} (s : State) (bs : List Byte) (hq : Frame qs old s)
    (m : within [.cfg, .flu, .lsu, .axu, .tru, .slu, .cls, .cmu, .igu, .scu, .ksc, .cnu, .flags, .lde] qs = true) :
    Frame qs old (s.readBody bs) := hq.comp (s.readBody_fr bs) m

theorem State.reset_sound : State.reset.Sound :=
  ⟨rfl, rfl, rfl, ⟨by decide, by decide, by decide, by decide⟩, by decide, by decide⟩

/-- Pin reset keeps time, free choices, the queue and memory, and ends in a sound state where memory was. -/
theorem State.pinReset_fr (s : State) :
    Frame [.cfg, .flu, .lsu, .axu, .tru, .slu, .cls, .cmu, .igu, .scu, .ksc, .cnu, .flags, .ptu, .shadow, .lde] s s.pinReset :=
  ⟨fun p hp => by cases p <;> first | exact absurd (by decide) hp | rfl,
   fun h => ⟨h.1, State.reset_sound.2, State.reset_sound.3, State.reset_sound.4, Nat.zero_le _, Nat.zero_le _⟩⟩

end Sys2Proof.Machine
end

