-- ==== Sys2Proof/Laws/CommandFrames.lean ====
section
/-! SUPPORT. The frame of every command: what it can change when it completes, and that it keeps a sound state sound. -/

namespace Sys2Proof.Machine

theorem State.event_fr {ps qs : List Part} {s t : State} {dt : Nat} {f : State → State} (hf : ∀ u, Frame ps u (f u))
    (m : within ps qs = true) (m1 : within [.now] qs = true) (m2 : within [.flags, .ptu, .lde] qs = true)
    (h : s.event dt f = .next t) : Frame qs s t := by
  cases h
  exact (((s.elapse_fr dt).mono (m := m1)).comp (hf _) m).comp (State.settle_fr _ _) m2

theorem State.checked_fr {ps qs : List Part} {s t : State} {dt : Nat} {ok : Bool} {f : State → State}
    (hf : ∀ u, Frame ps u (f u)) (m : within ps qs = true) (m1 : within [.now] qs = true)
    (m2 : within [.flags, .ptu, .lde] qs = true) (h : s.checked ok dt f = .next t) : Frame qs s t := by
  unfold State.checked at h
  split at h
  · exact State.event_fr hf m m1 m2 h
  · cases h

theorem State.whenOutcome_fr {ps : List Part} {f : State → State} (hf : ∀ u, Frame ps u (f u)) (p : State → State → Bool)
    (s : State) : Frame ps s (s.whenOutcome f p) := Frame.ite (hf s) (Frame.refl _ _)

theorem State.epochWith_fr {s t : State} {dt : Nat} {p : State → State → Bool} (h : s.epochWith dt p = .next t) :
    Frame [.now, .free, .flu, .lsu, .axu, .tru, .slu, .cmu, .igu, .scu, .flags, .ptu, .lde] s t :=
  State.event_fr (State.whenOutcome_fr State.dueEpoch_fr p) rfl rfl rfl h

theorem execPinReset_fr (dt : Nat) (s : State) {t : State} (h : execPinReset dt s = .next t) :
    Frame [.now, .cfg, .flu, .lsu, .axu, .tru, .slu, .cls, .cmu, .igu, .scu, .ksc, .cnu, .flags, .ptu, .shadow, .lde] s t := by
  cases h
  exact ((s.elapse_fr dt).mono (m := rfl)).comp (State.pinReset_fr _) rfl

theorem execFlashBodyRead_fr (dt : Nat) (bytes : List Byte) (s : State) {t : State}
    (h : execFlashBodyRead dt bytes s = .next t) :
    Frame [.now, .cfg, .flu, .lsu, .axu, .tru, .slu, .cls, .cmu, .igu, .scu, .ksc, .cnu, .flags, .ptu, .lde] s t := by
  unfold execFlashBodyRead at h
  split at h
  · cases h
    exact State.arbitrate_of _ (State.readBody_of _ _ ((s.elapse_fr dt).mono (m := rfl)) rfl) rfl
  · cases h

theorem execFlashHeaderRead_fr (dt : Nat) (bytes : List Byte) (s : State) {t : State}
    (h : execFlashHeaderRead dt bytes s = .next t) :
    Frame [.now, .cnu, .flags, .ptu, .lde] s t :=
  State.checked_fr (fun _ => State.readHeader_fr ..) rfl rfl rfl h

theorem execLightDetected_fr (dt : Nat) (p : Port) (s : State) {t : State}
    (h : execLightDetected dt p s = .next t) :
    Frame [.now, .flu, .flags, .ptu, .lde] s t := by
  refine State.event_fr (ps := [.flu, .flags, .ptu, .lde]) (fun u => ?_) rfl rfl rfl h
  repeat' first
    | with_reducible exact Frame.refl _ _
    | with_reducible apply Frame.ite
    | ((with_reducible apply State.lightOn_of); on_goal 2 => rfl)

theorem execLockIntervalExpiry_fr (dt : Nat) (p : Port) (s : State) {t : State}
    (h : execLockIntervalExpiry dt p s = .next t) :
    Frame [.now, .flu, .flags, .ptu, .lde] s t := by
  refine State.event_fr (ps := [.flu, .flags, .ptu, .lde]) (fun u => ?_) rfl rfl rfl h
  repeat' first
    | with_reducible exact Frame.refl _ _
    | with_reducible apply Frame.ite
    | ((with_reducible apply State.lockDone_of); on_goal 2 => rfl)

theorem execClockOutOfBand_fr (dt : Nat) (p : Port) (s : State) {t : State}
    (h : execClockOutOfBand dt p s = .next t) :
    Frame [.now, .flu, .slu, .flags, .ptu, .lde] s t := by
  refine State.event_fr (ps := [.flu, .slu, .flags, .ptu, .lde]) (fun u => ?_) rfl rfl rfl h
  repeat' first
    | with_reducible exact Frame.refl _ _
    | with_reducible apply Frame.ite
    | ((with_reducible apply State.clockBad_of); on_goal 2 => rfl)

theorem execLightLost_fr (dt : Nat) (p : Port) (s : State) {t : State}
    (h : execLightLost dt p s = .next t) :
    Frame [.now, .flu, .slu, .flags, .ptu, .lde] s t := by
  refine State.event_fr (ps := [.flu, .slu, .flags, .ptu, .lde]) (fun u => ?_) rfl rfl rfl h
  repeat' first
    | with_reducible exact Frame.refl _ _
    | with_reducible apply Frame.ite
    | ((with_reducible apply State.lightOff_of); on_goal 2 => rfl)

theorem execStartSymbol_fr (dt : Nat) (p : Port) (s : State) {t : State}
    (h : execStartSymbol dt p s = .next t) :
    Frame [.now, .flu, .axu, .tru, .slu, .cmu, .igu, .scu, .ksc, .flags, .ptu, .lde] s t := by
  refine State.event_fr (ps := [.flu, .axu, .tru, .slu, .cmu, .igu, .scu, .ksc, .flags, .ptu, .lde]) (fun u => ?_) rfl rfl rfl h
  repeat' first
    | with_reducible exact Frame.refl _ _
    | with_reducible apply Frame.ite
    | ((with_reducible apply State.startFrame_of); on_goal 2 => rfl)

theorem execOutRunHeader_fr (dt : Nat) (b : Block) (s : State) {t : State}
    (h : execOutRunHeader dt b s = .next t) :
    Frame [.now, .free, .flu, .lsu, .axu, .tru, .slu, .cls, .cmu, .igu, .scu, .flags, .ptu, .lde] s t :=
  State.checked_fr (fun _ => State.outHeader_fr ..) rfl rfl rfl h

theorem execEntryIntoJoined_fr (dt : Nat) (b : Block) (s : State) {t : State}
    (h : execEntryIntoJoined dt b s = .next t) :
    Frame [.now, .free, .flu, .lsu, .axu, .tru, .slu, .cls, .cmu, .igu, .scu, .flags, .ptu, .lde] s t :=
  State.checked_fr (State.whenOutcome_fr (fun _ => State.outHeader_fr ..) _) rfl rfl rfl h

theorem execOutRunTripBlock_fr (dt : Nat) (b : Block) (s : State) {t : State}
    (h : execOutRunTripBlock dt b s = .next t) :
    Frame [.now, .flu, .tru, .cmu, .flags, .ptu, .lde] s t :=
  State.checked_fr (fun _ => State.outTrip_fr ..) rfl rfl rfl h

theorem execInsertionDecision_fr (dt : Nat) (tags : Block) (slots : List Block) (s : State) {t : State}
    (h : execInsertionDecision dt tags slots s = .next t) :
    Frame [.now, .flu, .tru, .slu, .cmu, .flags, .ptu, .lde] s t :=
  State.checked_fr (fun _ => State.outSlots_fr ..) rfl rfl rfl h

theorem execCellDecision_fr (dt : Nat) (b : Block) (s : State) {t : State}
    (h : execCellDecision dt b s = .next t) :
    Frame [.now, .flu, .cls, .igu, .scu, .ksc, .flags, .ptu, .lde] s t :=
  State.checked_fr (fun _ => State.outCell_fr ..) rfl rfl rfl h

theorem execClaimPassageEnd_fr (dt : Nat) (s : State) {t : State}
    (h : execClaimPassageEnd dt s = .next t) :
    Frame [.now, .flu, .flags, .ptu, .lde] s t := by
  refine State.event_fr (ps := [.flu, .flags, .ptu, .lde]) (fun u => ?_) rfl rfl rfl h
  repeat' first
    | with_reducible exact Frame.refl _ _
    | with_reducible apply Frame.ite
    | ((with_reducible apply State.outEnd_of); on_goal 2 => rfl)

theorem execReturnHeader_fr (dt : Nat) (src : ReturnSource) (s : State) {t : State}
    (h : execReturnHeader dt src s = .next t) :
    Frame [.now, .flu, .flags, .ptu, .lde] s t :=
  State.checked_fr (fun _ => State.retHeader_fr ..) rfl rfl rfl h

theorem execReturnTripBlock_fr (dt : Nat) (src : ReturnSource) (s : State) {t : State}
    (h : execReturnTripBlock dt src s = .next t) :
    Frame [.now, .flu, .tru, .cmu, .flags, .ptu, .lde] s t :=
  State.checked_fr (fun _ => State.retTrip_fr ..) rfl rfl rfl h

theorem execPassageToRun_fr (dt : Nat) (b : Block) (s : State) {t : State}
    (h : execPassageToRun dt b s = .next t) :
    Frame [.now, .flu, .tru, .cmu, .flags, .ptu, .lde] s t :=
  State.checked_fr (State.whenOutcome_fr (fun _ => State.retTrip_fr ..) _) rfl rfl rfl h

theorem execSlotReception_fr (dt : Nat) (n : Fin 128) (src : SlotSource) (s : State) {t : State}
    (h : execSlotReception dt n src s = .next t) :
    Frame [.now, .flu, .axu, .tru, .slu, .cmu, .flags, .ptu, .lde] s t :=
  State.checked_fr (fun _ => State.retSlot_fr ..) rfl rfl rfl h

theorem execSlotAreaEnd_fr (dt : Nat) (src : AreaSource) (s : State) {t : State}
    (h : execSlotAreaEnd dt src s = .next t) :
    Frame [.now, .flu, .slu, .flags, .ptu, .lde] s t :=
  State.checked_fr (fun _ => State.retSlotsEnd_fr ..) rfl rfl rfl h

theorem execCellDelivery_fr (dt : Nat) (src : ReturnSource) (s : State) {t : State}
    (h : execCellDelivery dt src s = .next t) :
    Frame [.now, .flu, .igu, .scu, .ksc, .flags, .ptu, .lde] s t :=
  State.checked_fr (fun _ => State.retCell_fr ..) rfl rfl rfl h

theorem execOrigination_fr (dt : Nat) (s : State) {t : State}
    (h : execOrigination dt s = .next t) :
    Frame [.now, .free, .flu, .lsu, .axu, .tru, .slu, .cls, .cmu, .igu, .scu, .ksc, .flags, .ptu, .lde] s t := by
  refine State.event_fr (ps := [.free, .flu, .lsu, .axu, .tru, .slu, .cls, .cmu, .igu, .scu, .ksc, .flags, .ptu, .lde]) (fun u => ?_) rfl rfl rfl h
  repeat' first
    | with_reducible exact Frame.refl _ _
    | with_reducible apply Frame.ite
    | ((with_reducible apply State.takeOrigin_of); on_goal 2 => rfl)

theorem execMasterRingLoss_fr (dt : Nat) (s : State) {t : State}
    (h : execMasterRingLoss dt s = .next t) :
    Frame [.now, .free, .flu, .lsu, .axu, .tru, .slu, .cls, .cmu, .igu, .scu, .ksc, .flags, .ptu, .lde] s t :=
  State.event_fr (State.whenOutcome_fr (fun _ => State.takeOrigin_fr ..) _) rfl rfl rfl h

theorem execNodeMissing_fr (dt : Nat) (b : Block) (s : State) {t : State}
    (h : execNodeMissing dt b s = .next t) :
    Frame [.now, .flu, .tru, .cmu, .flags, .ptu, .lde] s t :=
  State.checked_fr (State.whenOutcome_fr (fun _ => State.retTrip_fr ..) _) rfl rfl rfl h

theorem execApplyInstant_fr (dt : Nat) (s : State) {t : State}
    (h : execApplyInstant dt s = .next t) :
    Frame [.now, .free, .flu, .lsu, .axu, .tru, .slu, .cmu, .igu, .scu, .flags, .ptu, .lde] s t := by
  refine State.event_fr (ps := [.free, .flu, .lsu, .axu, .tru, .slu, .cmu, .igu, .scu, .flags, .ptu, .lde]) (fun u => ?_) rfl rfl rfl h
  repeat' first
    | with_reducible exact Frame.refl _ _
    | with_reducible apply Frame.ite
    | ((with_reducible apply State.takeDue_of); on_goal 2 => rfl)

theorem execLocalCycleTimerExpiry_fr (dt : Nat) (s : State) {t : State}
    (h : execLocalCycleTimerExpiry dt s = .next t) :
    Frame [.now, .free, .flu, .lsu, .axu, .tru, .slu, .cmu, .igu, .scu, .flags, .ptu, .lde] s t := by
  refine State.event_fr (ps := [.free, .flu, .lsu, .axu, .tru, .slu, .cmu, .igu, .scu, .flags, .ptu, .lde]) (fun u => ?_) rfl rfl rfl h
  repeat' first
    | with_reducible exact Frame.refl _ _
    | with_reducible apply Frame.ite
    | ((with_reducible apply State.takeTimer_of); on_goal 2 => rfl)

theorem execRingLoss_fr (dt : Nat) (s : State) {t : State}
    (h : execRingLoss dt s = .next t) :
    Frame [.now, .free, .flu, .lsu, .axu, .tru, .slu, .cmu, .igu, .scu, .flags, .ptu, .lde] s t :=
  State.epochWith_fr h

theorem execEndNodeCondition_fr (dt : Nat) (s : State) {t : State}
    (h : execEndNodeCondition dt s = .next t) :
    Frame [.now, .free, .flu, .lsu, .axu, .tru, .slu, .cmu, .igu, .scu, .flags, .ptu, .lde] s t :=
  State.epochWith_fr h

theorem execRampEnd_fr (dt : Nat) (s : State) {t : State}
    (h : execRampEnd dt s = .next t) :
    Frame [.now, .free, .flu, .lsu, .axu, .tru, .slu, .cmu, .igu, .scu, .flags, .ptu, .lde] s t :=
  State.epochWith_fr h

theorem execStopRampEnd_fr (dt : Nat) (s : State) {t : State}
    (h : execStopRampEnd dt s = .next t) :
    Frame [.now, .free, .flu, .lsu, .axu, .tru, .slu, .cmu, .igu, .scu, .flags, .ptu, .lde] s t :=
  State.epochWith_fr h

theorem execLocalStopEnd_fr (dt : Nat) (s : State) {t : State}
    (h : execLocalStopEnd dt s = .next t) :
    Frame [.now, .free, .flu, .lsu, .axu, .tru, .slu, .cmu, .igu, .scu, .flags, .ptu, .lde] s t :=
  State.epochWith_fr h

theorem execSourceLost_fr (dt : Nat) (n : Fin 8) (s : State) {t : State}
    (h : execSourceLost dt n s = .next t) :
    Frame [.now, .free, .flu, .lsu, .axu, .tru, .slu, .cmu, .igu, .scu, .flags, .ptu, .lde] s t :=
  State.epochWith_fr h

theorem execStopTimeout_fr (dt : Nat) (s : State) {t : State}
    (h : execStopTimeout dt s = .next t) :
    Frame [.now, .free, .flu, .lsu, .axu, .tru, .slu, .cmu, .igu, .scu, .flags, .ptu, .lde] s t :=
  State.epochWith_fr h

theorem execStreamTimeout_fr (dt : Nat) (n : Fin 4) (s : State) {t : State}
    (h : execStreamTimeout dt n s = .next t) :
    Frame [.now, .free, .flu, .lsu, .axu, .tru, .slu, .cmu, .igu, .scu, .flags, .ptu, .lde] s t :=
  State.epochWith_fr h

theorem execSweep_fr (dt : Nat) (n : Fin 2) (s : State) {t : State}
    (h : execSweep dt n s = .next t) :
    Frame [.now, .free, .flu, .lsu, .axu, .tru, .slu, .cmu, .igu, .scu, .flags, .ptu, .lde] s t :=
  State.epochWith_fr h

theorem execSlotStale_fr (dt : Nat) (w k : Fin 8) (s : State) {t : State}
    (h : execSlotStale dt w k s = .next t) :
    Frame [.now, .free, .flu, .lsu, .axu, .tru, .slu, .cmu, .igu, .scu, .flags, .ptu, .lde] s t :=
  State.epochWith_fr h

theorem execSetTarget_fr (dt : Nat) (s : State) {t : State}
    (h : execSetTarget dt s = .next t) :
    Frame [.now, .free, .flu, .lsu, .axu, .tru, .slu, .cmu, .igu, .scu, .flags, .ptu, .lde] s t :=
  State.epochWith_fr h

theorem execHold_fr (dt : Nat) (s : State) {t : State}
    (h : execHold dt s = .next t) :
    Frame [.now, .free, .flu, .lsu, .axu, .tru, .slu, .cmu, .igu, .scu, .flags, .ptu, .lde] s t :=
  State.epochWith_fr h

theorem execEngage_fr (dt : Nat) (n : Fin 8) (s : State) {t : State}
    (h : execEngage dt n s = .next t) :
    Frame [.now, .free, .flu, .lsu, .axu, .tru, .slu, .cmu, .igu, .scu, .flags, .ptu, .lde] s t :=
  State.epochWith_fr h

theorem execDisengage_fr (dt : Nat) (n : Fin 8) (s : State) {t : State}
    (h : execDisengage dt n s = .next t) :
    Frame [.now, .free, .flu, .lsu, .axu, .tru, .slu, .cmu, .igu, .scu, .flags, .ptu, .lde] s t :=
  State.epochWith_fr h

theorem execSetGear_fr (dt : Nat) (n : Fin 8) (s : State) {t : State}
    (h : execSetGear dt n s = .next t) :
    Frame [.now, .free, .flu, .lsu, .axu, .tru, .slu, .cmu, .igu, .scu, .flags, .ptu, .lde] s t :=
  State.epochWith_fr h

theorem execSetOffset_fr (dt : Nat) (n : Fin 8) (s : State) {t : State}
    (h : execSetOffset dt n s = .next t) :
    Frame [.now, .free, .flu, .lsu, .axu, .tru, .slu, .cmu, .igu, .scu, .flags, .ptu, .lde] s t :=
  State.epochWith_fr h

theorem execSetSource_fr (dt : Nat) (n : Fin 8) (s : State) {t : State}
    (h : execSetSource dt n s = .next t) :
    Frame [.now, .free, .flu, .lsu, .axu, .tru, .slu, .cmu, .igu, .scu, .flags, .ptu, .lde] s t :=
  State.epochWith_fr h

theorem execTripInputActive_fr (dt : Nat) (n : Fin 8) (level : Bool) (s : State) {t : State}
    (h : execTripInputActive dt n level s = .next t) :
    Frame [.now, .tru, .cmu, .flags, .ptu, .lde] s t := by
  refine State.event_fr (ps := [.tru, .cmu, .flags, .ptu, .lde]) (fun u => ?_) rfl rfl rfl h
  repeat' first
    | with_reducible exact Frame.refl _ _
    | with_reducible apply Frame.ite
    | ((with_reducible apply State.tripLine_of); on_goal 2 => rfl)

theorem execTripInputInactive_fr (dt : Nat) (n : Fin 8) (level : Bool) (s : State) {t : State}
    (h : execTripInputInactive dt n level s = .next t) :
    Frame [.now, .tru, .cmu, .flags, .ptu, .lde] s t := by
  refine State.event_fr (ps := [.tru, .cmu, .flags, .ptu, .lde]) (fun u => ?_) rfl rfl rfl h
  repeat' first
    | with_reducible exact Frame.refl _ _
    | with_reducible apply Frame.ite
    | ((with_reducible apply State.tripLine_of); on_goal 2 => rfl)

theorem execFilterExpiry_fr (dt : Nat) (n : Fin 8) (s : State) {t : State}
    (h : execFilterExpiry dt n s = .next t) :
    Frame [.now, .tru, .cmu, .flags, .ptu, .lde] s t := by
  refine State.event_fr (ps := [.tru, .cmu, .flags, .ptu, .lde]) (fun u => ?_) rfl rfl rfl h
  repeat' first
    | with_reducible exact Frame.refl _ _
    | with_reducible apply Frame.ite
    | ((with_reducible apply State.filterDone_of); on_goal 2 => rfl)

theorem execExposureEdge_fr (dt : Nat) (n : Fin 4) (level : Bool) (s : State) {t : State}
    (h : execExposureEdge dt n level s = .next t) :
    Frame [.now, .cmu, .flags, .ptu, .lde] s t := by
  refine State.event_fr (ps := [.cmu, .flags, .ptu, .lde]) (fun u => ?_) rfl rfl rfl h
  repeat' first
    | with_reducible exact Frame.refl _ _
    | with_reducible apply Frame.ite
    | ((with_reducible apply State.expLine_of); on_goal 2 => rfl)

theorem execFiring_fr (dt : Nat) (n : Fin 4) (s : State) {t : State}
    (h : execFiring dt n s = .next t) :
    Frame [.now, .cmu, .flags, .ptu, .lde] s t := by
  refine State.event_fr (ps := [.cmu, .flags, .ptu, .lde]) (fun u => ?_) rfl rfl rfl h
  repeat' first
    | with_reducible exact Frame.refl _ _
    | with_reducible apply Frame.ite
    | ((with_reducible apply State.takeFiring_of); on_goal 2 => rfl)

theorem execPulseTimerExpiry_fr (dt : Nat) (n : Fin 4) (s : State) {t : State}
    (h : execPulseTimerExpiry dt n s = .next t) :
    Frame [.now, .cmu, .flags, .ptu, .lde] s t := by
  refine State.event_fr (ps := [.cmu, .flags, .ptu, .lde]) (fun u => ?_) rfl rfl rfl h
  repeat' first
    | with_reducible exact Frame.refl _ _
    | with_reducible apply Frame.ite
    | ((with_reducible apply State.pulseDone_of); on_goal 2 => rfl)

theorem execKeyRowReading_fr (dt : Nat) (cols : BitVec 8) (s : State) {t : State}
    (h : execKeyRowReading dt cols s = .next t) :
    Frame [.now, .tru, .cmu, .ksc, .flags, .ptu, .lde] s t := by
  refine State.event_fr (ps := [.tru, .cmu, .ksc, .flags, .ptu, .lde]) (fun u => ?_) rfl rfl rfl h
  repeat' first
    | with_reducible exact Frame.refl _ _
    | with_reducible apply Frame.ite
    | ((with_reducible apply State.scanRow_of); on_goal 2 => rfl)

theorem execPPortCycle_fr (dt : Nat) (write : Bool) (addr : BitVec 24) (beats : List Beat) (s : State) {t : State}
    (h : execPPortCycle dt write addr beats s = .next t) :
    Frame [.now, .flu, .tru, .slu, .cls, .cmu, .igu, .scu, .cnu, .flags, .ptu, .lde] s t :=
  State.checked_fr (fun _ => State.present_fr ..) rfl rfl rfl h

theorem execMPortBurstCompletion_fr (dt : Nat) (s : State) {t : State}
    (h : execMPortBurstCompletion dt s = .next t) :
    Frame [.now, .flu, .tru, .slu, .cls, .cmu, .igu, .scu, .cnu, .flags, .ptu, .shadow, .lde, .mem] s t := by
  refine State.event_fr (ps := [.flu, .tru, .slu, .cls, .cmu, .igu, .scu, .cnu, .flags, .ptu, .shadow, .lde, .mem]) (fun u => ?_) rfl rfl rfl h
  repeat' first
    | with_reducible exact Frame.refl _ _
    | with_reducible apply Frame.ite
    | ((with_reducible apply State.burstDone_of); on_goal 2 => rfl)

theorem execStarvation_fr (dt : Nat) (s : State) {t : State} (h : execStarvation dt s = .next t) :
    Frame [.now, .flags, .ptu, .lde] s t := State.event_fr (fun u => State.starve_fr u) rfl rfl rfl h

theorem execTripRequest_fr (dt : Nat) (b : Beat) (s : State) {t : State}
    (h : execTripRequest dt b s = .next t) :
    Frame [.now, .flu, .tru, .slu, .cls, .cmu, .igu, .scu, .cnu, .flags, .ptu, .shadow, .lde, .mem] s t := by
  refine State.event_fr (ps := [.flu, .tru, .slu, .cls, .cmu, .igu, .scu, .cnu, .flags, .ptu, .shadow, .lde, .mem]) (fun u => ?_) rfl rfl rfl h
  repeat' first
    | with_reducible exact Frame.refl _ _
    | with_reducible apply Frame.ite
    | ((with_reducible apply State.writeFixed_of); on_goal 2 => rfl)

theorem execResetRequest_fr (dt : Nat) (b : Beat) (s : State) {t : State}
    (h : execResetRequest dt b s = .next t) :
    Frame [.now, .flu, .tru, .slu, .cls, .cmu, .igu, .scu, .cnu, .flags, .ptu, .shadow, .lde, .mem] s t := by
  refine State.event_fr (ps := [.flu, .tru, .slu, .cls, .cmu, .igu, .scu, .cnu, .flags, .ptu, .shadow, .lde, .mem]) (fun u => ?_) rfl rfl rfl h
  repeat' first
    | with_reducible exact Frame.refl _ _
    | with_reducible apply Frame.ite
    | ((with_reducible apply State.writeFixed_of); on_goal 2 => rfl)

theorem execEnableRequest_fr (dt : Nat) (b : Beat) (s : State) {t : State}
    (h : execEnableRequest dt b s = .next t) :
    Frame [.now, .flu, .tru, .slu, .cls, .cmu, .igu, .scu, .cnu, .flags, .ptu, .shadow, .lde, .mem] s t := by
  refine State.event_fr (ps := [.flu, .tru, .slu, .cls, .cmu, .igu, .scu, .cnu, .flags, .ptu, .shadow, .lde, .mem]) (fun u => ?_) rfl rfl rfl h
  repeat' first
    | with_reducible exact Frame.refl _ _
    | with_reducible apply Frame.ite
    | ((with_reducible apply State.writeFixed_of); on_goal 2 => rfl)

theorem execNoticeMask_fr (dt : Nat) (b : Beat) (s : State) {t : State}
    (h : execNoticeMask dt b s = .next t) :
    Frame [.now, .flu, .tru, .slu, .cls, .cmu, .igu, .scu, .cnu, .flags, .ptu, .shadow, .lde, .mem] s t := by
  refine State.event_fr (ps := [.flu, .tru, .slu, .cls, .cmu, .igu, .scu, .cnu, .flags, .ptu, .shadow, .lde, .mem]) (fun u => ?_) rfl rfl rfl h
  repeat' first
    | with_reducible exact Frame.refl _ _
    | with_reducible apply Frame.ite
    | ((with_reducible apply State.writeFixed_of); on_goal 2 => rfl)

theorem execNoticeClear_fr (dt : Nat) (b : Beat) (s : State) {t : State}
    (h : execNoticeClear dt b s = .next t) :
    Frame [.now, .flu, .tru, .slu, .cls, .cmu, .igu, .scu, .cnu, .flags, .ptu, .shadow, .lde, .mem] s t := by
  refine State.event_fr (ps := [.flu, .tru, .slu, .cls, .cmu, .igu, .scu, .cnu, .flags, .ptu, .shadow, .lde, .mem]) (fun u => ?_) rfl rfl rfl h
  repeat' first
    | with_reducible exact Frame.refl _ _
    | with_reducible apply Frame.ite
    | ((with_reducible apply State.writeFixed_of); on_goal 2 => rfl)

theorem execScreenRefreshCommand_fr (dt : Nat) (b : Beat) (s : State) {t : State}
    (h : execScreenRefreshCommand dt b s = .next t) :
    Frame [.now, .flu, .tru, .slu, .cls, .cmu, .igu, .scu, .cnu, .flags, .ptu, .shadow, .lde, .mem] s t := by
  refine State.event_fr (ps := [.flu, .tru, .slu, .cls, .cmu, .igu, .scu, .cnu, .flags, .ptu, .shadow, .lde, .mem]) (fun u => ?_) rfl rfl rfl h
  repeat' first
    | with_reducible exact Frame.refl _ _
    | with_reducible apply Frame.ite
    | ((with_reducible apply State.writeFixed_of); on_goal 2 => rfl)

theorem execUndefinedCommandCode_fr (dt : Nat) (site : CommandSite) (s : State) {t : State}
    (h : execUndefinedCommandCode dt site s = .next t) :
    Frame [.now, .free, .flu, .lsu, .axu, .tru, .slu, .cls, .cmu, .igu, .scu, .cnu, .flags, .ptu, .shadow, .lde, .mem] s t := by
  unfold execUndefinedCommandCode at h
  split at h
  · exact (State.epochWith_fr h).mono
  · exact (State.epochWith_fr h).mono
  · exact State.event_fr (fun _ => State.writeFixed_fr ..) rfl rfl rfl h
  · exact State.event_fr (fun _ => State.writeFixed_fr ..) rfl rfl rfl h

theorem execCommit_fr (dt : Nat) (addr : BitVec 24) (b : Beat) (s : State) {t : State}
    (h : execCommit dt addr b s = .next t) :
    Frame [.now, .flu, .tru, .slu, .cls, .cmu, .igu, .scu, .cnu, .flags, .ptu, .shadow, .lde, .mem] s t := by
  refine State.event_fr (ps := [.flu, .tru, .slu, .cls, .cmu, .igu, .scu, .cnu, .flags, .ptu, .shadow, .lde, .mem]) (fun u => ?_) rfl rfl rfl h
  repeat' first
    | with_reducible exact Frame.refl _ _
    | with_reducible apply Frame.ite
    | ((with_reducible apply State.writeIf_of); on_goal 2 => rfl)

theorem execWithdraw_fr (dt : Nat) (addr : BitVec 24) (b : Beat) (s : State) {t : State}
    (h : execWithdraw dt addr b s = .next t) :
    Frame [.now, .flu, .tru, .slu, .cls, .cmu, .igu, .scu, .cnu, .flags, .ptu, .shadow, .lde, .mem] s t := by
  refine State.event_fr (ps := [.flu, .tru, .slu, .cls, .cmu, .igu, .scu, .cnu, .flags, .ptu, .shadow, .lde, .mem]) (fun u => ?_) rfl rfl rfl h
  repeat' first
    | with_reducible exact Frame.refl _ _
    | with_reducible apply Frame.ite
    | ((with_reducible apply State.writeIf_of); on_goal 2 => rfl)

theorem execRelease_fr (dt : Nat) (addr : BitVec 24) (b : Beat) (s : State) {t : State}
    (h : execRelease dt addr b s = .next t) :
    Frame [.now, .flu, .tru, .slu, .cls, .cmu, .igu, .scu, .cnu, .flags, .ptu, .shadow, .lde, .mem] s t := by
  refine State.event_fr (ps := [.flu, .tru, .slu, .cls, .cmu, .igu, .scu, .cnu, .flags, .ptu, .shadow, .lde, .mem]) (fun u => ?_) rfl rfl rfl h
  repeat' first
    | with_reducible exact Frame.refl _ _
    | with_reducible apply Frame.ite
    | ((with_reducible apply State.writeIf_of); on_goal 2 => rfl)

theorem execCamOutBeat_fr (dt : Nat) (addr : BitVec 24) (b : Beat) (s : State) {t : State}
    (h : execCamOutBeat dt addr b s = .next t) :
    Frame [.now, .flu, .tru, .slu, .cls, .cmu, .igu, .scu, .cnu, .flags, .ptu, .shadow, .lde, .mem] s t := by
  refine State.event_fr (ps := [.flu, .tru, .slu, .cls, .cmu, .igu, .scu, .cnu, .flags, .ptu, .shadow, .lde, .mem]) (fun u => ?_) rfl rfl rfl h
  repeat' first
    | with_reducible exact Frame.refl _ _
    | with_reducible apply Frame.ite
    | ((with_reducible apply State.writeIf_of); on_goal 2 => rfl)

theorem execScreenOutBeat_fr (dt : Nat) (addr : BitVec 24) (b : Beat) (s : State) {t : State}
    (h : execScreenOutBeat dt addr b s = .next t) :
    Frame [.now, .flu, .tru, .slu, .cls, .cmu, .igu, .scu, .cnu, .flags, .ptu, .shadow, .lde, .mem] s t := by
  refine State.event_fr (ps := [.flu, .tru, .slu, .cls, .cmu, .igu, .scu, .cnu, .flags, .ptu, .shadow, .lde, .mem]) (fun u => ?_) rfl rfl rfl h
  repeat' first
    | with_reducible exact Frame.refl _ _
    | with_reducible apply Frame.ite
    | ((with_reducible apply State.writeIf_of); on_goal 2 => rfl)

theorem execBlockedWrite_fr (dt : Nat) (addr : BitVec 24) (b : Beat) (s : State) {t : State}
    (h : execBlockedWrite dt addr b s = .next t) :
    Frame [.now, .flu, .tru, .slu, .cls, .cmu, .igu, .scu, .cnu, .flags, .ptu, .shadow, .lde, .mem] s t := by
  refine State.event_fr (ps := [.flu, .tru, .slu, .cls, .cmu, .igu, .scu, .cnu, .flags, .ptu, .shadow, .lde, .mem]) (fun u => ?_) rfl rfl rfl h
  repeat' first
    | with_reducible exact Frame.refl _ _
    | with_reducible apply Frame.ite
    | ((with_reducible apply State.writeIf_of); on_goal 2 => rfl)

theorem execRegisterWrite_fr (dt : Nat) (addr : BitVec 24) (b : Beat) (s : State) {t : State}
    (h : execRegisterWrite dt addr b s = .next t) :
    Frame [.now, .flu, .tru, .slu, .cls, .cmu, .igu, .scu, .cnu, .flags, .ptu, .shadow, .lde, .mem] s t := by
  refine State.event_fr (ps := [.flu, .tru, .slu, .cls, .cmu, .igu, .scu, .cnu, .flags, .ptu, .shadow, .lde, .mem]) (fun u => ?_) rfl rfl rfl h
  repeat' first
    | with_reducible exact Frame.refl _ _
    | with_reducible apply Frame.ite
    | ((with_reducible apply State.writeIf_of); on_goal 2 => rfl)

end Sys2Proof.Machine
end

