-- ==== Sys2Proof/Tests/Slice0.lean ====
section
/-! SUPPORT. Tests: ill-formed commands are refused; single steps against the manual's worked examples and tables (each named
in its comment); and for every statement with hypotheses a state and operands that meet them. -/

set_option maxRecDepth 100000
set_option Elab.async false

namespace Sys2Proof.Tests

open Sys2Proof Sys2Proof.Machine

/-! ### Ill-formed operands -/

theorem test_refuse_flashHeader : exec (.flashHeaderRead 0 []) State.reset = .refused .illFormed := rfl
theorem test_refuse_flashBody_short :
    exec (.flashBodyRead 0 (List.replicate 63 0)) State.reset = .refused .illFormed := rfl
theorem test_refuse_flashBody_long : (Instr.flashBodyRead 0 (List.replicate 32769 0)).wf = false := by
  simp [Instr.wf]
theorem test_refuse_outRunHeader : (Instr.outRunHeader 0 (List.replicate 33 none)).wf = false := by decide
theorem test_refuse_entryIntoJoined : (Instr.entryIntoJoined 0 (List.replicate 33 none)).wf = false := by decide
theorem test_refuse_outRunTripBlock : (Instr.outRunTripBlock 0 (List.replicate 33 none)).wf = false := by decide
theorem test_refuse_tags : (Instr.insertionDecision 0 (List.replicate 19 none) []).wf = false := by decide
theorem test_refuse_slots : (Instr.insertionDecision 0 [] (List.replicate 129 [])).wf = false := by decide
theorem test_refuse_slot : (Instr.insertionDecision 0 [] [List.replicate 19 none]).wf = false := by decide
theorem test_refuse_cell : (Instr.cellDecision 0 (List.replicate 275 none)).wf = false := by decide +kernel
theorem test_refuse_returnHeader : (Instr.returnHeader 0 (.arrived (List.replicate 33 none))).wf = false := by decide
theorem test_refuse_returnTrip : (Instr.returnTripBlock 0 (.arrived (List.replicate 33 none))).wf = false := by decide
theorem test_refuse_passageToRun : (Instr.passageToRun 0 (List.replicate 33 none)).wf = false := by decide
theorem test_refuse_nodeMissing : (Instr.nodeMissing 0 (List.replicate 33 none)).wf = false := by decide
theorem test_refuse_slotTags : (Instr.slotReception 0 0 (.arrived (List.replicate 19 none) [])).wf = false := by decide
theorem test_refuse_slotData : (Instr.slotReception 0 0 (.arrived [] (List.replicate 19 none))).wf = false := by decide
theorem test_refuse_areaTags : (Instr.slotAreaEnd 0 (.arrived (List.replicate 19 none) [])).wf = false := by decide
theorem test_refuse_areaSlots : (Instr.slotAreaEnd 0 (.arrived [] (List.replicate 129 []))).wf = false := by decide
theorem test_refuse_cellDelivery : (Instr.cellDelivery 0 (.arrived (List.replicate 275 none))).wf = false := by
  decide +kernel
theorem test_refuse_noBeat : (Instr.pPortCycle 0 true 0 []).wf = false := by decide
theorem test_refuse_nineBeats : (Instr.pPortCycle 0 true 0 (List.replicate 9 ⟨15, 0⟩)).wf = false := by decide

/-! ### A node to test on -/

/-- The state after a command that completes; the state itself otherwise. -/
def after (c : Instr) (s : State) : State :=
  match exec c s with
  | .next t => t
  | _ => s

def win (base len : Nat) (kind : WindowKind) (params : WindowParams) : Window :=
  { base := base, len := len, kind := kind, idx := 0, params := params }

def geometry (pos : Nat) : ScreenParams :=
  { pos := pos, number := 0, depth := 8, width := 64, height := 8, stride := 64, period := 4 }

/-- One window of each kind, back to back. -/
def windows : List Window :=
  [win 0x0 256 .node .plain, win 0x100 64 .shaft .plain, win 0x200 512 .axis .plain, win 0x400 256 .trip .plain,
   win 0x500 192 .slotOut (.slotOut 16 8), win 0x5C0 64 .slotIn (.slotIn [20, 21] 5 false),
   win 0x600 1024 .camOut (.camOut 1),
   win 0xA00 576 .imgIn (.imgIn { pos := 5, stream := 1, count := 2, size := 256, timeout := 2 }),
   win 0xC40 512 .screenOut (.screen (geometry 6)), win 0xE40 512 .screenIn (.screen (geometry 2)),
   win 0x1040 576 .keys .plain]

/-- The camera channel of the worked crossing (section 8), of the image size of the worked capture (section 9). -/
def cam : CamCfg :=
  { ref := .axis 2, list := [5000000, 8000000, 20000000], pacing := 1, width := 20, minSpeed := 1000000,
    activeLow := false, dest := 6, stream := 1, size := 1024 }

def config : NodeCfg :=
  { NodeCfg.unconfigured with
      lossLimit := 3, allowance := 4, reserve := 1, dApply := 5000, starveUs := 10, required := 0x3, vmax := 33554431,
      vref := 20000000, tqs := 8000, tcs := 40000, stopTimeout := 100, windows := windows,
      classes := setAt (setAt (Vector.replicate 15 .clear) 10 .b) 0 .c, publish := 0x10000,
      tiFilter := Vector.replicate 8 2,
      cams := setAt (Vector.replicate 4 none) 1 (some cam), keys := some { dest := 0, stops := [63] } }

/-- A JOINED member at position 4. -/
def member : State :=
  { State.reset with
      cfg := config, cnu := { Cnu.reset with status := .configured, fcs := false },
      flu := { Flu.reset with
        up := { state := .locked, since := 0 }, down := { state := .locked, since := 0 }, ring := .joined,
        position := some 4, meas := List.replicate 8 3749 ++ List.replicate 8 3751, cycle := 7200,
        expected := 31250 },
      tru := { Tru.reset with hold := false, latch := Vector.replicate 15 none, cond := Vector.replicate 15 false },
      slu := { Slu.reset with publish := setAt (Vector.replicate 128 .unused) 20 .live } }

/-- A master in RUN whose generator runs at 10,000,000. -/
def master : State :=
  { member with
      cfg := { config with master := true },
      flu := { member.flu with
        position := some 0, mstate := .run, originated := true, origCount := 7200, originAt := 0, nextOrigin := 31250 },
      lsu := { member.lsu with gen := { Gen.reset with speed := 10000000, state := .running } } }

/-- A pending entry of the next cycle whose instant has come, with given shaft values. -/
def entry (angle : Word) : PendingEntry :=
  { cycle := 7201, instant := 31250, late := false, mark := false,
    shaft := { angle := angle, rev := 0, speed := 17895697, state := .running } }

/-- The node with that entry pending, 31,250 ticks after its epoch. -/
def withEntry (s : State) (angle : Word) : State :=
  { s with now := 31250, flu := { s.flu with entries := [entry angle] } }

/-- The node with capture shadows. -/
def withShadow (s : State) (m : List (Nat × Word)) : State := { s with ptu := { s.ptu with shadow := m } }

/-- A command word with tag 7. -/
def cmd (code operand : Nat) : Word := packWord [(7, 8), (code, 8), (operand, 16)]

/-- A beat of a whole word. -/
def whole (w : Word) : Beat := { be := 15, data := w }

/-! ### Soundness and rest of plain states -/

theorem sound_of_plain {s : State} (mem : s.mem = []) (shadow : Cells.wf s.ptu.shadow = true) (mask : s.cnu.mask = 0)
    (lde : s.lde = Lde.reset) (tx : s.igu.tx = []) (keys : s.ksc.queue = []) : s.Sound := by
  refine ⟨by rw [mem]; rfl, shadow, by rw [mask]; rfl, ?_, by rw [tx]; decide, by rw [keys]; decide⟩
  rw [lde]
  simp [Lde.Sound, Lde.reset]

theorem member_sound : member.Sound := sound_of_plain rfl rfl rfl rfl rfl rfl
theorem member_quiet : member.Quiet := ⟨rfl, rfl, rfl, rfl, rfl⟩
theorem master_sound : master.Sound := sound_of_plain rfl rfl rfl rfl rfl rfl
theorem master_quiet : master.Quiet := ⟨rfl, rfl, rfl, rfl, rfl⟩

theorem served_of_quiet {s : State} (h : s.Quiet) : s.Served := fun _ =>
  ⟨h.2.1, h.2.2.1, by simp [State.cycleWaits, h.2.2.2.1]⟩

/-- The member can write the word at an address of its window table. -/
theorem member_canWrite {wa : Nat} {id : Ident} (h : wa < 2 ^ 24 ∧ member.identOf wa = id) : member.CanWrite wa id :=
  ⟨member_sound, member_quiet, h.1, h.2⟩

theorem master_canWrite {wa : Nat} {id : Ident} (h : wa < 2 ^ 24 ∧ master.identOf wa = id) : master.CanWrite wa id :=
  ⟨master_sound, master_quiet, h.1, h.2⟩

/-! ### Blocks -/

/-- The bytes of a header of cycle 7,201 with D_apply 5,000 (R200). -/
def headBytes (hop : Byte) (l : Nat) : List Byte :=
  beBytes 4 7201 ++ [2, hop] ++ beBytes 2 5000 ++ beBytes 4 l ++ beBytes 4 1000000000 ++ beBytes 2 0 ++
    beBytes 4 17895697 ++ [2] ++ List.replicate 7 0

/-- The bytes of a trip block with all masks empty (R200). -/
def tripBytes (gen : Byte) (presence ready : Word) : List Byte :=
  List.replicate 21 0 ++ [gen] ++ beBytes 4 presence.toNat ++ beBytes 4 ready.toNat

/-- A block's bytes with its check. -/
def good (bs : List Byte) : List Byte := bs ++ crcBytes (crc16 bs)

/-- Slot 20 tagged. -/
def tagBytes : List Byte := [0, 0, 0x10] ++ List.replicate 13 0

/-- Four words of slot data. -/
def image : SlotImage := #v[200, 1, 2, 8]

/-- A cell for position 4. -/
def cellBytes (kind source stream : Nat) (index len : Nat) (payload : List Byte) : List Byte :=
  beBytes 1 kind ++ beBytes 1 source ++ [4] ++ beBytes 1 stream ++ beBytes 2 41 ++ beBytes 2 index ++ beBytes 2 len ++
    List.replicate 6 0 ++ payload ++ List.replicate (256 - payload.length) 0

/-- The member with a frame in passage on the out-run, of kind RUN with a good header. -/
def outAt (stage : Stage) : State :=
  { member with flu := { member.flu with
      out := { Passage.started 100 true with stage := stage, good := decide (stage ≠ .header), run := true } } }

/-- A node with a frame in passage on the return run. -/
def retAt (s : State) (stage : Stage) : State :=
  { s with flu := { s.flu with
      ret := { Passage.started 4000 true with stage := stage, good := decide (stage ≠ .header), isMatched := s.isMaster } } }

/-- An Image Unit with one fragment queued. -/
def capturing0 : Igu :=
  { Igu.reset with
    tx := [{ head := true, last := false, dest := 6, stream := 1, imgNo := 0, index := 0, payload := List.replicate 32 0 }] }

/-! ### Steps against the manual -/

/-- The catalogued check values of the two CRCs for the digits 1 to 9. -/
theorem test_crc16_check : crc16 [0x31, 0x32, 0x33, 0x34, 0x35, 0x36, 0x37, 0x38, 0x39] = 0x29B1#16 := by decide +kernel
theorem test_crc32_check : crc32 [0x31, 0x32, 0x33, 0x34, 0x35, 0x36, 0x37, 0x38, 0x39] = 0x0376E6E7#32 := by
  decide +kernel

/-- The lock interval is 1 ms (R2). -/
theorem test_lock_early : (after (.lockIntervalExpiry 124999 .upstream)
    { State.reset with flu := { Flu.reset with up := { state := .locking, since := 0 } } }).flu.up.state = .locking := by
  decide +kernel
theorem test_lock_due : (after (.lockIntervalExpiry 125000 .upstream)
    { State.reset with flu := { Flu.reset with up := { state := .locking, since := 0 } } }).flu.up.state = .locked := by
  decide +kernel

/-- Section 1, delay and apply instant: d_k is 525 and the instant is t_f + 4,475. -/
theorem test_header_delay :
    (let t := after (.outRunHeader 0 (sealed (headBytes 3 4800))) (outAt .header)
     (t.flu.dk, t.flu.entries.map PendingEntry.instant, t.flu.entries.map PendingEntry.late)) =
      (525, [100 + 4475], [false]) := by decide +kernel
/-- The same example's far node: L is 10,000 and R_avg 200, so it applies at t_f + 250, late. -/
theorem test_header_late :
    (let s := { outAt .header with flu := { (outAt .header).flu with meas := List.replicate 16 200 } }
     let t := after (.outRunHeader 0 (sealed (headBytes 3 10000))) s
     (t.flu.dk, t.flu.entries.map PendingEntry.instant, t.flu.entries.map PendingEntry.late)) =
      (4900, [100 + 250], [true]) := by decide +kernel
/-- Hop 3 is forwarded as hop 4 (section 1, a member loses and regains the line). -/
theorem test_header_hop :
    (after (.outRunHeader 0 (sealed (headBytes 3 4800))) (outAt .header)).flu.txDown.header = sealed (headBytes 4 4800) := by
  decide +kernel
/-- A node whose position changed leaves JOINED (R11). -/
theorem test_header_moved :
    (after (.outRunHeader 0 (sealed (headBytes 5 4800))) (outAt .header)).flu.ring = .seeking := by decide +kernel

/-- Presence and ready bits of position 4 (R12). -/
theorem test_trip_marks :
    (after (.outRunTripBlock 0 (sealed (tripBytes 0 1 1))) (outAt .trip)).flu.txDown.trip = sealed (tripBytes 0 0x11 0x11) := by
  decide +kernel

/-- Slot 20 is tagged as it is inserted (section 6, a commit meets the frame). -/
theorem test_insert_tag :
    (after (.insertionDecision 0 (sealed (List.replicate 16 0)) []) (outAt .tags)).flu.txDown.tags = sealed tagBytes := by
  decide +kernel
/-- A tag that arrived set is a conflict: flag 3 (R115). -/
theorem test_insert_conflict :
    (let t := after (.insertionDecision 0 (sealed tagBytes) []) (outAt .tags)
     (t.slu.conflicts.getLsbD 20, t.cnu.flags)) = (true, 0x8) := by decide +kernel

/-- A forwarding member's round trip is the arrival plus 96 less the t_f of its cycle, whatever header came since, and is
measured once (R19). -/
theorem test_return_measure :
    (let t := after (.returnHeader 0 (.arrived (sealed (headBytes 9 0))))
       (retAt { member with flu := { member.flu with tf := [(7201, 350), (7202, 3900)], meas := [] } } .header)
     (t.flu.meas, t.flu.tf)) = ([4000 + 96 - 350], [(7202, 3900)]) := by decide +kernel
/-- The return of cycle 0, at which the count has wrapped, is matched like any other (R17). -/
theorem test_return_cycle_zero :
    (({ master with flu := { master.flu with origCount := 0 } } : State).matchReturn 0).flu.returnSeen = true := by
  decide +kernel
/-- The earliest source against every one below it: of cycles 0, 3,000,000,000 and 1,500,000,000, source 1's (R93). -/
theorem test_first_source :
    ({ member with tru := { member.tru with
      latch := setAt (setAt (setAt member.tru.latch 0 (some ⟨0, 0⟩)) 1 (some ⟨3000000000, 0⟩)) 2 (some ⟨1500000000, 0⟩) }
      } : State).firstSource = some (1, ⟨3000000000, 0⟩) := by decide +kernel
/-- The master's later cells take what has come since: a fragment leaves in its second cell (R129). -/
theorem test_master_cells :
    (let s : State := { master with flu := { master.flu with out := Passage.own 0 true 7200 } }
     let t := after (.cellDecision 0 []) s
     (after (.cellDecision 0 []) { t with igu := capturing0 }).flu.txDown.cells.map readsEmpty) = [true, false] := by
  decide +kernel
/-- A SETUP frame, of kind code 1, shows V = 0 and STANDSTILL, code 0, also over a generator that class A has made COASTED,
and so does the entry of the master's own epoch; a RUN frame carries what the generator holds (R16, R56, R200; log 50). -/
theorem test_setup_header_standstill :
    (let shown := fun (m : MasterState) (g : Gen) =>
       let t := after (.origination 31250)
         { master with flu := { master.flu with mstate := m }, lsu := { master.lsu with gen := g } }
       let bs := (goodBytes 32 t.flu.txDown.header).getD []
       ((field bs 4 1, field bs 18 4, field bs 22 1), t.flu.entries.map fun e => (e.shaft.speed, e.shaft.state))
     [shown .setup { Gen.reset with state := .coasted }, shown .run { Gen.reset with state := .coasted },
      shown .run master.lsu.gen]) =
      [((1, 0, 0), [(0, .standstill)]), ((2, 0, 5), [(0, .coasted)]), ((2, 10000000, 2), [(10000000, .running)])] := by
  decide +kernel
/-- The 16th ready return takes the master to RUN (R16). -/
theorem test_passage_to_run :
    (after (.passageToRun 0 (sealed (tripBytes 0 3 3)))
      (retAt { master with flu := { master.flu with mstate := .setup, runUp := 15 } } .trip)).flu.mstate = .run := by
  decide +kernel

/-- A slot from position 2 is received by its entry, with data word 0 as fresh value (R70, R120). -/
theorem test_slot_received :
    (let t := after (.slotReception 0 20 (.arrived (sealed tagBytes) (buildSlot 2 image))) (retAt member .slots)
     (t.slu.entries[(0 : Fin 8)][(0 : Fin 8)].publisher, t.axu.fresh[(20 : Fin 128)])) = (some 2, some 200) := by
  decide +kernel

/-- Section 3, worked ramp and hold: steps 1, 4,000 and 8,000 of the ramp. -/
theorem test_ramp_steps :
    [1, 4000, 8000].map (fun k => ({ v0 := 10000000, vt := 17895697, n := 8000, k := k, cls := .clear } : Ramp).speed) =
      [10000986, 13947848, 17895697] := by decide +kernel
/-- The same, taken as a command; its result is ACCEPTED with tag 7 (R51). -/
theorem test_set_target :
    (let r := ({ master with ptu := { master.ptu with
         shadow := [(64, cmd 1 0), (65, 17895697), (66, 8000)], shaftPending := true } } : State).generatorEpoch
     (r.1.lsu.gen.speed, r.1.lsu.gen.state, r.2.map Prod.snd)) = (10000986, .ramping, some 0x107) := by decide +kernel
/-- A target of 40,000,000 is clamped (the same example). -/
theorem test_set_target_clamped :
    (Gen.setTarget { Gen.reset with state := .running } config .clear true 40000000 8000).1 = .clamped := by decide +kernel

/-- Section 3, worked stop and escalation: both stop lengths, the first step, and the escalation. -/
theorem test_stop_lengths : (stopLength config 17895697 .c, stopLength config 17895697 .b) = (35792, 7159) := by
  decide +kernel
theorem test_stop_first_step :
    (({ Gen.reset with speed := 17895697, state := .running }.react config .c).stepSpeed).speed = 17895198 := by
  decide +kernel
theorem test_stop_escalates :
    (let g : Gen := { Gen.reset with
       speed := 17395706, state := .stopping, ramp := some { v0 := 17895697, vt := 0, n := 35792, k := 1000, cls := .c } }
     ((g.react config .b).stepSpeed.speed, (g.react config .b).ramp.map Ramp.n)) = (17393207, some 6959) := by
  decide +kernel

/-- Section 3, a member stops on its own: cycles 7,204 and 7,205. -/
theorem test_local_stop :
    (let x := ({ Shadow.reset with angle := 1053687091, speed := 17895697, state := .running } : Shadow).synthesize config .b
     let y := x.synthesize config .b
     [(x.speed, x.angle), (y.speed, y.angle)]) = [(17893198, 1071580289), (17890698, 1089470987)] := by decide +kernel

/-- The axis of section 4's worked cases. -/
def workedAxis : Axis :=
  { Axis.reset with
      state := .engaged, ref := some 0, n := 3, d := 7, theta := 4290000000, r := 5, o := 1000,
      ot := BitVec.ofInt 32 (-2500), lslew := 1200 }

/-- The view of a moved shaft, nothing acting. -/
def view (shadow : Word) : AxisView :=
  { shadow := shadow, acting := .clear, resync := false, fresh := Vector.replicate 128 none,
    subscribed := Vector.replicate 128 false }

/-- Section 4, one engaged epoch. -/
theorem test_engaged_epoch :
    (let a := workedAxis.move (view 17895697)
     (a.q, a.r, a.theta, a.rev, a.o, a.s)) = (7669585, 1, 2702289, 1, BitVec.ofInt 32 (-200), 2702089) := by decide +kernel
/-- A negative increment keeps the remainder non-negative (the same case). -/
theorem test_negative_increment :
    (let a := workedAxis.move (view (BitVec.ofInt 32 (-10)))
     (a.q, a.r)) = (-4, 3) := by decide +kernel

/-- The member with that axis after its epoch, as axes 0 and 2. -/
def geared : State :=
  { member with axu := { member.axu with
      axes := setAt (setAt member.axu.axes 0 (workedAxis.move (view 17895697))) 2 (workedAxis.move (view 17895697)) } }

/-- Section 4, live angle: a read at phase 64 of the word at offset 0x14. -/
theorem test_live_angle : (after (.pPortCycle 7813 false 0x85 [whole 0]) geared).ptu.readData = [4619485] := by
  decide +kernel
theorem test_live_angle_end : (after (.pPortCycle 31250 false 0x85 [whole 0]) geared).ptu.readData = [10341714] := by
  decide +kernel

/-- Section 8, one crossing: entry 0 fires at phase 76, entry 1 is skipped, the pointer is at entry 2. -/
theorem test_crossing :
    (let c := (geared.channelEpoch false 1).cmu.ch[(1 : Fin 4)]
     (c.sched, c.skipped, c.pointer)) = (some 76, true, 2) := by decide +kernel
/-- The firing waits for phase 76, at 9,278 ticks, and then counts. -/
theorem test_firing :
    [9277, 9278].map (fun dt => (after (.firing dt 1) { member with cmu := { ch := modAt member.cmu.ch 1 fun c =>
      { c with sched := some 76 } } }).cmu.ch[(1 : Fin 4)].count) = [0, 1] := by decide +kernel

/-- Section 9, capture: the start of image 41 with 62 fragments queued, at offset 0 of the CAM-OUT window. -/
def capturing : State :=
  { member with igu := { member.igu with
      tx := List.replicate 62 { head := true, last := false, dest := 0, stream := 0, imgNo := 0, index := 0, payload := [] },
      cap := modAt member.igu.cap 1 fun c => { c with imgNo := 40 } } }

theorem test_image_start :
    (let t := after (.camOutBeat 0 0x180 (whole 0x04030201)) capturing
     (t.igu.cap[(1 : Fin 4)], t.igu.tx.length)) =
      ({ state := .capturing, e := 4, imgNo := 41, area := [1, 2, 3, 4] }, 63) := by decide +kernel
/-- A jump forward is a sequence break with flag 8 (R154). -/
theorem test_sequence_break :
    (let t := after (.camOutBeat 0 0x182 (whole 0)) (after (.camOutBeat 0 0x180 (whole 0)) capturing)
     (t.igu.cap[(1 : Fin 4)].state, t.cnu.flags)) = (.skipping, 0x100) := by decide +kernel

/-- Section 6, a commit meets the frame: word 3 written after words 0 to 2. -/
theorem test_commit :
    (after (.commit 0 0x153 (whole 8)) (withShadow member [(0x150, 200), (0x151, 1), (0x152, 2), (0x153, 7)])
      ).slu.committed[(20 : Fin 128)] = image := by decide +kernel
theorem test_withdraw :
    (after (.withdraw 0 0x160 (whole 20)) member).slu.publish[(20 : Fin 128)] = .withdrawn := by decide +kernel

/-- A release of a buffer that the processor does not hold is an error (R167). -/
theorem test_release_error : (after (.release 0 0x307 (whole 0)) member).igu.streams[(0 : Fin 4)].relErr = 1 := by
  decide +kernel

/-- A blocked write: flag 4, the latch, and memory as it was (R33). -/
theorem test_blocked_write :
    (let t := after (.blockedWrite 0 0x44 (whole 1)) member
     (t.cnu.flags, t.ptu.latch, t.mem)) =
      (0x10, some { addr := 0x44, be := 15, kind := .shaft, further := false }, []) := by decide +kernel

/-- A byte-enabled write to a parameter word (R26, R30). -/
theorem test_register_write :
    (let t := after (.registerWrite 0 0x41 { be := 5, data := 0x44332211 }) member
     (t.mem, t.ptu.shadow)) = ([(0x104, 0x11), (0x106, 0x33)], [(0x41, 0x330011)]) := by decide +kernel

/-- A trip request for class B latches source 8, and B acts (R92, R94). -/
theorem test_trip_request :
    (let t := after (.tripRequest 0 (whole (cmd 1 2))) member
     (t.tru.class8, t.tru.acting, (t.tru.latch[(8 : Fin 15)]).isSome)) = (.b, .b, true) := by decide +kernel
/-- Lines requested active while forced: REFUSED-TRIPPED, code 4 (R101, R199). -/
theorem test_enable_refused :
    (after (.enableRequest 0 (whole (cmd 1 15))) { member with tru := { member.tru with hold := true } }).lde.normal.map
      NormalEntry.runs = [[{ addr := 0x106, words := [0x407] }]] := by decide +kernel
/-- The reset result carries the next generation (R104). -/
theorem test_reset_request :
    (after (.resetRequest 0 (whole (cmd 1 0))) master).lde.normal.map NormalEntry.runs =
      [[{ addr := 0x105, words := [0x10107] }]] := by decide +kernel

/-- Bit 0 of the mask stays clear (R193). -/
theorem test_notice_mask : (after (.noticeMask 0 (whole 0xFFFFFFFF)) member).cnu.mask = 0xFFFE := by decide +kernel
/-- Only enabled bytes clear (R195). -/
theorem test_notice_clear :
    (after (.noticeClear 0 { be := 2, data := 0xFFFFFFFF }) { member with cnu := { member.cnu with flags := 0x1234 } }
      ).cnu.flags = 0x34 := by decide +kernel

/-- A filter of 2 units is 245 ticks long (R89). -/
theorem test_filter :
    [244, 245].map (fun dt => (after (.filterExpiry dt 0) (after (.tripInputActive 0 0 true) member)).tru.acting) =
      [.clear, .c] := by decide +kernel

/-- A key is accepted at its second equal reading (R180, R181). -/
theorem test_key_press :
    (let t := after (.keyRowReading 0 1) { member with ksc := { member.ksc with mark := 1 } }
     (t.ksc.debounced, t.ksc.lock, t.ksc.queue.length, t.ksc.row)) = (1, some 0, 1, 1) := by decide +kernel

/-- A beat marks its tile: line 0, byte column 32 is tile 1; its fetch is issued at once (R171, R172). -/
theorem test_screen_beat :
    (let t := after (.screenOutBeat 0 0x318 (whole 0)) { member with scu := { member.scu with
       out := modAt member.scu.out 0 fun o => { o with dirty := 0 } } }
     (t.scu.inFlight, t.lde.normal.length)) = ([(0, 1)], 1) := by decide +kernel

/-- Before configuration every word lies outside every window, and a write reaches memory (R26). -/
theorem test_unconfigured_write :
    (after (.mPortBurstCompletion 0) (after (.pPortCycle 0 true 0x44 [whole 0x0A]) State.reset)).mem = [(0x110, 0x0A)] := by
  decide +kernel

/-- The flash identifier of R188. -/
theorem test_flash_ident :
    (after (.flashHeaderRead 0 (List.replicate 12 0)) State.reset).cnu.status = .noImage := by decide +kernel

/-! ### Witnesses: a state and operands that meet each statement's hypotheses -/

/-- The entry of the node with an entry makes an epoch. -/
theorem due_of {s : State} {a : Word} (h : s.configured = true) (c : s.flu.cycle = 7200) :
    (withEntry s a).HeaderEpochDue 0 (entry a) := by
  refine ⟨h, rfl, Nat.le_refl _, ?_⟩
  show (7201 : Word) ≠ s.flu.cycle
  rw [c]
  decide

/-- The node whose local cycle timer has expired. -/
def silent (s : State) : State := { s with now := 31875 }

theorem synthesized_of {s : State} (h : s.isMember = true) (x : s.flu.expected = 31250) (e : s.flu.entries = []) :
    (silent s).SynthesizedEpochDue 0 := by
  refine ⟨h, ?_, e⟩
  show s.flu.expected + 625 ≤ 31875
  rw [x]

theorem noStale {s : State} (h : s.cfg = config ∨ s.cfg = { config with master := true }) : s.StaleTripsNothing := by
  unfold State.StaleTripsNothing
  rcases h with h | h <;> rw [h] <;> decide +kernel

theorem witness_StepRunsTheFrontCommand :
    ({ member with pending := [.origination 5, .firing 0 1] } : State).pending = .origination 5 :: [.firing 0 1] ∧
      member.pending = [] := ⟨rfl, rfl⟩

theorem witness_EveryWellFormedCommandCompletes :
    (Instr.pPortCycle 0 true 0 [whole 0]).wf = true ∧ (Instr.pPortCycle 0 true 0 []).wf = false := by decide

theorem witness_WellFormedOperandsFitTheirFormats : (Instr.cellDecision 3 (List.replicate 274 (some 0))).wf = true := by
  decide +kernel

theorem witness_EveryStepKeepsTheStateSound : member.Sound ∧ step member = .next (member.elapse 1) := ⟨member_sound, rfl⟩

theorem witness_EveryStepLeavesTheArbiterServed : member.Served ∧ step member = .next (member.elapse 1) :=
  ⟨served_of_quiet member_quiet, rfl⟩

theorem witness_MotionAndConfigurationChangeOnlyThere :
    makesEpoch (.lightLost 0 .upstream) = false ∧
      exec (.lightLost 0 .upstream) member = .next (after (.lightLost 0 .upstream) member) := ⟨rfl, rfl⟩

theorem witness_MemoryChangesOnlyByBursts :
    carriesBurst (.lightLost 0 .upstream) = false ∧
      exec (.lightLost 0 .upstream) member = .next (after (.lightLost 0 .upstream) member) := ⟨rfl, rfl⟩

/-- A master on the last step of a ramp. -/
def ramping (r : Ramp) : State :=
  { master with lsu := { master.lsu with gen := { master.lsu.gen with state := .ramping, ramp := some r } } }

/-- The last step of a ramp up. -/
def lastStep : Ramp := { v0 := 10000000, vt := 17895697, n := 8000, k := 7999, cls := .clear }

theorem witness_EveryStepKeepsSpeedsWithinVmax :
    (ramping lastStep).SpeedsBounded ∧ (ramping lastStep).ResiduesBounded ∧
      step (ramping lastStep) = .next ((ramping lastStep).elapse 1) := by
  refine ⟨⟨by decide +kernel, ?_, ?_, (nomatch ·), by decide +kernel, fun r h => nomatch h⟩,
    fun n => Or.inl ?_, rfl⟩
  · intro r h
    cases h
    exact ⟨by decide +kernel, by decide +kernel, by decide +kernel, by decide +kernel⟩
  · intro _ r h
    cases h
    decide +kernel
  · revert n
    decide +kernel

theorem witness_EveryStepKeepsTheLineUnitBounded :
    member.flu.Bounded ∧ step member = .next (member.elapse 1) := by
  refine ⟨⟨by decide +kernel, by decide +kernel, by decide +kernel, by decide +kernel, by decide +kernel,
    by decide +kernel, by decide +kernel⟩, rfl⟩

/-- The first and the last word of memory, and its last byte. -/
theorem witness_MemoryReadsBackWhatWasWritten :
    Memory.wf [(3, 7)] = true ∧ 0 < 2 ^ 24 ∧ 16777215 < 2 ^ 24 ∧ 67108863 < Memory.size := by decide +kernel

theorem witness_StopLengthFollowsTheReferenceStop :
    1 ≤ config.vref ∧ (TripClass.b = .b ∨ TripClass.b = .c) ∧ 0 < 17895697 ∧
      17895697 * config.tqs ≤ 7159 * config.vref ∧ stopLength config 17895697 .b < 65535 ∧
      (1 ≤ config.tqs ∧ config.tqs ≤ 65535 ∧ 2 ∣ config.vref) ∧
      ({ Gen.reset with speed := 17895697, state := .running } : Gen).state = .running ∧
      (let g : Gen := { Gen.reset with
         speed := 17895697, state := .stopping, ramp := some { v0 := 17895697, vt := 0, n := 35792, k := 0, cls := .c } }
       g.state = .stopping ∧ g.ramp.map Ramp.cls = some .c) := by decide +kernel

theorem witness_SpeedStepFollowsTheRamp :
    (ramping lastStep).lsu.gen.ramp = some lastStep ∧ lastStep.k < lastStep.n ∧ (ramping lastStep).lsu.gen.state = .ramping ∧
      ({ Gen.reset with state := .stopping, ramp := some lastStep } : Gen).state = .stopping ∧
      ({ Gen.reset with state := .held } : Gen).state = .held ∧ Gen.reset.state = .standstill := by decide +kernel

theorem witness_IntegrationAdvancesTheAngle :
    master.lsu.gen.speed < 2 ^ 32 ∧ master.isMaster = true ∧ master.ptu.shaftPending = false := by decide +kernel

theorem witness_GearStepIsExact : workedAxis.state = .engaged ∧ 0 < workedAxis.d := by decide

/-- The member with a mark of class C by position 31. -/
def marked : State := { member with tru := { member.tru with remote := { ClassMasks.empty with c := 0x80000010 } } }

/-- A latched source; a mark by another position, and an acting class that comes of it. -/
theorem witness_ActingClassIsTheMostSevere :
    (Tru.reset.latch[(10 : Fin 15)]).isSome = true ∧
      ((marked.tru.remote.of .c).getLsbD 31 = true ∧ marked.flu.position ≠ some 31) ∧
      marked.recompute.tru.acting ≠ .clear := by decide +kernel

theorem witness_FlashHeaderIsJudgedInOrder :
    State.reset.Served ∧ (List.replicate 12 (0 : Byte)).length = 12 ∧ State.reset.cnu.status = .loading ∧
      State.reset.cnu.flash = none := ⟨served_of_quiet ⟨rfl, rfl, rfl, rfl, rfl⟩, rfl, rfl, rfl⟩

/-- The smallest body: a node without axes, cameras or keys, and one NODE window at address 0 (R202). -/
def body : List Byte :=
  List.replicate 192 0 ++ beBytes 4 1 ++ (beBytes 4 0 ++ beBytes 4 256 ++ [1] ++ List.replicate 3 0) ++
    List.replicate (892 - 208) 0

/-- A body with source 10 of class B, axis 0 configured on the shaft at gear 3 / 7, an AXIS window and a key record (R202). -/
def fullerBody : List Byte :=
  [(36, 2), (57, 1), (58, 0x80), (61, 3), (63, 7), (852, 1)].foldl (fun bs p => bs.set p.1 p.2)
    (List.replicate 192 0 ++ beBytes 4 2 ++ (beBytes 4 0 ++ beBytes 4 256 ++ [1] ++ List.replicate 3 0) ++
      (beBytes 4 256 ++ beBytes 4 512 ++ [3] ++ List.replicate 3 0) ++ List.replicate (924 - 220) 0)

/-- A node that has read a header for a body. -/
def loading (bs : List Byte) (crc : Word) : State :=
  { State.reset with cnu := { Cnu.reset with
      flash := some { ident := 0x53580240, length := BitVec.ofNat 32 bs.length, crc := crc } } }

theorem witness_FlashBodyConfiguresOrIsRejected :
    (loading body (crc32 body)).Served ∧ 64 ≤ body.length ∧ body.length ≤ 32768 ∧
      (loading body (crc32 body)).cnu.status = .loading ∧
      (loading body (crc32 body)).cnu.flash =
        some { ident := 0x53580240, length := BitVec.ofNat 32 body.length, crc := crc32 body } ∧
      body.length = (BitVec.ofNat 32 body.length).toNat ∧ judgeBody body = .inr (parseImage body) ∧
      judgeBody (body.take 64) = .inl .records ∧ crc32 (body.take 64) ≠ 0 :=
  ⟨served_of_quiet ⟨rfl, rfl, rfl, rfl, rfl⟩, by decide +kernel, by decide +kernel, rfl, rfl, by decide +kernel,
    by decide +kernel, by decide +kernel, by decide +kernel⟩

/-- The same with an axis, a key record and a class for source 10. -/
theorem witness_FlashBodyConfiguresOrIsRejected_axis :
    judgeBody fullerBody = .inr (parseImage fullerBody) ∧
      ((parseImage fullerBody).axes[(0 : Fin 8)]).configured = true ∧ ((parseImage fullerBody).only .axis).isSome = true ∧
      (parseImage fullerBody).classes[(10 : Fin 15)] = .b ∧ (parseImage fullerBody).keys.isSome = true := by
  decide +kernel

theorem witness_ReceiverStatesFollowTheTable :
    State.reset.Served ∧ Port.upstream ≠ .downstream ∧ (State.reset.flu.link .downstream).state = .dark ∧
      (({ Flu.reset with down := { state := .locking, since := 0 } } : Flu).link .downstream).state = .locking ∧
      0 + 125000 ≤ State.reset.now + 125000 ∧ (member.flu.link .downstream).state = .locked ∧
      (member.flu.link .upstream).state = .locked ∧ member.isMaster = false ∧ (master.flu.link .upstream).state = .locked ∧
      master.isMaster = true :=
  ⟨served_of_quiet ⟨rfl, rfl, rfl, rfl, rfl⟩, by decide, rfl, rfl, by decide, rfl, rfl, rfl, rfl, rfl⟩

/-- A member whose downstream receiver is LOCKED and whose return watch has run out turns the frame around: the return frame in
its cells is disregarded from there on (R13). -/
theorem test_turning_disregards_the_return :
    let s := retAt { member with flu := { member.flu with returnWatch := 2 } } .cells
    s.flu.ret.used = true ∧ (after (.startSymbol 0 .upstream) s).flu.ret = { s.flu.ret with used := false } := by
  decide +kernel

theorem witness_StartSymbolBeginsAFrame :
    member.Served ∧ member.flu.up.state = .locked ∧ member.isMaster = false ∧ member.flu.down.state = .locked ∧
      member.isMember = true ∧ member.isEndNode = false ∧ member.flu.turning = false ∧
      member.flu.copy.stage = .idle ∧
      ({ member with flu := { member.flu with returnWatch := 2 } } : State).isEndNode = true :=
  ⟨served_of_quiet member_quiet, by decide +kernel⟩

theorem witness_GoodOutRunHeaderIsTaken :
    (sealed (headBytes 3 4800)).length ≤ 32 ∧ (outAt .header).flu.out.stage = .header ∧
      goodBytes 32 (sealed (headBytes 3 4800)) = some (good (headBytes 3 4800)) ∧ (outAt .header).isMember = true ∧
      (outAt .header).flu.entries.length < 3 ∧ goodBytes 32 [] = none ∧ (outAt .header).Served :=
  ⟨by decide +kernel, rfl, by decide +kernel, by decide +kernel, by decide +kernel, by decide +kernel,
    served_of_quiet ⟨rfl, rfl, rfl, rfl, rfl⟩⟩

/-- The member as it was in FOLLOWING. -/
def following (s : State) : State := { s with flu := { s.flu with ring := .following } }

/-- The clauses by ring state: FOLLOWING at the counted position and away from it, SEEKING, and a node that turns frames. -/
theorem witness_GoodOutRunHeaderIsTaken_rings :
    let h := parseHeader (good (headBytes 3 4800))
    (following (outAt .header)).flu.ring = .following ∧ (following (outAt .header)).flu.position = some (h.hop + 1) ∧
      (following (outAt .header)).positionFits (h.hop + 1) = true ∧
      ({ (outAt .header).flu with position := some 9 } : Flu).position ≠ some (h.hop + 1) ∧
      (outAt .header).flu.ring = .joined ∧ (outAt .header).flu.turning = false := by decide +kernel

/-- A RUN header at a JOINED node starts the passage counts at zero; at one that moves it off the line they stay (R128;
log 83). -/
theorem witness_GoodOutRunHeaderIsTaken_claims :
    let s := { outAt .header with cls := { Cls.reset with claimed := 7, messageSent := true, reserveTiles := 2 } }
    let t := after (.outRunHeader 0 (sealed (headBytes 3 4800))) s
    let u := after (.outRunHeader 0 (sealed (headBytes 5 4800))) s
    (parseHeader (good (headBytes 3 4800))).run = true ∧ t.flu.ring = .joined ∧ t.cls = Cls.reset ∧
      u.flu.ring = .seeking ∧ u.cls = s.cls := by decide +kernel

/-- A header that ends JOINED at a node that turns it around counts its 96 ticks, and a return of a waiting cycle counts in
SEEKING (R19; log 38). -/
theorem test_measures_in_seeking :
    (let s := outAt .header
     let t := after (.outRunHeader 3 (sealed (headBytes 9 4800))) { s with flu := { s.flu with turning := true } }
     let u := after (.returnHeader 3 (.arrived (sealed (headBytes 9 0)))) (retAt { member with flu := { member.flu with
       ring := .seeking, meas := [], tf := [(7201, 350)] } } .header)
     (t.flu.ring, t.flu.meas, u.flu.meas)) = (.seeking, [96], [3746]) := by decide +kernel

/-- Three entries pending, the oldest of a new cycle and the next not due; a node that is no member yet; a position that does
not fit. -/
theorem witness_GoodOutRunHeaderIsTaken_three :
    let s := outAt .header
    let three : State := { s with flu := { s.flu with
      entries := [entry 5, { entry 6 with cycle := 7202, instant := 62500 }, { entry 7 with cycle := 7203, instant := 93750 }] } }
    three.isMember = true ∧ three.flu.entries.length = 3 ∧ (entry 5).cycle ≠ three.flu.cycle ∧ three.now + 0 < 62500 ∧
      State.reset.isMember = false ∧ State.reset.Served ∧
      ({ State.reset.flu with out := { State.reset.flu.out with stage := .header } } : Flu).out.stage = .header ∧
      s.positionFits 32 = false :=
  ⟨by decide +kernel, rfl, by decide +kernel, by decide +kernel, by decide +kernel, served_of_quiet ⟨rfl, rfl, rfl, rfl, rfl⟩,
    rfl, by decide +kernel⟩

theorem witness_SixteenMeasurementsJoinTheLine :
    let s := following (outAt .header)
    let bs := good (headBytes 3 4800)
    (sealed (headBytes 3 4800)).length ≤ 32 ∧ s.isMember = true ∧ s.flu.out.stage = .header ∧
      goodBytes 32 (sealed (headBytes 3 4800)) = some bs ∧ s.flu.entries.length < 3 ∧ s.flu.ring = .following ∧
      s.flu.position = some ((parseHeader bs).hop + 1) ∧ s.positionFits ((parseHeader bs).hop + 1) = true ∧
      s.flu.meas.length = 16 ∧ (s.cfg.screenIn 0).isSome = true ∧
      s.cfg.screenOut 0 = some (win 0xC40 512 .screenOut (.screen (geometry 6)), geometry 6) ∧ 1 < (geometry 6).tiles := by
  decide +kernel

/-- A new generation at the member, and the known one; the header good and bad; the three ring states. -/
theorem witness_MembersHandleTheTripBlock :
    (sealed (tripBytes 1 1 1)).length ≤ 32 ∧ (outAt .trip).isMember = true ∧ (outAt .trip).flu.out.stage = .trip ∧
      (outAt .trip).flu.out.good = true ∧
      ({ (outAt .trip).flu.out with good := false } : Passage).stage = .trip ∧
      (parseTrip (good (tripBytes 1 1 1))).gen ≠ (outAt .trip).tru.known ∧
      goodBytes 32 (sealed (tripBytes 0 1 1)) = some (good (tripBytes 0 1 1)) ∧
      (parseTrip (good (tripBytes 0 1 1))).gen = (outAt .trip).tru.known ∧
      ({ following (outAt .trip) with flu := { (outAt .trip).flu with ring := .seeking } } : State).flu.ring = .seeking ∧
      goodBytes 32 (sealed (tripBytes 1 1 1)) = some (good (tripBytes 1 1 1)) ∧
      (outAt .trip).flu.ring = .joined ∧ (following (outAt .trip)).flu.ring = .following ∧ goodBytes 32 [] = none ∧
      (outAt .trip).Served :=
  ⟨by decide +kernel, by decide +kernel, rfl, by decide +kernel, rfl, by decide +kernel, by decide +kernel, by decide +kernel,
    rfl, by decide +kernel, rfl, rfl, by decide +kernel, served_of_quiet ⟨rfl, rfl, rfl, rfl, rfl⟩⟩

/-- The JOINED member, in the power-up hold, with source 10 latched and present and source 0 latched and gone, after a trip
block of a new generation behind a good or a bad header. -/
def tokened (ok : Bool) : State :=
  let s := outAt .trip
  after (.outRunTripBlock 3 (sealed (tripBytes 1 1 1))) { s with
    flu := { s.flu with out := { s.flu.out with good := ok } },
    tru := { s.tru with hold := true, cond := setAt s.tru.cond 10 true,
                        latch := setAt (setAt s.tru.latch 0 (some ⟨7100, 0⟩)) 10 (some ⟨7150, 9⟩) } }

/-- The token resets source 0 and the hold with either header; presence and ready bits need the good one (R6, R105). -/
theorem test_reset_token : ∀ ok : Bool,
    (tokened ok).tru.hold = false ∧ (tokened ok).tru.latch[(0 : Fin 15)] = none ∧
      (tokened ok).tru.latch[(10 : Fin 15)] = some ⟨7150, 9⟩ ∧ (tokened ok).tru.acting = .b ∧
      ((goodBytes 32 (tokened ok).flu.txDown.trip).map fun bs => ((parseTrip bs).presence, (parseTrip bs).ready)) =
        if ok then some (17, 17) else some (1, 1) := by decide +kernel

theorem witness_LiveSlotsAreInserted :
    (Instr.insertionDecision 0 (sealed tagBytes) (List.replicate 128 emptySlot)).wf = true ∧ (outAt .tags).sends = true ∧
      (outAt .tags).flu.out.stage = .tags ∧ goodBytes 18 (sealed tagBytes) = some (good tagBytes) ∧
      (List.replicate 128 emptySlot).length = 128 ∧
      (outAt .tags).slu.publish[(20 : Fin 128)] = .live ∧ tagBit (good tagBytes) 20 = true ∧
      (∀ n : Fin 128, (outAt .tags).slu.publish[n] = .live → tagBit (good tagBytes) n = true) := by decide +kernel

theorem witness_EmptyCellsAreClaimed :
    emptyCell.length ≤ 274 ∧ (outAt .cells).flu.out.stage = .cells ∧ (outAt .cells).flu.out.next < 96 ∧
      (outAt .cells).sends = true ∧ readsEmpty emptyCell = true ∧
      (outAt .cells).cls.claimed < (outAt .cells).cfg.allowance ∧
      (({ outAt .cells with igu := capturing.igu } : State).nextItem).isSome = true ∧
      (outAt .cells).nextItem.isNone = true := by decide +kernel

/-- The fill order: keys queued, a request alone, a tile under the reserve, a fragment with no tile, a tile past the reserve. -/
theorem witness_EmptyCellsAreClaimed_order :
    let tile : TileItem := { screen := 0, dest := 6, number := 0, tile := 1, bytes := [] }
    let keyed : State := { member with ksc := { member.ksc with queue := [{ key := 0, press := true, stamp := ⟨0, 0⟩ }] } }
    let asks : State := { member with cls := { member.cls with requests := [0] } }
    (keyed.cls.messageSent = false ∧ keyed.ksc.queue ≠ [] ∧ keyed.cfg.keys.isSome = true) ∧
      (asks.cls.messageSent = false ∧ asks.ksc.queue = [] ∧ asks.cls.requests = [0] ∧
        (asks.cfg.screenIn 0).isSome = true) ∧
      (member.ksc.queue = [] ∧ member.cls.requests = []) ∧
      (({ member.scu with buffer := [tile] } : Scu).buffer = [tile] ∧ member.cls.reserveTiles < member.cfg.reserve) ∧
      (member.scu.buffer = [] ∧ capturing0.tx.length = 1) ∧
      member.cfg.reserve ≤ ({ member.cls with reserveTiles := 1 } : Cls).reserveTiles ∧ member.igu.tx = [] := by
  decide +kernel

theorem witness_ClaimPassageEndReportsStarvation :
    let s : State := { outAt .cells with flu := { (outAt .cells).flu with out := { (outAt .cells).flu.out with next := 96 } } }
    s.Served ∧ s.flu.out.stage = .cells ∧ s.flu.out.next = 96 := ⟨served_of_quiet ⟨rfl, rfl, rfl, rfl, rfl⟩, rfl, rfl⟩

theorem witness_GoodReturnHeaderMeasuresTheRoundTrip :
    let s := retAt { member with flu := { member.flu with tf := [(7201, 350)] } } .header
    let m := retAt { master with flu := { master.flu with origCount := 7201 } } .header
    let bs := good (headBytes 9 0)
    s.Served ∧ m.Served ∧ (sealed (headBytes 9 0)).length ≤ 32 ∧ goodBytes 32 (sealed (headBytes 9 0)) = some bs ∧
      (s.flu.ret.stage = .header ∧ s.isMember = true ∧ s.flu.ret.used = true ∧
        s.flu.tf.find? (fun p => decide (p.1 = (parseHeader bs).cycle)) = some ((parseHeader bs).cycle, 350)) ∧
      ((retAt member .header).flu.tf.find? (fun p => decide (p.1 = (parseHeader bs).cycle)) = none ∧
        (retAt member .header).flu.ret.used = true) ∧
      (Passage.started 4000 false).used = false ∧
      (m.flu.ret.stage = .header ∧ m.isMaster = true ∧ (parseHeader bs).cycle = m.flu.origCount ∧
        m.flu.originated = true ∧ m.flu.returnSeen = false) ∧
      (parseHeader bs).cycle ≠ (retAt master .header).flu.origCount ∧
      ((retAt State.reset .header).flu.ret.stage = .header ∧ State.reset.isMember = false ∧ State.reset.isMaster = false) :=
  ⟨served_of_quiet ⟨rfl, rfl, rfl, rfl, rfl⟩, served_of_quiet ⟨rfl, rfl, rfl, rfl, rfl⟩, by decide +kernel⟩

/-- A good return header leaves a repeater as it came, and the repeater does not know it as good (R4). -/
theorem test_repeater_checks_nothing :
    (let t := after (.returnHeader 3 (.arrived (sealed (headBytes 9 0)))) (retAt State.reset .header)
     t.flu.ret.good = false ∧ t.flu.ret.stage = .trip ∧ t.flu.txUp.header = sealed (headBytes 9 0)) := by decide +kernel

theorem witness_ReturnTripBlockCarriesTheFirstFault :
    (sealed (tripBytes 1 1 1)).length ≤ 32 ∧ (retAt member .trip).isMember = true ∧
      (retAt member .trip).flu.ret.stage = .trip ∧ (retAt member .trip).flu.ret.used = true ∧
      goodBytes 32 (sealed (tripBytes 1 1 1)) = some (good (tripBytes 1 1 1)) := by decide +kernel

/-- The master in SETUP and in RUN, a ready block and one that is not, and an unmatched frame. -/
theorem witness_ReturnTripBlockCarriesTheFirstFault_master :
    let m := retAt master .trip
    let setup := { m.flu with mstate := .setup, runUp := 14 }
    (m.isMaster = true ∧ m.flu.ret.stage = .trip ∧ m.flu.ret.isMatched = true ∧ m.flu.mstate = .run) ∧
      (setup.mstate = .setup ∧ setup.runUp < 15) ∧
      (parseTrip (good (tripBytes 1 3 3))).presence &&& m.cfg.required = m.cfg.required ∧
      (parseTrip (good (tripBytes 1 1 1))).presence &&& m.cfg.required ≠ m.cfg.required ∧ goodBytes 32 [] = none ∧
      (Passage.started 4000 true).isMatched = false ∧ m.Served :=
  ⟨by decide +kernel, by decide +kernel, by decide +kernel, by decide +kernel, by decide +kernel, rfl,
    served_of_quiet ⟨rfl, rfl, rfl, rfl, rfl⟩⟩

theorem witness_SixteenReadyReturnsPassToRun :
    let s := retAt { master with flu := { master.flu with mstate := .setup, runUp := 15 } } .trip
    let bs := good (tripBytes 1 3 3)
    (sealed (tripBytes 1 3 3)).length ≤ 32 ∧ s.isMaster = true ∧ s.flu.mstate = .setup ∧ s.flu.ret.stage = .trip ∧
      s.flu.ret.good = true ∧ s.flu.ret.isMatched = true ∧ goodBytes 32 (sealed (tripBytes 1 3 3)) = some bs ∧
      (parseTrip bs).presence &&& s.cfg.required = s.cfg.required ∧
      (parseTrip bs).ready &&& s.cfg.required = s.cfg.required ∧ s.flu.runUp = 15 := by decide +kernel

/-- Source 14 is stamped with phase 0, whatever the phase at the trip block (R91). -/
theorem test_missing_node_has_phase_zero :
    let s := retAt { master with flu := { master.flu with absence := setAt (Vector.replicate 32 0) 1 2 } } .trip
    let w := { s with cfg := { s.cfg with classes := setAt s.cfg.classes 14 .b } }
    ((after (.nodeMissing 15625 (sealed (tripBytes 1 1 1))) w).tru.latch[(14 : Fin 15)]).map Stamp.phase = some 0 := by
  decide +kernel

theorem witness_MissingNodesAreCounted :
    let s := retAt { master with flu := { master.flu with absence := setAt (Vector.replicate 32 0) 1 2 } } .trip
    let bs := good (tripBytes 1 1 1)
    (sealed (tripBytes 1 1 1)).length ≤ 32 ∧ s.isMaster = true ∧ s.flu.mstate = .run ∧ s.flu.ret.stage = .trip ∧
      s.flu.ret.good = true ∧ s.flu.ret.isMatched = true ∧ goodBytes 32 (sealed (tripBytes 1 1 1)) = some bs ∧
      s.cfg.required.getLsbD 1 = true ∧ (parseTrip bs).presence.getLsbD 1 = false ∧
      s.flu.absence[(1 : Fin 32)] + 1 = s.cfg.lossLimit ∧ s.cfg.lossLimit ≤ 15 := by decide +kernel

theorem witness_ValidSlotsAreReceived :
    let s := retAt member .slots
    (sealed tagBytes).length ≤ 18 ∧ (buildSlot 2 image).length ≤ 18 ∧ s.isJoined = true ∧ s.flu.ret.stage = .slots ∧
      s.flu.ret.good = true ∧ s.flu.ret.used = true ∧ s.flu.ret.next ≤ 20 ∧
      goodBytes 18 (sealed tagBytes) = some (good tagBytes) ∧ tagBit (good tagBytes) 20 = true ∧
      slotPublisher (buildSlot 2 image) = some (2, imageBytes image) ∧ s.cfg.entrySlot 0 0 = some 20 := by decide +kernel

theorem witness_SlotAreaEndRequestsTheLandings :
    let s : State := { retAt member .slots with slu := { member.slu with
      landing := modAt member.slu.landing 0 (setAt · 0 (some [1, 2, 3, 4, 5])) } }
    (Instr.slotAreaEnd 0 (.arrived (sealed tagBytes) (List.replicate 128 emptySlot))).wf = true ∧ s.Quiet ∧
      s.flu.ret.stage = .slots ∧ s.flu.ret.used = true ∧
      s.cfg.slotIn 0 = some (win 0x5C0 64 .slotIn (.slotIn [20, 21] 5 false), [20, 21], 5, false) ∧
      s.slu.landing[(0 : Fin 8)][(0 : Fin 8)] = some [1, 2, 3, 4, 5] :=
  ⟨by decide +kernel, ⟨rfl, rfl, rfl, rfl, rfl⟩, by decide +kernel⟩

/-- Cells of the five kinds and one of none; the member's stream 1 has image 41 in assembly for the data fragment. -/
theorem witness_DeliveredCellsReachTheirOwners :
    let s := retAt member .cells
    let head := good (cellBytes 1 5 1 0 32 ([0, 41, 0, 0] ++ beBytes 4 256 ++ List.replicate 24 0))
    s.Quiet ∧ s.Served ∧ ([] : Block).length ≤ 274 ∧ s.flu.ret.stage = .cells ∧
      (s.isJoined && s.flu.ret.good && s.flu.ret.used) = true ∧ s.flu.ret.next < 95 ∧ goodBytes 274 [] = none ∧
      goodBytes 274 (head.map some) = some head ∧ (parseCell head).len = 32 ∧ (parseCell head).kind = 1 ∧
      s.flu.position = some (parseCell head).dest ∧ s.streamOf (parseCell head) = some 0 ∧
      (s.cfg.stream 0).isSome = true ∧ s.igu.streams[(0 : Fin 4)].asm = none ∧
      field (receivedHead (parseCell head).payload) 4 4 = 256 ∧
      s.igu.streams[(0 : Fin 4)].own[s.igu.streams[(0 : Fin 4)].next] = .free :=
  ⟨⟨rfl, rfl, rfl, rfl, rfl⟩, served_of_quiet ⟨rfl, rfl, rfl, rfl, rfl⟩, by decide +kernel⟩

/-- Cells that are only passed on: for another position, of length 0 and above 256, of no kind and of kind 6, and any in a
frame that is no delivery passage. Cell 95 ends the passage, and the member's frame has it. -/
theorem witness_DeliveredCellsReachTheirOwners_stays :
    let s := retAt member .cells
    let at95 : State := { s with flu := { s.flu with ret := { s.flu.ret with next := 95 } } }
    let cell := fun kind len => parseCell (good (cellBytes kind 5 1 0 len []))
    s.flu.position ≠ some (parseCell (good ([1, 5, 9, 1, 0, 41, 0, 0, 1, 0] ++ List.replicate 262 0))).dest ∧
      (cell 1 0).len = 0 ∧ 256 < (cell 1 257).len ∧ (cell 0 4).kind = 0 ∧ 5 < (cell 6 4).kind ∧
      (let f := following s
       (f.isJoined && f.flu.ret.good && f.flu.ret.used) = false) ∧
      at95.flu.ret.stage = .cells ∧ ¬at95.flu.ret.next < 95 ∧
      (let t := after (.cellDelivery 3 (.arrived emptyCell)) at95
       (t.flu.ret.stage, t.flu.txUp.cells)) = (Passage.idle.stage, [emptyCell]) := by decide +kernel

theorem witness_DeliveredCellsReachTheirOwners_data :
    let a : Assembly := { imgNo := 41, buffer := 0, landed := 1, last := 0, broken := false,
                          info := { stamp := { cycle := 0, phase := 0 }, ref := 0, count := 0, noExposure := true,
                                    overrun := false } }
    let s : State := { retAt member .cells with igu := { member.igu with
      streams := modAt member.igu.streams 0 fun x => { x with asm := some a } } }
    let data := good (cellBytes 2 5 1 1 256 (List.replicate 256 9))
    s.Quiet ∧ goodBytes 274 (data.map some) = some data ∧ (parseCell data).kind = 2 ∧
      s.streamOf (parseCell data) = some 0 ∧ s.igu.streams[(0 : Fin 4)].asm = some a ∧ a.imgNo = (parseCell data).imgNo ∧
      a.last < (parseCell data).index ∧ (parseCell data).index ≤ 256 / 256 ∧ (parseCell data).len = 256 ∧
      a.landed + 1 ≠ 256 / 256 := ⟨⟨rfl, rfl, rfl, rfl, rfl⟩, by decide +kernel⟩

theorem witness_DeliveredCellsReachTheirOwners_others :
    let s := retAt member .cells
    let tile := parseCell (good (cellBytes 3 2 0 1 256 (List.replicate 256 9)))
    let keys := parseCell (good (cellBytes 4 7 0 0 8 (List.replicate 8 1)))
    let ask := parseCell (good (cellBytes 5 6 0 0 4 [0, 0, 0, 0]))
    let none0 := parseCell (good (cellBytes 0 6 0 0 4 [0, 0, 0, 0]))
    (tile.kind = 3 ∧ tile.index < (geometry 2).tiles ∧ tile.len = 256 ∧ tile.source = 2 ∧ tile.stream = 0 ∧
      s.cfg.screenIn 0 = some (win 0xE40 512 .screenIn (.screen (geometry 2)), geometry 2) ∧ s.cfg.screenIn 1 = none) ∧
    (keys.kind = 4 ∧ (s.cfg.only .keys).isSome = true ∧ keys.len % 8 = 0 ∧ keys.len ≤ 128) ∧
    (ask.kind = 5 ∧ ask.source = 6 ∧ ask.stream = 0 ∧
      s.cfg.screenOut 0 = some (win 0xC40 512 .screenOut (.screen (geometry 6)), geometry 6) ∧
      s.cfg.screenOut 1 = none ∧ 1 < (geometry 6).tiles) ∧ none0.kind = 0 := by decide +kernel

/-- A dirty tile is fetched at a refresh that selects an outgoing screen, not at one of incoming screens alone (R172). -/
theorem test_refresh_tries_fetches :
    [0x1, 0x4].map (fun sel => (State.refreshScreens { member with scu := { member.scu with
      out := modAt member.scu.out 0 fun o => { o with dirty := 1 } } } sel).scu.inFlight.isEmpty) = [false, true] := by decide +kernel

/-- The member with its own copy in passage. -/
def copyAt (stage : Stage) : State :=
  { member with flu := { member.flu with
      copy := { Passage.started 100 true with stage := stage, good := true },
      txDown := { TxFrame.started 196 with
        header := sealed (headBytes 4 4800), trip := sealed (tripBytes 1 1 1), tags := sealed tagBytes,
        slots := List.replicate 20 emptySlot ++ [buildSlot 2 image], cells := [emptyCell] } } }

theorem witness_TurnedAroundCopiesAreReturns :
    (copyAt .header).Served ∧ (copyAt .header).flu.copy.stage = .header ∧ (copyAt .header).flu.txDown.header ≠ [] ∧
      (copyAt .trip).flu.txDown.trip ≠ [] ∧
      goodBytes 32 (copyAt .trip).flu.txDown.trip = some (good (tripBytes 1 1 1)) ∧ (copyAt .slots).isJoined = true ∧
      (copyAt .slots).flu.copy.good = true ∧ (copyAt .slots).flu.copy.used = true ∧
      (copyAt .slots).flu.copy.next ≤ 20 ∧ goodBytes 18 (copyAt .slots).flu.txDown.tags = some (good tagBytes) ∧
      tagBit (good tagBytes) 20 = true ∧ (copyAt .slots).flu.txDown.slots[20]? = some (buildSlot 2 image) ∧
      slotPublisher (buildSlot 2 image) = some (2, imageBytes image) ∧
      (copyAt .slots).cfg.entrySlot 0 0 = some 20 ∧ (copyAt .cells).flu.copy.next < 95 ∧
      (List.replicate 96 emptyCell)[95]? = some emptyCell ∧ ¬95 < 95 ∧
      (copyAt .cells).flu.txDown.cells[(copyAt .cells).flu.copy.next]? = some emptyCell :=
  ⟨served_of_quiet ⟨rfl, rfl, rfl, rfl, rfl⟩, by decide +kernel⟩

theorem witness_OriginationSendsAFrame :
    let m : State := { master with flu := { master.flu with returnMiss := 2 } }
    m.isMaster = true ∧ m.flu.nextOrigin ≤ m.now + 31250 ∧ m.flu.entries.length < 3 ∧ m.flu.originated = true ∧
      m.flu.returnSeen = false ∧ m.tru.cond[(10 : Fin 15)] = false ∧ m.cfg.classes[(10 : Fin 15)] ≠ .clear ∧ m.flu.returnMiss + 1 = m.cfg.lossLimit ∧ m.cfg.lossLimit ≤ 15 := by decide +kernel

/-- The same in SETUP, with a generator that class A has made COASTED. -/
theorem witness_OriginationSendsAFrame_setup :
    let m : State := { master with
      flu := { master.flu with mstate := .setup }, lsu := { master.lsu with gen := { Gen.reset with state := .coasted } } }
    m.isMaster = true ∧ m.flu.nextOrigin ≤ m.now + 31250 ∧ m.flu.entries.length < 3 ∧ m.flu.mstate = .setup ∧
      m.lsu.gen.state ≠ .standstill := by decide +kernel

theorem witness_EpochFromAHeader :
    (withEntry member 5).HeaderEpochDue 0 (entry 5) ∧
      (let s := withEntry { member with flu := { member.flu with cycle := 7201 } } 5
       s.Served ∧ s.configured = true ∧ s.flu.entries = [entry 5] ∧ (entry 5).instant ≤ s.now + 0 ∧
         (entry 5).cycle = s.flu.cycle) :=
  ⟨due_of rfl rfl, served_of_quiet ⟨rfl, rfl, rfl, rfl, rfl⟩, rfl, rfl, Nat.le_refl _, rfl⟩

/-- Axes of every kind at work: 0 and 2 follow the shaft, 1 is IDLE without a fresh value, 3 and 4 receive slot 20, one with a
reference and one without, 5 extrapolates slot 21, 6 loses it, 7 is in HOLD. -/
def atWork : State :=
  let slot := fun (k : Fin 128) (ref : Option Word) (miss : Nat) =>
    { workedAxis with source := .slot k, ref := ref, limit := 2, miss := miss, delta := 5 }
  { member with
      axu := { axes := #v[workedAxis, { slot 21 none 0 with state := .idle }, workedAxis, slot 20 (some 70) 0, slot 20 none 0,
                          slot 21 (some 70) 1, slot 21 (some 70) 2, { workedAxis with state := .hold }],
               fresh := setAt (Vector.replicate 128 none) 20 (some 100) },
      cmu := { ch := modAt member.cmu.ch 1 fun c => { c with seek := false } } }

/-- Every clause of `Axis.Advances` meets an axis, without class A and under it, without a mark and with one; source 11 has no
class, and source 12 none. -/
theorem witness_EpochFromAHeader_axes :
    (withEntry atWork 17895697).HeaderEpochDue 0 (entry 17895697) ∧ (withEntry atWork 17895697).StaleTripsNothing ∧
      atWork.cfg.classes[(11 : Fin 15)] = .clear ∧ (∀ n : Fin 8, atWork.axisCommand n = none) ∧ atWork.tru.acting ≠ .a ∧
      (let x := fun n : Fin 8 => (atWork.axu.axes[n].state, atWork.axu.axes[n].source, atWork.axu.axes[n].ref)
       [x 0, x 1, x 3, x 4, x 5, x 6, x 7] =
         [(.engaged, .shaft, some 0), (.idle, .slot 21, none), (.engaged, .slot 20, some 70), (.engaged, .slot 20, none),
          (.engaged, .slot 21, some 70), (.engaged, .slot 21, some 70), (.hold, .shaft, some 0)]) ∧
      atWork.axu.fresh[(20 : Fin 128)] = some 100 ∧ atWork.axu.fresh[(21 : Fin 128)] = none ∧
      (atWork.axu.axes[(5 : Fin 8)].miss < atWork.axu.axes[(5 : Fin 8)].limit) ∧
      (atWork.axu.axes[(6 : Fin 8)].limit ≤ atWork.axu.axes[(6 : Fin 8)].miss) ∧
      (0 < workedAxis.d) ∧ member.axu.axes[(0 : Fin 8)].state = .off ∧
      ({ atWork.tru with acting := .a } : Tru).acting = .a ∧
      ({ atWork.flu with resyncArmed := true } : Flu).resyncArmed = true :=
  ⟨due_of rfl rfl, noStale (.inl rfl), by decide +kernel⟩

/-- The premises of `State.ChannelsAdvance` at the worked crossing of section 8, in each of the open orders: channel 1 tests, at
its pointer, and its next entry is crossed too; without the shaft's step it does not test. Channel 0 is not configured. -/
theorem witness_EpochFromAHeader_channels : ∀ a b c d : Bool,
    let run := fun angle => State.epochIn atWork a b c d (some (entry angle).shaft) false false
    let r := (run 17895697).reference cam.ref
    let away := fun i => (cam.list.getD i 0 - r.1).toNat
    atWork.cfg.cams[(1 : Fin 4)] = some cam ∧ atWork.cfg.cams[(0 : Fin 4)] = none ∧ 0 < r.2 ∧ (cam.minSpeed : Int) ≤ r.2 ∧
      atWork.tru.acting.stops = false ∧ atWork.isJoined = true ∧ atWork.cmu.ch[(1 : Fin 4)].seek = false ∧
      (away 0 : Int) < r.2 ∧ 1 < cam.list.length ∧ (away 1 : Int) < r.2 ∧ ¬0 < ((run 0).reference cam.ref).2 ∧
      ((run 17895697).cmu.ch[(1 : Fin 4)].sched, (run 17895697).cmu.ch[(1 : Fin 4)].skipped,
        (run 17895697).cmu.ch[(1 : Fin 4)].pointer) = (some 76, true, 2) := by decide +kernel

theorem witness_TimerMakesASynthesizedEpoch :
    (silent member).Served ∧ (silent member).SynthesizedEpochDue 0 ∧ (silent member).losesRing = false ∧
      (let s : State := { silent member with flu := { member.flu with entries := [{ entry 5 with instant := 99999 }] } }
       s.isMember = true ∧ s.flu.expected + 625 ≤ s.now + 0 ∧ s.nextPending = true) :=
  ⟨served_of_quiet ⟨rfl, rfl, rfl, rfl, rfl⟩, synthesized_of rfl rfl rfl, by decide +kernel⟩

/-- The axes at work at a synthesized epoch, the shadow moving on by its speed. -/
theorem witness_TimerMakesASynthesizedEpoch_axes :
    (silent atWork).Served ∧ (silent atWork).SynthesizedEpochDue 0 ∧ (silent atWork).losesRing = false ∧
      (silent atWork).StaleTripsNothing ∧ (silent atWork).cfg.classes[(11 : Fin 15)] = .clear ∧
      (∀ n : Fin 8, (silent atWork).axisCommand n = none) :=
  ⟨served_of_quiet ⟨rfl, rfl, rfl, rfl, rfl⟩, synthesized_of rfl rfl rfl, by decide +kernel, noStale (.inl rfl),
    by decide +kernel⟩

/-- A shadow at speed, one at rest, one in a stop ramp of class C, and one that coasts: under each class they meet. -/
theorem witness_TimerMakesASynthesizedEpoch_shadow :
    (silent member).StaleTripsNothing ∧
      (let x : Shadow := { Shadow.reset with speed := 17895697, state := .running }
       x.ramp = none ∧ 0 < x.speed ∧ ¬(x.state = .coasted ∧ x.localStop = true)) ∧
      (Shadow.reset.ramp = none ∧ Shadow.reset.speed = 0) ∧
      (let r : Ramp := { v0 := 17895697, vt := 0, n := 35792, k := 1, cls := .c }
       let x : Shadow := { Shadow.reset with speed := 17895198, state := .stopping, localStop := true, ramp := some r }
       x.ramp = some r ∧ r.cls = .c ∧ ¬(x.state = .coasted ∧ x.localStop = true)) ∧
      (let x : Shadow := { Shadow.reset with state := .coasted, localStop := true }
       x.ramp = none ∧ x.state = .coasted ∧ x.localStop = true) :=
  ⟨noStale (.inl rfl), by decide +kernel⟩

/-- The member after two silent epochs. -/
def twice (ring : RingState) : State := { member with flu := { member.flu with miss := 2, ring := ring, returnWatch := 1 } }

theorem witness_SilentEpochsLoseTheRingOrTheReturn :
    (silent (twice .joined)).SynthesizedEpochDue 0 ∧ (silent (twice .following)).SynthesizedEpochDue 0 ∧
      (twice .joined).flu.ring ≠ .seeking ∧ (twice .joined).flu.miss + 1 = (twice .joined).cfg.lossLimit ∧
      (twice .joined).cfg.lossLimit ≤ 15 ∧ (withEntry (twice .joined) 5).HeaderEpochDue 0 (entry 5) ∧
      (twice .joined).isMember = true ∧ (twice .joined).flu.down.state ≠ .dark ∧ (twice .joined).flu.returnWatch = 1 ∧
      (twice .joined).flu.goodReturn = false :=
  ⟨synthesized_of rfl rfl rfl, synthesized_of rfl rfl rfl, by decide +kernel, by decide +kernel, by decide +kernel,
    due_of rfl rfl, by decide +kernel⟩

/-- The last step of a stop ramp. -/
def lastStop : Ramp := { v0 := 100, vt := 0, n := 10, k := 9, cls := .b }

/-- A master in its last stop step, and a member in the last step of its local stop. -/
def stopping : State :=
  { master with
      tru := { master.tru with acting := .b },
      lsu := { gen := { Gen.reset with speed := 10, state := .stopping, ramp := some lastStop }, shadow := Shadow.reset } }

def stoppingLocally : State :=
  { member with
      tru := { member.tru with acting := .b },
      lsu := { gen := Gen.reset,
               shadow := { Shadow.reset with speed := 10, state := .stopping, localStop := true, ramp := some lastStop } } }

theorem witness_RampsEndAtTheirTargets :
    (withEntry (ramping lastStep) 0).StaleTripsNothing ∧
      (withEntry (ramping lastStep) 0).HeaderEpochDue 0 (entry 0) ∧ (ramping lastStep).isMaster = true ∧
      (ramping lastStep).ptu.shaftPending = false ∧ (ramping lastStep).lsu.gen.ramp = some lastStep ∧
      (ramping lastStep).tru.acting = .clear ∧ (ramping lastStep).lsu.gen.state = .ramping ∧ lastStep.cls = .clear ∧
      lastStep.k + 1 = lastStep.n :=
  ⟨noStale (.inr rfl), due_of rfl rfl, by decide +kernel⟩

theorem witness_RampsEndAtTheirTargets_stop :
    (withEntry stopping 0).StaleTripsNothing ∧ (withEntry stopping 0).HeaderEpochDue 0 (entry 0) ∧
      stopping.isMaster = true ∧ stopping.ptu.shaftPending = false ∧ stopping.lsu.gen.ramp = some lastStop ∧
      stopping.tru.acting = lastStop.cls ∧ (lastStop.cls = .b ∨ lastStop.cls = .c) ∧
      stopping.lsu.gen.state = .stopping ∧ 0 < stopping.lsu.gen.speed ∧
      ({ lastStop with k := lastStop.k + 1 } : Ramp).speed = 0 :=
  ⟨noStale (.inr rfl), due_of rfl rfl, by decide +kernel⟩

theorem witness_RampsEndAtTheirTargets_local :
    (silent stoppingLocally).StaleTripsNothing ∧ (silent stoppingLocally).SynthesizedEpochDue 0 ∧
      (silent stoppingLocally).losesRing = false ∧ stoppingLocally.tru.acting = lastStop.cls ∧
      (lastStop.cls = .b ∨ lastStop.cls = .c) ∧ stoppingLocally.lsu.shadow.ramp = some lastStop ∧
      0 < stoppingLocally.lsu.shadow.speed ∧ stoppingLocally.lsu.shadow.localStop = true ∧
      ({ lastStop with k := lastStop.k + 1 } : Ramp).speed = 0 :=
  ⟨noStale (.inl rfl), synthesized_of rfl rfl rfl, by decide +kernel⟩

/-- A master with a SHAFT command pending, its parameters those of the worked ramp. -/
def shaftCmd (s : State) (word : Word) : State :=
  { s with ptu := { s.ptu with shadow := [(64, word), (65, 17895697), (66, 8000)], shaftPending := true } }

theorem witness_ShaftCommandsMoveTheGenerator :
    let s := withEntry (shaftCmd master (cmd 1 0)) 0
    s.HeaderEpochDue 0 (entry 0) ∧ s.StaleTripsNothing ∧ s.isMaster = true ∧
      (s.tru.acting = .clear ∨ s.tru.acting = .d) ∧ s.ptu.shaftPending = true ∧
      s.cfg.only .shaft = some (win 0x100 64 .shaft .plain) ∧ s.lde.normal.length < 20 ∧
      cmdCode (s.shadowAt (win 0x100 64 .shaft .plain).word) = 1 ∧ s.flu.mstate = .run ∧
      s.lsu.gen.state ≠ .stopping ∧ s.lsu.gen.state ≠ .coasted :=
  ⟨due_of rfl rfl, noStale (.inr rfl), by decide +kernel⟩

theorem witness_ShaftCommandsMoveTheGenerator_hold :
    let s := withEntry (shaftCmd (ramping lastStep) (cmd 2 0)) 0
    s.HeaderEpochDue 0 (entry 0) ∧ s.StaleTripsNothing ∧ s.isMaster = true ∧
      (s.tru.acting = .clear ∨ s.tru.acting = .d) ∧ s.ptu.shaftPending = true ∧
      s.cfg.only .shaft = some (win 0x100 64 .shaft .plain) ∧ s.lde.normal.length < 20 ∧
      cmdCode (s.shadowAt (win 0x100 64 .shaft .plain).word) = 2 ∧ s.lsu.gen.state = .ramping ∧
      s.lsu.gen.ramp = some lastStep ∧ lastStep.cls = .clear :=
  ⟨due_of rfl rfl, noStale (.inr rfl), by decide +kernel⟩

/-- The member's axis 0, IDLE at a gear of 3 to 7, with a command pending. -/
def axisCmd (word gear target slew : Word) : State :=
  { member with
      axu := { member.axu with axes := setAt member.axu.axes 0 { workedAxis with state := .idle } },
      ptu := { member.ptu with
        shadow := ([(128, word), (129, gear), (130, target), (131, slew)].filter fun p => p.2 ≠ 0),
        axisPending := setAt member.ptu.axisPending 0 true } }

/-- The command that axis 0 takes. -/
def taken (code operand n d : Nat) (target : Word) (slew : Nat) : AxisCommand :=
  { tag := 7, code := code, operand := operand, n := n, d := d, target := target, slew := slew }

/-- What the AXIS commands share. -/
theorem axisCmd_ready (word gear target slew : Word) :
    (withEntry (axisCmd word gear target slew) 9).HeaderEpochDue 0 (entry 9) ∧
      (withEntry (axisCmd word gear target slew) 9).StaleTripsNothing ∧
      (axisCmd word gear target slew).cfg.only .axis = some (win 0x200 512 .axis .plain) ∧
      (axisCmd word gear target slew).lde.normal.length < 19 ∧
      (axisCmd word gear target slew).axu.axes[(0 : Fin 8)].state = .idle ∧
      (axisCmd word gear target slew).axu.axes[(0 : Fin 8)].source = .shaft ∧
      (axisCmd word gear target slew).tru.acting.stops = false :=
  ⟨due_of rfl rfl, noStale (.inl rfl), rfl, Nat.succ_pos 18, rfl, rfl, rfl⟩

theorem witness_AxisCommandsTakeEffect :
    (axisCmd (cmd 1 1) 0 0 0).axisCommand 0 = some (taken 1 1 0 0 0 0) ∧
      (axisCmd (cmd 2 0) 0 0 0).axisCommand 0 = some (taken 2 0 0 0 0 0) ∧
      (axisCmd (cmd 3 0) 0x50002 0 0).axisCommand 0 = some (taken 3 0 2 5 0 0) ∧
      (axisCmd (cmd 4 0) 0 77 65536).axisCommand 0 = some (taken 4 0 0 0 77 65536) ∧
      (axisCmd (cmd 5 20) 0 0 0).axisCommand 0 = some (taken 5 20 0 0 0 0) ∧ sourceOf 20 = some (.slot 20) ∧
      config.subscribes 20 = true := by decide +kernel

theorem witness_UndefinedCodesAreAnsweredOutOfRange :
    (withEntry (shaftCmd master (cmd 3 0)) 0).HeaderEpochDue 0 (entry 0) ∧
      cmdCode ((shaftCmd master (cmd 3 0)).shadowAt 64) = 3 ∧
      (axisCmd (cmd 6 0) 0 0 0).axisCommand 0 = some (taken 6 0 0 0 0 0) ∧
      (axisCmd (cmd 0 0) 0 0 0).axisCommand 0 = some (taken 0 0 0 0 0 0) ∧
      member.CanWrite 0x102 (.tripCommand 2) ∧ cmdCode (member.shadowAfter 0x102 (whole (cmd 2 0))) ≠ 1 ∧
      member.cfg.only .trip = some (win 0x400 256 .trip .plain) ∧ member.CanWrite 4 .refresh ∧
      cmdCode (member.shadowAfter 4 (whole (cmd 0 1))) ≠ 1 ∧
      member.cfg.only .node = some (win 0 256 .node .plain) :=
  ⟨due_of rfl rfl, by decide +kernel, by decide +kernel, by decide +kernel, member_canWrite (by decide +kernel),
    by decide +kernel, rfl, member_canWrite (by decide +kernel), by decide +kernel, rfl⟩

theorem witness_TripCommandsTakeEffect :
    member.cfg.only .trip = some (win 0x400 256 .trip .plain) ∧ member.CanWrite 0x100 (.tripCommand 0) ∧
      cmdCode (member.shadowAfter 0x100 (whole (cmd 1 2))) = 1 ∧
      TripClass.ofCode (cmdOperand (member.shadowAfter 0x100 (whole (cmd 1 2)))) = some .b ∧
      member.tru.latch[(8 : Fin 15)] = none ∧ master.CanWrite 0x101 (.tripCommand 1) ∧
      cmdCode (master.shadowAfter 0x101 (whole (cmd 1 0))) = 1 ∧ master.isMaster = true ∧
      master.lsu.gen.state ≠ .stopping ∧ member.CanWrite 0x102 (.tripCommand 2) ∧
      cmdCode (member.shadowAfter 0x102 (whole (cmd 1 15))) = 1 ∧ member.tru.linesForced = false :=
  ⟨rfl, member_canWrite (by decide +kernel), by decide +kernel, by decide +kernel, by decide +kernel,
    master_canWrite (by decide +kernel), by decide +kernel, rfl, by decide +kernel, member_canWrite (by decide +kernel),
    by decide +kernel, rfl⟩

/-- Source 8 already latched: class D raised to B, and kept at A. -/
theorem witness_TripCommandsTakeEffect_latched :
    (setAt member.tru.latch 8 (some ⟨7100, 0⟩))[(8 : Fin 15)] ≠ none ∧ TripClass.d.severity < TripClass.b.severity ∧
      ¬TripClass.a.severity < TripClass.b.severity := by decide +kernel

theorem witness_NodeCommandsTakeEffect :
    member.cfg.only .node = some (win 0 256 .node .plain) ∧ member.CanWrite 2 .noticeMask ∧
      member.CanWrite 3 .noticeClear ∧ member.CanWrite 4 .refresh ∧
      cmdCode (member.shadowAfter 4 (whole (cmd 1 5))) = 1 ∧
      member.refreshSelects (cmdOperand (member.shadowAfter 4 (whole (cmd 1 5)))) = true :=
  ⟨rfl, member_canWrite (by decide +kernel), member_canWrite (by decide +kernel), member_canWrite (by decide +kernel),
    by decide +kernel, by decide +kernel⟩

theorem witness_SlotAndBufferCommandsTakeEffect :
    member.CanWrite (0x153#24).toNat (.slotWord 20 3) ∧ member.slu.publish[(20 : Fin 128)] ≠ .unused ∧
      member.CanWrite (0x143#24).toNat (.slotWord 16 3) ∧ member.slu.publish[(16 : Fin 128)] = .unused ∧
      member.CanWrite (0x160#24).toNat (.withdraw 16 8) ∧ member.CanWrite (0x307#24).toNat (.release 0 0) ∧
      member.CanWrite (0x30F#24).toNat (.release 0 1) :=
  ⟨member_canWrite (by decide +kernel), by decide +kernel, member_canWrite (by decide +kernel), by decide +kernel,
    member_canWrite (by decide +kernel), member_canWrite (by decide +kernel), member_canWrite (by decide +kernel)⟩

/-- The first and the last word of the CAM-OUT window. -/
theorem witness_CamOutBeatsAreCaptured :
    member.CanWrite (0x180#24).toNat (.camOut 1 0) ∧ member.CanWrite (0x27F#24).toNat (.camOut 1 1020) ∧
      member.cfg.cams[(1 : Fin 4)] = some cam ∧ member.isJoined = true ∧ member.igu.tx.length < 64 ∧
      member.igu.cap[(1 : Fin 4)].state = .idle :=
  ⟨member_canWrite (by decide +kernel), member_canWrite (by decide +kernel), by decide +kernel, rfl, by decide +kernel,
    by decide +kernel⟩

/-- The same words met by a capture that expects them, and by one that does not. -/
theorem witness_CamOutBeatsAreCaptured_inProgress :
    let s : State := { member with igu := { member.igu with
      cap := modAt member.igu.cap 1 fun c => { c with state := .capturing, e := 1020, area := List.replicate 252 0 } } }
    s.CanWrite (0x27F#24).toNat (.camOut 1 1020) ∧ s.igu.cap[(1 : Fin 4)].state = .capturing ∧
      1020 = s.igu.cap[(1 : Fin 4)].e ∧ (s.igu.cap[(1 : Fin 4)].e + 4) % 256 = 0 ∧
      s.CanWrite (0x181#24).toNat (.camOut 1 4) ∧ 4 ≠ s.igu.cap[(1 : Fin 4)].e :=
  ⟨⟨sound_of_plain rfl rfl rfl rfl rfl rfl, ⟨rfl, rfl, rfl, rfl, rfl⟩, by decide +kernel, by decide +kernel⟩,
    by decide +kernel, by decide +kernel, by decide +kernel,
    ⟨sound_of_plain rfl rfl rfl rfl rfl rfl, ⟨rfl, rfl, rfl, rfl, rfl⟩, by decide +kernel, by decide +kernel⟩,
    by decide +kernel⟩

theorem witness_OtherWriteBeatsTakeEffect :
    member.CanWrite (0x318#24).toNat (.screenOut 0 32) ∧
      member.cfg.screenOut 0 = some (win 0xC40 512 .screenOut (.screen (geometry 6)), geometry 6) ∧
      (geometry 6).tileAt 32 = some 1 ∧ member.CanWrite (0x44#24).toNat (.landed .shaft) ∧ member.ptu.latch = none ∧
      member.CanWrite (0x40#24).toNat .shaftCommand ∧ Ident.shaftCommand.isRegister = true ∧
      Ident.shaftCommand.wordClass = .capture ∧ member.CanWrite (0x85#24).toNat (.axisLive 0) ∧
      (Ident.axisLive 0).wordClass = .substituted ∧ (Ident.axisLive 0).isRegister = true :=
  ⟨member_canWrite (by decide +kernel), by decide +kernel, by decide +kernel, member_canWrite (by decide +kernel), rfl,
    member_canWrite (by decide +kernel), rfl, rfl, member_canWrite (by decide +kernel), rfl, rfl⟩

/-- Step 5 of 2.9: a read P1 of an ordinary word holds the M-port, with two bursts left of the fragment F, and behind it the
read P2 of step 6 where `second`. -/
def reading (second : Bool) : State :=
  let p1 : PCycle := { member.cycleOf false 0xFFFFFF [whole 0] with granted := true }
  { member with
      ptu := { member.ptu with
        cycle := some p1, behind := if second then [member.cycleOf false 67 [whole 0]] else [] }
      lde := { Lde.reset with
        holder := .cycle,
        normal := [{ req := .fragment, runs := [{ addr := 5120, words := List.replicate 64 0 }], entered := 0, done := 6,
                     got := [] }] } }

/-- Step 6 of 2.9: P2 is held behind P1 (R44). -/
theorem test_second_cycle_is_held :
    let t := after (.pPortCycle 0 false 67 [whole 0]) (reading false)
    t.ptu = (reading true).ptu ∧ t.lde.holder = .cycle ∧ t.waitActive = true := by decide +kernel

/-- Step 7 of 2.9: P1 completes, and P2 is granted ahead of F, which has not waited 16 µs. -/
theorem test_second_cycle_is_granted :
    let t := after (.mPortBurstCompletion 0) (reading true)
    t.ptu.readData = [0] ∧ t.lde.holder = .cycle ∧ t.ptu.behind = [] ∧ t.waitActive = false ∧
      t.ptu.cycle.map (fun c => c.beats.map PBeat.addr) = some [67] := by decide +kernel

/-- The reads of one live word: the notice record, the synchronized time, and the live angles of a geared and of an OFF axis;
with a flag pending, and with none. -/
theorem witness_PresentedCyclesAreGrantedOrAnswered_live :
    geared.Served ∧ geared.configured = true ∧ [whole 0].length = 1 ∧
      [0, 1, 5, 6].map geared.identOf = [.nodeLive 0, .nodeLive 4, .nodeLive 20, .nodeLive 24] ∧
      [0x85, 0x95].map geared.identOf = [.axisLive 0, .axisLive 1] ∧ geared.axu.axes[(0 : Fin 8)].state = .engaged ∧
      geared.axu.axes[(1 : Fin 8)].state = .off ∧ (∀ n < 16, ¬geared.cnu.flags.getLsbD n = true) ∧
      (let t : State := { geared with cnu := { geared.cnu with flags := 0x0104, mask := 4 } }
       [0, 1, 5, 6, 0x95].map (fun a => (after (.pPortCycle 7813 false a [whole 0]) t).ptu.readData) =
         [[0x40104], [8], [7200], [64], [0]]) :=
  ⟨served_of_quiet ⟨rfl, rfl, rfl, rfl, rfl⟩, by decide +kernel⟩

/-- A read of two live words; a read of one word beyond every window at the end of the address range, at a free M-port and
while another read holds it. -/
theorem witness_PresentedCyclesAreGrantedOrAnswered :
    member.Served ∧ member.Quiet ∧ 1 ≤ [whole 0, whole 0].length ∧ [whole 0, whole 0].length ≤ 8 ∧
      (∀ x ∈ ((member.elapse 0).cycleOf false 5 [whole 0, whole 0]).beats, x.id.reaches false = false) ∧
      (∃ x ∈ ((member.elapse 0).cycleOf false 0xFFFFFF [whole 0]).beats, x.id.reaches false = true) ∧
      (reading false).Served ∧ (reading false).ptu.cycle.isSome = true ∧
      (∃ x ∈ (((reading false).elapse 0).cycleOf false 0xFFFFFF [whole 0]).beats, x.id.reaches false = true) :=
  ⟨served_of_quiet member_quiet, member_quiet, by decide, by decide, by decide +kernel, by decide +kernel, (nomatch ·),
    by decide +kernel, by decide +kernel⟩

/-- The member with one landing of a result in flight, and with an URGENT one. -/
def landing (normal : Bool) : State :=
  { member with lde := { Lde.reset with
      holder := if normal then .normal else .urgent,
      normal := if normal then [{ req := .result, runs := [{ addr := 67, words := [1] }], entered := 0, done := 0, got := [] }]
        else [],
      urgent := if normal then [] else [{ src := .shaft, runs := [{ addr := 68, words := [1, 2] }], done := 0 }] } }

theorem witness_CompletedBurstsReachMemory :
    member.Sound ∧ (landing false).lde.holder = .urgent ∧
      (landing false).lde.urgent = [{ src := .shaft, runs := [{ addr := 68, words := [1, 2] }], done := 0 }] ∧
      (burstsOf [{ addr := 68, words := [1, 2] }])[0]? = some { addr := 68, words := [1, 2] } ∧
      (landing true).lde.holder = .normal ∧ Requester.result.isRead = false ∧
      (burstsOf [{ addr := 67, words := [1] }])[0]? = some { addr := 67, words := [1] } ∧
      (burstsOf [{ addr := 67, words := [1] }]).length = 0 + 1 ∧
      (burstsOf ((List.range 8).map fun j => { addr := 8 * j, words := List.replicate 8 0 })).length = 7 + 1 ∧
      member.isJoined = true ∧ (member.cfg.screenOut 0).isSome = true ∧
      ({ member.cycleOf false 0 [whole 0] with granted := true } : PCycle).takes = [] ∧
      (∀ x ∈ (member.cycleOf false 0xFFFFFF [whole 0]).beats, x.id.reaches false = true) ∧
      (member.cycleOf true 0xFFFFFF [whole 0]).beats.map PBeat.id = [.outside] ∧ (reading false).ptu.behind = [] :=
  ⟨member_sound, by decide +kernel⟩

theorem reading_sound (second : Bool) : (reading second).Sound := by
  refine ⟨rfl, rfl, show (0 : BitVec 16).getLsbD 0 = false by decide, ?_, Nat.zero_le _, Nat.zero_le _⟩
  simp [reading, Lde.Sound, Lde.reset, Config.normalPlaces]

/-- The clause of a cycle held behind: with a NORMAL entry queued that is not starved, and with an URGENT one. -/
theorem witness_CompletedBurstsReachMemory_held :
    let s := reading true
    let p2 := member.cycleOf false 67 [whole 0]
    s.Sound ∧ s.lde.holder = .cycle ∧ (s.ptu.cycle.map PCycle.takes = some []) ∧ s.ptu.behind = [p2] ∧ p2.granted = false ∧
      (s.ptu.cycle.map PCycle.write = some false) ∧ (∀ c ∈ s.ptu.cycle, ∀ x ∈ c.beats, x.id.reaches false = true) ∧
      s.lde.urgent = [] ∧ s.lde.starved = false ∧ (∀ e ∈ s.lde.normal.head?, s.now + 0 - e.entered < s.cfg.starveUs * 125) ∧
      ({ s.lde with urgent := [{ src := .shaft, runs := [{ addr := 68, words := [1, 2] }], done := 0 }] } : Lde).urgent ≠ [] :=
  ⟨reading_sound true, by decide +kernel⟩

/-- Both landings leave the node sound. -/
theorem landing_sound (normal : Bool) : (landing normal).Sound := by
  refine ⟨rfl, rfl, show (0 : BitVec 16).getLsbD 0 = false by decide, ?_, Nat.zero_le _, Nat.zero_le _⟩
  cases normal <;> simp [landing, Lde.Sound, Lde.reset, Config.normalPlaces]

theorem witness_StarvedEntriesGoAheadOfTheProcessor :
    (landing true).Served ∧ (landing true).lde.normal ≠ [] ∧ (landing true).cfg.starveUs * 125 ≤ (landing true).now + 1250 - 0 ∧
      ({ (landing true).lde with holder := .free, starved := true } : Lde).urgent = [] :=
  ⟨(nomatch ·), by decide +kernel, by decide +kernel, rfl⟩

theorem witness_TripInputsAreFiltered :
    member.Served ∧ member.configured = true ∧ member.tru.tiLevel[(7 : Fin 8)] ≠ true ∧
      member.readsActive 7 true = true ∧ member.cfg.tiFilter[(7 : Fin 8)] ≠ 0 ∧
      (let s : State := { member with tru := { member.tru with
         filter := setAt member.tru.filter 0 (some 0), tiLevel := setAt member.tru.tiLevel 0 true } }
       s.tru.filter[(0 : Fin 8)] = some 0 ∧ s.cfg.tiFilter[(0 : Fin 8)] * s.flu.interval ≤ (s.now + 245 - 0) * 256 ∧
         s.tru.cond[(0 : Fin 15)] = false ∧ s.cfg.classes[(0 : Fin 15)] ≠ .clear ∧ s.tru.latch[(0 : Fin 15)] = none ∧
         s.tru.tiLevel[(0 : Fin 8)] ≠ false ∧ s.readsActive 0 false = false) ∧
      (let s : State := { member with cfg := { config with tiFilter := Vector.replicate 8 0 } }
       s.cfg.tiFilter[(0 : Fin 8)] = 0 ∧ s.tru.filter[(0 : Fin 8)] = none) :=
  ⟨served_of_quiet member_quiet, by decide +kernel⟩

theorem witness_CameraLinesTakeEffect :
    let s : State := { member with cmu := { ch := modAt member.cmu.ch 1 fun c => { c with
      sched := some 76, pulse := some (0, 31250) } } }
    s.Served ∧ s.configured = true ∧ s.cfg.cams[(1 : Fin 4)] = some cam ∧ s.cmu.ch[(1 : Fin 4)].expLevel ≠ true ∧
      s.cmu.ch[(1 : Fin 4)].sched = some 76 ∧ 76 ≤ (s.elapse 9278).phase ∧ s.cmu.ch[(1 : Fin 4)].pulse = some (0, 31250) ∧
      cam.width * 31250 ≤ (s.now + 2442 - 0) * 256 :=
  ⟨served_of_quiet ⟨rfl, rfl, rfl, rfl, rfl⟩, by decide +kernel⟩

theorem witness_RowReadingsAreDebounced :
    let s : State := { member with ksc := { member.ksc with mark := 1 } }
    s.Served ∧ s.configured = true ∧ s.cfg.keys = some { dest := 0, stops := [63] } ∧ s.ksc.nextRead ≤ s.now + 0 ∧
      (0 : Fin 64).val / 8 = s.ksc.row.val ∧ s.isStopKey 0 = false ∧ s.ksc.lock = none ∧
      s.ksc.debounced.getLsbD 0 = false ∧ s.ksc.mark.getLsbD 0 = true ∧ (1#8).getLsbD 0 = true ∧
      (∀ j : Fin 64, j ≠ 0 → j.val / 8 = s.ksc.row.val → s.ksc.debounced.getLsbD j.val = (1#8).getLsbD (j.val % 8)) ∧
      s.ksc.queue.length < 16 :=
  ⟨served_of_quiet ⟨rfl, rfl, rfl, rfl, rfl⟩, by decide +kernel⟩

/-- An axis that follows slot 20 and has missed to its limit. -/
def following20 : State :=
  { member with axu := { member.axu with
      axes := setAt member.axu.axes 0 { workedAxis with source := .slot 20, limit := 2, miss := 2 } } }

theorem witness_MissesToTheLimitLoseTheSource :
    (withEntry following20 0).HeaderEpochDue 0 (entry 0) ∧ (withEntry following20 0).StaleTripsNothing ∧
      following20.tru.acting ≠ .a ∧ following20.axu.axes[(0 : Fin 8)].state = .engaged ∧
      following20.axu.axes[(0 : Fin 8)].source = .slot 20 ∧ following20.axu.fresh[(20 : Fin 128)] = none ∧
      following20.axu.axes[(0 : Fin 8)].limit ≤ following20.axu.axes[(0 : Fin 8)].miss ∧
      following20.axu.axes[(0 : Fin 8)].sourceLost = false ∧ following20.axisCommand 0 = none :=
  ⟨due_of rfl rfl, noStale (.inl rfl), by decide +kernel⟩

theorem witness_StopTimeoutForcesTheLines :
    let s := withEntry { member with tru := { member.tru with
      latch := setAt member.tru.latch 0 (some ⟨7100, 0⟩), acting := .c, timerOn := true, timerCount := 99 } } 0
    s.HeaderEpochDue 0 (entry 0) ∧ s.StaleTripsNothing ∧ s.ActsOnWhatItHolds ∧ (s.tru.acting = .b ∨ s.tru.acting = .c) ∧ s.tru.timerOn = true ∧
      s.tru.timerCount + 1 = s.cfg.stopTimeout ∧ s.cfg.stopTimeout ≤ 65535 :=
  ⟨due_of rfl rfl, noStale (.inl rfl), by unfold State.ActsOnWhatItHolds; decide +kernel, by decide +kernel⟩

theorem witness_StreamTimeoutEndsTheImage :
    let p : StreamParams := { pos := 5, stream := 1, count := 2, size := 256, timeout := 2 }
    let a : Assembly := { imgNo := 41, buffer := 0, landed := 0, last := 0, broken := false,
                          info := { stamp := { cycle := 0, phase := 0 }, ref := 0, count := 0, noExposure := true,
                                    overrun := false } }
    let s := withEntry { member with igu := { member.igu with
      streams := modAt member.igu.streams 0 fun x => { x with asm := some a, idle := 1 } } } 0
    s.HeaderEpochDue 0 (entry 0) ∧ s.cfg.stream 0 = some (win 0xA00 576 .imgIn (.imgIn p), p) ∧
      s.igu.streams[(0 : Fin 4)].asm = some a ∧ p.timeout ≤ s.igu.streams[(0 : Fin 4)].idle + 1 :=
  ⟨due_of rfl rfl, by decide +kernel⟩

theorem witness_SweepMarksOneTile :
    let s := withEntry { member with scu := { member.scu with out := modAt member.scu.out 0 fun o =>
      { o with sweepCount := 3, sweep := 1 } } } 0
    s.HeaderEpochDue 0 (entry 0) ∧
      s.cfg.screenOut 0 = some (win 0xC40 512 .screenOut (.screen (geometry 6)), geometry 6) ∧ 0 < (geometry 6).period ∧
      (geometry 6).period ≤ s.scu.out[(0 : Fin 2)].sweepCount + 1 ∧ s.scu.out[(0 : Fin 2)].sweep < 8192 :=
  ⟨due_of rfl rfl, by decide +kernel⟩

theorem witness_AgeToTheLimitIsStale :
    let s := withEntry { member with slu := { member.slu with
      entries := modAt member.slu.entries 0 (modAt · 1 fun e => { e with age := 4 }) } } 0
    s.HeaderEpochDue 0 (entry 0) ∧
      s.cfg.slotIn 0 = some (win 0x5C0 64 .slotIn (.slotIn [20, 21] 5 false), [20, 21], 5, false) ∧
      (1 : Fin 8).val < [(20 : Fin 128), 21].length ∧ s.slu.entries[(0 : Fin 8)][(1 : Fin 8)].mark = false ∧
      s.slu.entries[(0 : Fin 8)][(1 : Fin 8)].stale = false ∧ s.slu.entries[(0 : Fin 8)][(1 : Fin 8)].age + 1 = 5 ∧ 5 ≤ 255 :=
  ⟨due_of rfl rfl, by decide +kernel⟩

/-- An epoch in each of the orders that the rules leave open: the shadow takes the header's angle, and the axis its step. -/
theorem test_epoch_orders : ∀ a b c d : Bool,
    (let t := State.epochIn { member with axu := { member.axu with axes := setAt member.axu.axes 0 workedAxis } } a b c d
       (some (entry 17895697).shaft) false false
     (t.lsu.shadow.angle, t.axu.axes[(0 : Fin 8)].s)) = (17895697, 2702089) := by decide +kernel

end Sys2Proof.Tests
end

/-! Proofs, section 1. What a frame keeps, and what the end of every event leaves alone. These sections elaborate in one
thread: with the whole text's proofs in threads of their own the compile runs out of room for their stacks. -/

namespace Sys2Proof.Machine

set_option Elab.async false

/-! ### What a frame keeps -/

section
variable {ps : List Part} {s t : State}

theorem Frame.keeps_now (h : Frame ps s t) (m : Part.now ∉ ps := by decide) : t.now = s.now := h.only .now m
theorem Frame.keeps_cfg (h : Frame ps s t) (m : Part.cfg ∉ ps := by decide) : t.cfg = s.cfg := h.only .cfg m
theorem Frame.keeps_flu (h : Frame ps s t) (m : Part.flu ∉ ps := by decide) : t.flu = s.flu := h.only .flu m
theorem Frame.keeps_lsu (h : Frame ps s t) (m : Part.lsu ∉ ps := by decide) : t.lsu = s.lsu := h.only .lsu m
theorem Frame.keeps_axu (h : Frame ps s t) (m : Part.axu ∉ ps := by decide) : t.axu = s.axu := h.only .axu m
theorem Frame.keeps_tru (h : Frame ps s t) (m : Part.tru ∉ ps := by decide) : t.tru = s.tru := h.only .tru m
theorem Frame.keeps_slu (h : Frame ps s t) (m : Part.slu ∉ ps := by decide) : t.slu = s.slu := h.only .slu m
theorem Frame.keeps_cls (h : Frame ps s t) (m : Part.cls ∉ ps := by decide) : t.cls = s.cls := h.only .cls m
theorem Frame.keeps_cmu (h : Frame ps s t) (m : Part.cmu ∉ ps := by decide) : t.cmu = s.cmu := h.only .cmu m
theorem Frame.keeps_igu (h : Frame ps s t) (m : Part.igu ∉ ps := by decide) : t.igu = s.igu := h.only .igu m
theorem Frame.keeps_scu (h : Frame ps s t) (m : Part.scu ∉ ps := by decide) : t.scu = s.scu := h.only .scu m
theorem Frame.keeps_ksc (h : Frame ps s t) (m : Part.ksc ∉ ps := by decide) : t.ksc = s.ksc := h.only .ksc m
theorem Frame.keeps_flags (h : Frame ps s t) (m : Part.flags ∉ ps := by decide) : t.cnu.flags = s.cnu.flags :=
  h.only .flags m
theorem Frame.keeps_lde (h : Frame ps s t) (m : Part.lde ∉ ps := by decide) : t.lde = s.lde := h.only .lde m
theorem Frame.keeps_mem (h : Frame ps s t) (m : Part.mem ∉ ps := by decide) : t.mem = s.mem := h.only .mem m

theorem Frame.keeps_ptu (h : Frame ps s t) (m : Part.ptu ∉ ps := by decide) (m1 : Part.shadow ∉ ps := by decide) :
    t.ptu = s.ptu :=
  have k : { t.ptu with shadow := [] } = { s.ptu with shadow := [] } := h.only .ptu m
  congrArg₂ (fun p x => ({ p with shadow := x } : Ptu)) k (h.only .shadow m1 : t.ptu.shadow = s.ptu.shadow)

theorem Frame.keeps_shadow (h : Frame ps s t) (m : Part.shadow ∉ ps := by decide) : t.ptu.shadow = s.ptu.shadow :=
  h.only .shadow m

theorem Frame.keeps_status (h : Frame ps s t) (m : Part.cnu ∉ ps := by decide) : t.cnu.status = s.cnu.status :=
  have k : { t.cnu with flags := 0 } = { s.cnu with flags := 0 } := h.only .cnu m
  (congrArg Cnu.status k :)

theorem Frame.keeps_mask (h : Frame ps s t) (m : Part.cnu ∉ ps := by decide) : t.cnu.mask = s.cnu.mask :=
  have k : { t.cnu with flags := 0 } = { s.cnu with flags := 0 } := h.only .cnu m
  (congrArg Cnu.mask k :)

theorem Frame.keeps_configured (h : Frame ps s t) (m : Part.cnu ∉ ps := by decide) : t.configured = s.configured := by
  unfold State.configured
  rw [h.keeps_status m]

theorem Frame.keeps_isMaster (h : Frame ps s t) (m : Part.cnu ∉ ps := by decide) (m1 : Part.cfg ∉ ps := by decide) :
    t.isMaster = s.isMaster := by
  unfold State.isMaster
  rw [h.keeps_configured m, h.keeps_cfg m1]

theorem Frame.keeps_isMember (h : Frame ps s t) (m : Part.cnu ∉ ps := by decide) (m1 : Part.cfg ∉ ps := by decide) :
    t.isMember = s.isMember := by
  unfold State.isMember
  rw [h.keeps_configured m, h.keeps_cfg m1]

/-- Two states that agree in the configuration's completion and in the ring state are JOINED together. -/
theorem Frame.keeps_isJoined (h : Frame ps s t) (hr : t.flu.ring = s.flu.ring) (m : Part.cnu ∉ ps := by decide) :
    t.isJoined = s.isJoined := by
  unfold State.isJoined
  rw [h.keeps_configured m, hr]

end

/-! ### The end of every event -/

section
variable (s0 s : State)

@[simp] theorem State.settle_now : (State.settle s0 s).now = s.now := (State.settle_fr s0 s).keeps_now
@[simp] theorem State.settle_cfg : (State.settle s0 s).cfg = s.cfg := (State.settle_fr s0 s).keeps_cfg
@[simp] theorem State.settle_flu : (State.settle s0 s).flu = s.flu := (State.settle_fr s0 s).keeps_flu
@[simp] theorem State.settle_lsu : (State.settle s0 s).lsu = s.lsu := (State.settle_fr s0 s).keeps_lsu
@[simp] theorem State.settle_axu : (State.settle s0 s).axu = s.axu := (State.settle_fr s0 s).keeps_axu
@[simp] theorem State.settle_tru : (State.settle s0 s).tru = s.tru := (State.settle_fr s0 s).keeps_tru
@[simp] theorem State.settle_slu : (State.settle s0 s).slu = s.slu := (State.settle_fr s0 s).keeps_slu
@[simp] theorem State.settle_cls : (State.settle s0 s).cls = s.cls := (State.settle_fr s0 s).keeps_cls
@[simp] theorem State.settle_cmu : (State.settle s0 s).cmu = s.cmu := (State.settle_fr s0 s).keeps_cmu
@[simp] theorem State.settle_igu : (State.settle s0 s).igu = s.igu := (State.settle_fr s0 s).keeps_igu
@[simp] theorem State.settle_scu : (State.settle s0 s).scu = s.scu := (State.settle_fr s0 s).keeps_scu
@[simp] theorem State.settle_ksc : (State.settle s0 s).ksc = s.ksc := (State.settle_fr s0 s).keeps_ksc
@[simp] theorem State.settle_configured : (State.settle s0 s).configured = s.configured :=
  (State.settle_fr s0 s).keeps_configured

end

/-- A row that is the event `f` completes with its effect and the end of every event. -/
theorem exec_event {s v : State} {c : Instr} {dt : Nat} (f : State → State) (h : f (s.elapse dt) = v)
    (row : exec c s = s.event dt f := by rfl) : exec c s = .next (State.settle (s.elapse dt) v) := by
  rw [row, State.event, h]

/-- The same of a row that checks its operands. -/
theorem exec_checked {s v : State} {c : Instr} {dt : Nat} (f : State → State) (wf : c.wf = true)
    (h : f (s.elapse dt) = v) (row : exec c s = s.checked c.wf dt f := by rfl) :
    exec c s = .next (State.settle (s.elapse dt) v) := by
  rw [row, State.checked, if_pos wf, State.event, h]

/-- An event touches what its effect touches, the time, and what the end of every event touches. -/
theorem State.settled_only {ps : List Part} {s v : State} {dt : Nat} (qs : List Part) (hf : Frame ps (s.elapse dt) v)
    (m : within ps qs = true := by rfl) (m1 : within [.now] qs = true := by rfl)
    (m2 : within [.flags, .ptu, .lde] qs = true := by rfl) : OnlyTouches qs s (State.settle (s.elapse dt) v) :=
  ((((s.elapse_fr dt).mono (m := m1)).comp hf m).comp (State.settle_fr _ _) m2).only

/-- The same of an event that asks nothing of the landing queue and reports nothing: its end adds nothing. -/
theorem State.effect_only {ps : List Part} {s v : State} {dt : Nat} (qs : List Part) (hf : Frame ps (s.elapse dt) v)
    (m : within ps qs = true := by rfl) (m1 : within [.now] qs = true := by rfl) : OnlyTouches qs s v :=
  (((s.elapse_fr dt).mono (m := m1)).comp hf m).only

@[simp] theorem State.elapse_configured (s : State) (dt : Nat) : (s.elapse dt).configured = s.configured := rfl
@[simp] theorem State.elapse_isMaster (s : State) (dt : Nat) : (s.elapse dt).isMaster = s.isMaster := rfl
@[simp] theorem State.elapse_isMember (s : State) (dt : Nat) : (s.elapse dt).isMember = s.isMember := rfl
@[simp] theorem State.elapse_isJoined (s : State) (dt : Nat) : (s.elapse dt).isJoined = s.isJoined := rfl
@[simp] theorem State.elapse_isEndNode (s : State) (dt : Nat) : (s.elapse dt).isEndNode = s.isEndNode := rfl
@[simp] theorem State.elapse_sends (s : State) (dt : Nat) : (s.elapse dt).sends = s.sends := rfl

end Sys2Proof.Machine

/-! Proofs, section 2. What each operation makes of the Fibre Line Unit: rings, epochs, receivers, both runs, and the
origination. -/

namespace Sys2Proof.Machine

set_option Elab.async false

variable (s : State)

/-! ### Operations that leave the Fibre Line Unit alone -/

@[simp] theorem State.recompute_flu : s.recompute.flu = s.flu := s.recompute_fr.keeps_flu
@[simp] theorem State.handStamped_flu (n : Fin 15) (b : Bool) (x : Stamp) : (s.handStamped n b x).flu = s.flu :=
  (s.handStamped_fr n b x).keeps_flu
@[simp] theorem State.handCondition_flu (n : Fin 15) (b : Bool) : (s.handCondition n b).flu = s.flu :=
  (s.handCondition_fr n b).keeps_flu
@[simp] theorem State.takeToken_flu (g : Byte) : (s.takeToken g).flu = s.flu := (s.takeToken_fr g).keeps_flu
@[simp] theorem State.memberTrip_flu (t : TripFields) (g : Bool) : (s.memberTrip t g).1.flu = s.flu :=
  (s.memberTrip_fr t g).keeps_flu
@[simp] theorem State.cancelFirings_flu : s.cancelFirings.flu = s.flu := s.cancelFirings_fr.keeps_flu
@[simp] theorem State.imagesLeave_flu : s.imagesLeave.flu = s.flu := s.imagesLeave_fr.keeps_flu
@[simp] theorem State.screensLeave_flu : s.screensLeave.flu = s.flu := s.screensLeave_fr.keeps_flu
@[simp] theorem State.screensJoin_flu : s.screensJoin.flu = s.flu := s.screensJoin_fr.keeps_flu
@[simp] theorem State.noticeEnd_flu (s0 : State) : (State.noticeEnd s0 s).flu = s.flu := (State.noticeEnd_fr s0 s).keeps_flu
@[simp] theorem State.lsuEpoch_flu (h : Option HeaderShaft) (m : Bool) : (s.lsuEpoch h m).flu = s.flu :=
  (s.lsuEpoch_fr h m).keeps_flu
@[simp] theorem State.truEpoch_flu : s.truEpoch.flu = s.flu := s.truEpoch_fr.keeps_flu
@[simp] theorem State.axuEpoch_flu (y m : Bool) : (s.axuEpoch y m).flu = s.flu := (s.axuEpoch_fr y m).keeps_flu
@[simp] theorem State.handSourceLost_flu : s.handSourceLost.flu = s.flu := s.handSourceLost_fr.keeps_flu
@[simp] theorem State.cmuEpoch_flu (m : Bool) : (s.cmuEpoch m).flu = s.flu := (s.cmuEpoch_fr m).keeps_flu
@[simp] theorem State.sluEpoch_flu : s.sluEpoch.flu = s.flu := s.sluEpoch_fr.keeps_flu
@[simp] theorem State.iguEpoch_flu : s.iguEpoch.flu = s.flu := s.iguEpoch_fr.keeps_flu
@[simp] theorem State.scuEpoch_flu : s.scuEpoch.flu = s.flu := s.scuEpoch_fr.keeps_flu
@[simp] theorem State.endSlotArea_flu : s.endSlotArea.flu = s.flu := s.endSlotArea_fr.keeps_flu
@[simp] theorem State.endReturnStage_flu (p : Passage) : (s.endReturnStage p).flu = s.flu :=
  (s.endReturnStage_fr p).keeps_flu
@[simp] theorem State.endClaims_flu : s.endClaims.flu = s.flu := s.endClaims_fr.keeps_flu
@[simp] theorem State.startClaims_flu : s.startClaims.flu = s.flu := rfl
@[simp] theorem State.decideSlots_flu (bs : List Byte) : (s.decideSlots bs).1.flu = s.flu :=
  (s.decideSlots_fr bs).keeps_flu
@[simp] theorem State.decideCell_flu (b : Block) : (s.decideCell b).1.flu = s.flu := (s.decideCell_fr b).keeps_flu
@[simp] theorem State.slotArrives_flu (p : Passage) (n : Fin 128) (x y : Block) : (s.slotArrives p n x y).flu = s.flu :=
  (s.slotArrives_fr p n x y).keeps_flu
@[simp] theorem State.cellArrives_flu (p : Passage) (b : Block) : (s.cellArrives p b).flu = s.flu :=
  (s.cellArrives_fr p b).keeps_flu
@[simp] theorem State.formTrip_flu : s.formTrip.1.flu = s.flu := s.formTrip_fr.keeps_flu
@[simp] theorem State.formSlots_flu : s.formSlots.1.flu = s.flu := s.formSlots_fr.keeps_flu
@[simp] theorem State.openClaims_flu : s.openClaims.flu = s.flu := s.openClaims_fr.keeps_flu
@[simp] theorem State.handMasterLoss_flu : s.handMasterLoss.flu = s.flu := s.handMasterLoss_fr.keeps_flu

/-! ### Entering and leaving the ring (R9 to R11) -/

/-- The FLU of a node that has left FOLLOWING or JOINED: the resync mark is armed from JOINED (R10). -/
def Flu.left (u : Flu) : Flu :=
  { u with ring := .seeking, position := none, meas := [], mismatch := false,
           resyncArmed := u.resyncArmed || decide (u.ring = .joined) }

theorem State.enterJoined_flu : s.enterJoined.flu = { s.flu with ring := .joined, mismatch := false } := by
  simp [State.enterJoined]

theorem State.leaveRing_flu : s.leaveRing.flu = s.flu.left := by
  unfold State.leaveRing State.leaveJoined
  by_cases h : s.flu.ring = .joined <;> simp [h, Flu.left]

theorem State.loseRing_flu (b : Bool) : (s.loseRing b).flu = s.flu.left := by
  cases b <;> simp [State.loseRing, State.leaveRing_flu]

/-! ### Epochs (R20 to R23) -/

theorem State.epochIn_flu (l w a x : Bool) (hdr : Option HeaderShaft) (mark loss : Bool) :
    (s.epochIn l w a x hdr mark loss).flu = if loss then s.flu.left else s.flu := by
  unfold State.epochIn
  cases loss <;> cases l <;> simp [apply_ite State.flu, State.loseRing_flu]

/-- The work of an epoch changes the FLU by a ring loss only. -/
theorem State.epochWork_flu (hdr : Option HeaderShaft) (mark loss : Bool) :
    (s.epochWork hdr mark loss).flu = if loss then s.flu.left else s.flu := by
  unfold State.epochWork
  rw [State.epochIn_flu]

/-- The return watch at an epoch (R13). -/
def Flu.watched (u : Flu) : Flu :=
  { u with returnWatch := if u.goodReturn then u.returnWatch else min 255 (u.returnWatch + 1), goodReturn := false }

theorem State.watchEpoch_flu : s.watchEpoch.flu = s.flu.watched := by
  simp [State.watchEpoch, Flu.watched]

theorem State.takeEntry_flu (e : PendingEntry) :
    (s.takeEntry e).flu =
      if e.cycle = s.flu.cycle then { s.flu with miss := 0 } else (s.flu.headerEpoch e s.now).watched := by
  unfold State.takeEntry
  split <;> simp [State.epochWork_flu, State.watchEpoch_flu]

theorem State.takeOldest_flu {e : PendingEntry} {rest : List PendingEntry} (h : s.flu.entries = e :: rest) :
    s.takeOldest.flu = if e.cycle = s.flu.cycle then { s.flu with entries := rest, miss := 0 }
      else (Flu.headerEpoch { s.flu with entries := rest } e s.now).watched := by
  unfold State.takeOldest
  rw [h]
  exact State.takeEntry_flu _ e

theorem State.synthesize_flu : s.synthesize.flu =
    if s.losesRing then (s.flu.synthesize s.now).watched.left else (s.flu.synthesize s.now).watched := by
  unfold State.synthesize
  rw [State.epochWork_flu, State.watchEpoch_flu]
  rfl

/-! ### Receivers and frames that end (R1, R2) -/

theorem State.endOut_flu : s.endOut.flu = { s.flu with out := Passage.idle } := by
  unfold State.endOut
  split <;> simp

theorem State.resetRunUp_flu : s.resetRunUp.flu =
    { s.flu with runUp := if s.isMaster = true ∧ s.flu.mstate = .setup then 0 else s.flu.runUp } := by
  unfold State.resetRunUp
  split <;> rfl

theorem State.endReturnStage_isMaster (p : Passage) : (s.endReturnStage p).isMaster = s.isMaster :=
  (s.endReturnStage_fr p).keeps_isMaster

/-- The end of the return frame leaves the FLU but for the passage and the master's run-up count. -/
theorem State.endRet_flu : ∃ n, (n = 0 ∨ n = s.flu.runUp) ∧ (s.isMaster = false → n = s.flu.runUp) ∧
    s.endRet.flu = { s.flu with runUp := n, ret := Passage.idle } := by
  unfold State.endRet
  dsimp only
  split
  · refine ⟨if s.isMaster = true ∧ s.flu.mstate = .setup then 0 else s.flu.runUp, ?_, fun h => by simp [h], ?_⟩
    · split <;> simp
    · simp [State.resetRunUp_flu, State.endReturnStage_isMaster]
  · exact ⟨s.flu.runUp, .inr rfl, fun _ => rfl, by simp⟩

theorem State.endCopy_flu : s.endCopy.flu = { s.flu with copy := Passage.idle } := by
  simp [State.endCopy]

/-! ### The out-run -/

theorem State.outTrip_flu (b : Block) (h : s.flu.out.stage = .trip) : ∃ b1, (s.outTrip b).flu =
    { s.flu with out := { s.flu.out with stage := .tags }, txDown := { s.flu.txDown with trip := b1 } } := by
  unfold State.outTrip
  rw [if_neg (not_not.2 h)]
  dsimp only
  cases goodBytes 32 b with
  | none => exact ⟨b, rfl⟩
  | some bs =>
    cases hm : s.isMember with
    | false => exact ⟨b, rfl⟩
    | true => exact ⟨passTrip b (parseTrip bs) (s.memberTrip (parseTrip bs) s.flu.out.good).2, by simp⟩

theorem State.outSlots_flu (tags : Block) (slots : List Block) (h : s.flu.out.stage = .tags) :
    ∃ b1 l1, (s.outSlots tags slots).flu =
      { s.flu with out := { s.flu.out with stage := .cells, next := 0 },
                   txDown := { s.flu.txDown with tags := b1, slots := l1 } } := by
  unfold State.outSlots
  rw [if_neg (not_not.2 h)]
  dsimp only
  cases goodBytes 18 tags with
  | none => exact ⟨tags, slots, rfl⟩
  | some bs =>
    cases hm : s.sends with
    | false => exact ⟨tags, slots, rfl⟩
    | true => exact ⟨_, _, by simp; exact ⟨rfl, rfl⟩⟩

/-- A cell of the out-run leaves downstream and moves the passage on. -/
theorem State.outCell_flu (b : Block) (h : s.flu.out.stage = .cells ∧ s.flu.out.next < 96) : ∃ b1, (s.outCell b).flu =
    { s.flu with out := { s.flu.out with next := s.flu.out.next + 1 },
                 txDown := { s.flu.txDown with cells := s.flu.txDown.cells ++ [b1] } } := by
  unfold State.outCell
  rw [if_pos h]
  dsimp only
  cases s.sends with
  | false => exact ⟨s.cellBefore b, rfl⟩
  | true => exact ⟨(s.decideCell (s.cellBefore b)).2, by simp⟩

end Sys2Proof.Machine

/-! Proofs, section 3. The bounds of the Fibre Line Unit (R13, R16 to R20, R23) are kept by every operation, and so by every
step. -/

namespace Sys2Proof.Machine

set_option Elab.async false

/-! ### Bounds by fields -/

/-- The bounds speak of seven fields; an operation that keeps them all keeps the bounds. -/
theorem Flu.Bounded.of_fields {u v : Flu} (h : u.Bounded) (meas : v.meas = u.meas := by rfl)
    (entries : v.entries = u.entries := by rfl) (runUp : v.runUp = u.runUp := by rfl)
    (watch : v.returnWatch = u.returnWatch := by rfl) (returnMiss : v.returnMiss = u.returnMiss := by rfl)
    (absence : v.absence = u.absence := by rfl) (miss : v.miss = u.miss := by rfl) : v.Bounded :=
  ⟨meas ▸ h.meas, entries ▸ h.entries, runUp ▸ h.runUp, watch ▸ h.returnWatch, returnMiss ▸ h.returnMiss,
    absence ▸ h.absence, miss ▸ h.miss⟩

variable {s : State}

/-- An operation outside the FLU keeps the bounds. -/
theorem Frame.bounded {ps : List Part} {t : State} (k : Frame ps s t) (h : s.flu.Bounded)
    (m : Part.flu ∉ ps := by decide) : t.flu.Bounded := k.keeps_flu m ▸ h

theorem Flu.Bounded.ite {c : Prop} [Decidable c] {a b : State} (ha : a.flu.Bounded) (hb : b.flu.Bounded) :
    (if c then a else b).flu.Bounded := by
  split
  · exact ha
  · exact hb

theorem Flu.Bounded.foldl {α : Type} (f : State → α → State) (l : List α) (h : s.flu.Bounded)
    (hf : ∀ (u : State) x, u.flu.Bounded → (f u x).flu.Bounded) : (l.foldl f s).flu.Bounded := by
  induction l generalizing s with
  | nil => exact h
  | cons x l ih => exact ih (hf s x h)

/-- Counts that do not grow keep the bounds. -/
theorem Flu.Bounded.of_le {u v : Flu} (h : u.Bounded) (meas : v.meas = u.meas := by rfl)
    (entries : v.entries = u.entries := by rfl) (runUp : v.runUp ≤ 16) (returnMiss : v.returnMiss ≤ 255)
    (watch : v.returnWatch = u.returnWatch := by rfl)
    (absence : v.absence = u.absence := by rfl) (miss : v.miss = u.miss := by rfl) : v.Bounded :=
  ⟨meas ▸ h.meas, entries ▸ h.entries, runUp, watch ▸ h.returnWatch, returnMiss, absence ▸ h.absence, miss ▸ h.miss⟩

theorem Flu.reset_bounded : Flu.reset.Bounded :=
  ⟨by decide, by decide, by decide, by decide, by decide, by decide, by decide⟩

/-! ### Measurements (R19) -/

theorem addMeas_length (m : List Nat) (r : Nat) (h : m.length ≤ 16) : (addMeas m r).length ≤ 16 := by
  unfold addMeas
  by_cases hm : Config.measCount ≤ m.length
  · simp only [if_pos hm, List.length_append, List.length_drop, List.length_singleton]
    omega
  · simp only [if_neg hm, List.length_append, List.length_singleton]
    exact Nat.lt_of_not_le hm

theorem Flu.Bounded.withMeas {u v : Flu} (h : u.Bounded) (meas : v.meas.length ≤ 16)
    (entries : v.entries = u.entries := by rfl) (runUp : v.runUp = u.runUp := by rfl)
    (watch : v.returnWatch = u.returnWatch := by rfl) (returnMiss : v.returnMiss = u.returnMiss := by rfl)
    (absence : v.absence = u.absence := by rfl) (miss : v.miss = u.miss := by rfl) : v.Bounded :=
  ⟨meas, entries ▸ h.entries, runUp ▸ h.runUp, watch ▸ h.returnWatch, returnMiss ▸ h.returnMiss,
    absence ▸ h.absence, miss ▸ h.miss⟩

/-! ### Ring states and epochs -/

theorem Flu.Bounded.left {u : Flu} (h : u.Bounded) : u.left.Bounded := h.withMeas (Nat.zero_le _)

theorem Flu.Bounded.watched {u : Flu} (h : u.Bounded) : u.watched.Bounded := by
  refine ⟨h.meas, h.entries, h.runUp, ?_, h.returnMiss, h.absence, h.miss⟩
  unfold Flu.watched
  dsimp only
  split
  · exact h.returnWatch
  · exact Nat.min_le_left _ _

theorem Flu.Bounded.headerEpoch {u : Flu} (h : u.Bounded) (e : PendingEntry) (now : Nat) :
    (u.headerEpoch e now).Bounded :=
  ⟨h.meas, h.entries, h.runUp, h.returnWatch, h.returnMiss, h.absence, Nat.zero_le _⟩

theorem Flu.Bounded.synthesize {u : Flu} (h : u.Bounded) (now : Nat) : (u.synthesize now).Bounded :=
  ⟨h.meas, h.entries, h.runUp, h.returnWatch, h.returnMiss, h.absence, Nat.min_le_left _ _⟩

theorem State.takeEntry_bounded (h : s.flu.Bounded) (e : PendingEntry) : (s.takeEntry e).flu.Bounded := by
  rw [State.takeEntry_flu]
  split
  · exact ⟨h.meas, h.entries, h.runUp, h.returnWatch, h.returnMiss, h.absence, Nat.zero_le _⟩
  · exact (h.headerEpoch e s.now).watched

/-- Taking an entry leaves the pending list alone. -/
theorem State.takeEntry_entries (e : PendingEntry) : (s.takeEntry e).flu.entries = s.flu.entries := by
  rw [State.takeEntry_flu]
  split <;> rfl

theorem State.takeOldest_entries : s.takeOldest.flu.entries = s.flu.entries.tail := by
  unfold State.takeOldest
  split
  · rename_i h; rw [h]; rfl
  · rename_i h; rw [h, State.takeEntry_entries]; rfl

theorem State.takeOldest_bounded (h : s.flu.Bounded) : s.takeOldest.flu.Bounded := by
  unfold State.takeOldest
  split
  · exact h
  · rename_i e rest he
    have k := h.entries
    rw [he] at k
    have k1 : ({ s.flu with entries := rest } : Flu).Bounded :=
      ⟨h.meas, Nat.le_of_succ_le k, h.runUp, h.returnWatch, h.returnMiss, h.absence, h.miss⟩
    exact State.takeEntry_bounded (s := s.onFlu fun u => { u with entries := rest }) k1 e

theorem State.takeDue_bounded (h : s.flu.Bounded) (n : Nat) : (s.takeDue n).flu.Bounded := by
  induction n generalizing s with
  | zero => exact h
  | succ n ih =>
    unfold State.takeDue
    exact Flu.Bounded.ite (ih (State.takeOldest_bounded h)) h

theorem State.takeDue_entries_le (n : Nat) : (s.takeDue n).flu.entries.length ≤ s.flu.entries.length := by
  induction n generalizing s with
  | zero => exact le_refl _
  | succ n ih =>
    unfold State.takeDue
    split
    · refine (ih (s := s.takeOldest)).trans ?_
      rw [State.takeOldest_entries, List.length_tail]
      exact Nat.sub_le _ _
    · exact le_refl _

/-- The oldest of three entries is taken first, so the list has place for one more (R20). -/
theorem State.placeEntry_bounded (h : s.flu.Bounded) (e : Bool → PendingEntry) : (s.placeEntry e).flu.Bounded := by
  unfold State.placeEntry
  dsimp only
  have key : ∀ u : State, u.flu.Bounded → u.flu.entries.length ≤ 2 →
      (u.onFlu fun v => { v with entries := v.entries ++ [e v.resyncArmed] }).flu.Bounded := fun u k l =>
    ⟨k.meas, by simp only [State.onFlu_flu, List.length_append, List.length_singleton]; omega, k.runUp, k.returnWatch, k.returnMiss, k.absence, k.miss⟩
  split
  · refine key _ (State.takeDue_bounded (State.takeOldest_bounded h) 2) ((State.takeDue_entries_le 2).trans ?_)
    rw [State.takeOldest_entries, List.length_tail]
    have := h.entries
    omega
  · exact key s h (by omega)

theorem State.synthesize_bounded (h : s.flu.Bounded) : s.synthesize.flu.Bounded := by
  rw [State.synthesize_flu]
  split
  · exact (h.synthesize s.now).watched.left
  · exact (h.synthesize s.now).watched

theorem State.takeTimer_bounded (h : s.flu.Bounded) : s.takeTimer.flu.Bounded := by
  unfold State.takeTimer
  exact Flu.Bounded.ite h.of_fields (State.synthesize_bounded h)

theorem State.dueEpoch_bounded (h : s.flu.Bounded) : s.dueEpoch.flu.Bounded := by
  unfold State.dueEpoch
  exact Flu.Bounded.ite (State.takeDue_bounded h 3) (Flu.Bounded.ite (State.takeTimer_bounded h) h)

/-! ### Receivers and frames that end -/

theorem State.endOut_bounded (h : s.flu.Bounded) : s.endOut.flu.Bounded := by
  rw [State.endOut_flu]
  exact h.of_fields

theorem State.resetRunUp_bounded (h : s.flu.Bounded) : s.resetRunUp.flu.Bounded := by
  rw [State.resetRunUp_flu]
  refine h.of_le (runUp := ?_) (returnMiss := h.returnMiss)
  have := h.runUp
  dsimp only
  split <;> omega

theorem State.endRet_bounded (h : s.flu.Bounded) : s.endRet.flu.Bounded := by
  obtain ⟨n, hn, -, e⟩ := s.endRet_flu
  rw [e]
  have := h.runUp
  exact h.of_le (runUp := by dsimp only; omega) (returnMiss := h.returnMiss)

theorem State.endCopy_bounded (h : s.flu.Bounded) : s.endCopy.flu.Bounded := by
  rw [State.endCopy_flu]
  exact h.of_fields

theorem Flu.Bounded.setLink {u : Flu} (h : u.Bounded) (p : Port) (l : Link) : (u.setLink p l).Bounded := by
  cases p <;> exact h.of_fields

theorem State.goDark_bounded (h : s.flu.Bounded) (p : Port) : (s.goDark p).flu.Bounded := by
  unfold State.goDark State.endReception
  rw [State.noticeEnd_flu]
  refine Flu.Bounded.setLink ?_ p _
  cases p with
  | upstream => exact Flu.Bounded.ite h (State.endOut_bounded h)
  | downstream => exact State.endRet_bounded h

theorem State.lightOn_bounded (h : s.flu.Bounded) (p : Port) : (s.lightOn p).flu.Bounded := by
  unfold State.lightOn
  refine Flu.Bounded.ite ?_ h
  rw [State.noticeEnd_flu]
  exact h.setLink p _

theorem State.lockDone_bounded (h : s.flu.Bounded) (p : Port) : (s.lockDone p).flu.Bounded :=
  Flu.Bounded.ite (h.setLink p _) h

theorem State.clockBad_bounded (h : s.flu.Bounded) (p : Port) : (s.clockBad p).flu.Bounded := by
  unfold State.clockBad
  split
  · exact h
  · exact h.setLink p _
  · exact State.goDark_bounded h p

theorem State.lightOff_bounded (h : s.flu.Bounded) (p : Port) : (s.lightOff p).flu.Bounded := by
  unfold State.lightOff
  split
  · exact h
  · exact State.goDark_bounded h p
  · exact State.goDark_bounded h p

/-! ### The out-run -/

theorem State.follow_bounded (h : s.flu.Bounded) (p : Nat) : (s.follow p).flu.Bounded := by
  refine h.withMeas ?_
  show (if s.flu.position = some p then s.flu.meas else []).length ≤ 16
  split
  · exact h.meas
  · exact Nat.zero_le _

theorem State.ringHeader_bounded (h : s.flu.Bounded) (p : Nat) : (s.ringHeader p).flu.Bounded := by
  unfold State.ringHeader
  split
  · exact State.follow_bounded h.of_fields p
  · exact State.follow_bounded h p
  · refine Flu.Bounded.ite h ?_
    rw [State.leaveRing_flu]
    exact Flu.Bounded.left h.of_fields

theorem State.beginMeasure_bounded (h : s.flu.Bounded) (c : Word) : (s.beginMeasure c).flu.Bounded :=
  Flu.Bounded.ite (h.withMeas (addMeas_length _ _ h.meas)) h.of_fields

theorem State.tryJoin_bounded (h : s.flu.Bounded) (w : RingState) (p : Nat) : (s.tryJoin w p).flu.Bounded := by
  refine Flu.Bounded.ite ?_ h
  rw [State.enterJoined_flu]
  exact h.of_fields

theorem State.goodHeader_bounded (h : s.flu.Bounded) (x : HeaderFields) : (s.goodHeader x).flu.Bounded := by
  unfold State.goodHeader
  dsimp only
  have k := State.tryJoin_bounded (State.beginMeasure_bounded (State.ringHeader_bounded h (x.hop + 1)) x.cycle)
    s.flu.ring (x.hop + 1)
  refine State.placeEntry_bounded (Flu.Bounded.ite ?_ ?_) _ <;> exact k.of_fields

theorem State.outHeader_bounded (h : s.flu.Bounded) (b : Block) : (s.outHeader b).flu.Bounded := by
  unfold State.outHeader
  refine Flu.Bounded.ite h ?_
  split
  · exact Flu.Bounded.ite (State.goodHeader_bounded h.of_fields _) h.of_fields
  · exact h.of_fields

theorem State.outTrip_bounded (h : s.flu.Bounded) (b : Block) : (s.outTrip b).flu.Bounded := by
  by_cases hs : s.flu.out.stage = .trip
  · obtain ⟨b1, e⟩ := s.outTrip_flu b hs
    rw [e]
    exact h.of_fields
  · rw [State.outTrip, if_pos hs]
    exact h

theorem State.outSlots_bounded (h : s.flu.Bounded) (tags : Block) (l : List Block) : (s.outSlots tags l).flu.Bounded := by
  by_cases hs : s.flu.out.stage = .tags
  · obtain ⟨b1, l1, e⟩ := s.outSlots_flu tags l hs
    rw [e]
    exact h.of_fields
  · rw [State.outSlots, if_pos hs]
    exact h

theorem State.outCell_bounded (h : s.flu.Bounded) (b : Block) : (s.outCell b).flu.Bounded := by
  by_cases hs : s.flu.out.stage = .cells ∧ s.flu.out.next < 96
  · obtain ⟨b1, e⟩ := s.outCell_flu b hs
    rw [e]
    exact h.of_fields
  · rw [State.outCell, if_neg hs]
    exact h

theorem State.outEnd_bounded (h : s.flu.Bounded) : s.outEnd.flu.Bounded := Flu.Bounded.ite (State.endOut_bounded h) h

/-! ### The return run -/

theorem State.onReturn_bounded (h : s.flu.Bounded) (c : Bool) (f : Passage → Passage) :
    (s.onReturn c f).flu.Bounded := by
  cases c <;> exact h.of_fields

theorem State.measure_bounded (h : s.flu.Bounded) (c : Word) : (s.measure c).flu.Bounded := by
  unfold State.measure
  split
  · exact h.withMeas (addMeas_length _ _ h.meas)
  · exact h

theorem State.seeReturn_bounded (h : s.flu.Bounded) : s.seeReturn.flu.Bounded := by
  unfold State.seeReturn
  rw [State.noticeEnd_flu]
  exact ⟨h.meas, h.entries, h.runUp, Nat.zero_le _, h.returnMiss, h.absence, h.miss⟩

theorem State.goodReturn_bounded (h : s.flu.Bounded) (x : HeaderFields) : (s.goodReturn x).flu.Bounded := by
  unfold State.goodReturn
  have k := State.onReturn_bounded h false fun p => { p.headed x with stage := .trip }
  have k2 := State.seeReturn_bounded k
  exact Flu.Bounded.ite (Flu.Bounded.ite k.of_fields k)
    (Flu.Bounded.ite (Flu.Bounded.ite (State.measure_bounded k2 _) k2) (State.onReturn_bounded h false _))

theorem State.retHeader_bounded (h : s.flu.Bounded) (src : ReturnSource) : (s.retHeader src).flu.Bounded := by
  unfold State.retHeader
  split
  · exact Flu.Bounded.ite (State.onReturn_bounded h.of_fields _ _) h
  · rename_i b
    refine Flu.Bounded.ite h ?_
    have k : (if s.flu.ret.used && !s.isMaster then s.sendUp b else s).flu.Bounded := Flu.Bounded.ite h.of_fields h
    dsimp only
    split
    · exact State.goodReturn_bounded k _
    · exact State.onReturn_bounded (State.resetRunUp_bounded k) _ _

theorem nextAbsence_le (req pres : Word) (a : Vector Nat 32) (h : ∀ p : Fin 32, a[p] ≤ 255) (p : Fin 32) :
    (nextAbsence req pres a)[p] ≤ 255 := by
  have k := h p
  simp only [nextAbsence, Fin.getElem_fin, Vector.getElem_ofFn] at k ⊢
  split
  · split <;> omega
  · exact k

theorem State.runUpTrip_bounded (h : s.flu.Bounded) (x : TripFields) : (s.runUpTrip x).flu.Bounded := by
  unfold State.runUpTrip
  refine Flu.Bounded.ite ?_ (h.of_le (runUp := Nat.zero_le _) (returnMiss := h.returnMiss))
  split
  · exact ⟨h.meas, h.entries, le_refl _, h.returnWatch, h.returnMiss, fun p => by simp, h.miss⟩
  · rename_i hn
    exact h.of_le (runUp := Nat.le_of_lt (Nat.lt_of_not_le hn)) (returnMiss := h.returnMiss)

theorem State.absenceTrip_bounded (h : s.flu.Bounded) (x : TripFields) : (s.absenceTrip x).flu.Bounded := by
  unfold State.absenceTrip
  have k : ({ s.flu with absence := nextAbsence s.cfg.required x.presence s.flu.absence } : Flu).Bounded :=
    ⟨h.meas, h.entries, h.runUp, h.returnWatch, h.returnMiss, nextAbsence_le _ _ _ h.absence, h.miss⟩
  rw [State.handStamped_flu]
  exact k

theorem State.masterTrip_bounded (h : s.flu.Bounded) (x : TripFields) : (s.masterTrip x).flu.Bounded := by
  unfold State.masterTrip
  have k : (s.masterReturnTrip x).flu.Bounded := h
  exact Flu.Bounded.ite (State.runUpTrip_bounded k x) (State.absenceTrip_bounded k x)

theorem State.memberRetTrip_bounded (h : s.flu.Bounded) (b : Block) : (s.memberRetTrip b).flu.Bounded := by
  unfold State.memberRetTrip
  split <;> exact h.of_fields

theorem State.arrivedTrip_bounded (h : s.flu.Bounded) (b : Block) : (s.arrivedTrip b).flu.Bounded := by
  unfold State.arrivedTrip
  refine Flu.Bounded.ite (Flu.Bounded.ite ?_ h)
    (Flu.Bounded.ite h (Flu.Bounded.ite (State.memberRetTrip_bounded h b) h.of_fields))
  split
  · exact State.masterTrip_bounded h _
  · exact State.resetRunUp_bounded h

theorem State.retTrip_bounded (h : s.flu.Bounded) (src : ReturnSource) : (s.retTrip src).flu.Bounded := by
  unfold State.retTrip
  split
  · exact Flu.Bounded.ite (State.onReturn_bounded (State.memberRetTrip_bounded h _) _ _) h
  · exact Flu.Bounded.ite (State.onReturn_bounded (State.arrivedTrip_bounded h _) _ _) h

theorem State.retSlot_bounded (h : s.flu.Bounded) (n : Fin 128) (src : SlotSource) : (s.retSlot n src).flu.Bounded := by
  have k : ∀ p x y, (s.slotArrives p n x y).flu.Bounded := fun p x y => s.slotArrives_flu p n x y ▸ h
  unfold State.retSlot
  split
  · refine Flu.Bounded.ite ?_ h
    split
    · exact State.onReturn_bounded (k ..) _ _
    · exact h
  · exact Flu.Bounded.ite (State.onReturn_bounded (k ..) _ _) h

theorem State.sendArea_bounded (h : s.flu.Bounded) (src : AreaSource) : (s.sendArea src).flu.Bounded := by
  unfold State.sendArea
  refine Flu.Bounded.ite ?_ h
  split <;> exact h.of_fields

theorem State.retSlotsEnd_bounded (h : s.flu.Bounded) (src : AreaSource) : (s.retSlotsEnd src).flu.Bounded := by
  unfold State.retSlotsEnd
  exact Flu.Bounded.ite (State.onReturn_bounded (State.sendArea_bounded
    (Flu.Bounded.ite (s.endSlotArea_flu ▸ h) h) src) _ _) h

theorem State.passCell_bounded (h : s.flu.Bounded) (c : Bool) (b : Block) : (s.passCell c b).flu.Bounded := by
  have k : ∀ p, (s.cellArrives p b).flu.Bounded := fun p => s.cellArrives_flu p b ▸ h
  unfold State.passCell State.sendCell
  exact State.onReturn_bounded (Flu.Bounded.ite (k _).of_fields (k _)) _ _

theorem State.retCell_bounded (h : s.flu.Bounded) (src : ReturnSource) : (s.retCell src).flu.Bounded := by
  unfold State.retCell
  split
  · refine Flu.Bounded.ite ?_ h
    split
    · exact State.passCell_bounded h _ _
    · exact h
  · exact Flu.Bounded.ite (State.passCell_bounded h _ _) h

/-! ### The start of a frame, and the origination -/

theorem State.drainCopy_bounded (h : s.flu.Bounded) : s.drainCopy.flu.Bounded := by
  unfold State.drainCopy
  refine State.endCopy_bounded (Flu.Bounded.foldl _ _ (State.retSlotsEnd_bounded (Flu.Bounded.foldl _ _
    (State.retTrip_bounded (State.retHeader_bounded h _) _) ?_) _) ?_)
  · exact fun u n k => State.retSlot_bounded k n _
  · exact fun u _ k => State.retCell_bounded k _

theorem State.disregardRet_bounded (h : s.flu.Bounded) : s.disregardRet.flu.Bounded := by
  have k : (s.endReturnStage s.flu.ret).flu.Bounded := (s.endReturnStage_flu s.flu.ret).symm ▸ h
  exact k.of_fields

theorem State.startOut_bounded (h : s.flu.Bounded) : s.startOut.flu.Bounded := by
  unfold State.startOut
  refine Flu.Bounded.ite h ?_
  have k := State.drainCopy_bounded (State.endOut_bounded h)
  exact (Flu.Bounded.ite (c := s.isEndNode = true) (State.disregardRet_bounded k) k).of_fields

theorem State.startFrame_bounded (h : s.flu.Bounded) (p : Port) : (s.startFrame p).flu.Bounded := by
  unfold State.startFrame
  refine Flu.Bounded.ite ?_ h
  cases p with
  | upstream => exact State.startOut_bounded h
  | downstream => exact (State.endRet_bounded h).of_fields

theorem State.judgeReturn_bounded (h : s.flu.Bounded) : s.judgeReturn.flu.Bounded := by
  unfold State.judgeReturn
  refine Flu.Bounded.ite h (Flu.Bounded.ite ?_ (State.resetRunUp_bounded ?_))
  · exact h.of_le (runUp := h.runUp) (returnMiss := Nat.zero_le _)
  · exact h.of_le (runUp := h.runUp) (returnMiss := Nat.min_le_left _ _)

theorem State.finishCells_bounded (h : s.flu.Bounded) : s.finishCells.flu.Bounded :=
  Flu.Bounded.ite (State.endOut_bounded (Flu.Bounded.foldl _ _ h fun _ _ k => State.outCell_bounded k _)) h

theorem State.originate_bounded (h : s.flu.Bounded) : s.originate.flu.Bounded := by
  have k : s.finishCells.judgeReturn.handMasterLoss.flu.Bounded :=
    (State.handMasterLoss_fr _).bounded (State.judgeReturn_bounded (State.finishCells_bounded h))
  have k1 : s.finishCells.judgeReturn.handMasterLoss.countFrame.flu.Bounded := k.of_fields
  have k2 : s.finishCells.judgeReturn.handMasterLoss.countFrame.formTrip.1.formSlots.1.openClaims.flu.Bounded := by
    rw [State.openClaims_flu, State.formSlots_flu, State.formTrip_flu]
    exact k1
  unfold State.originate
  dsimp only
  generalize s.finishCells.judgeReturn.handMasterLoss.countFrame.formTrip.1.formSlots.1.openClaims = u at k2 ⊢
  refine State.placeEntry_bounded ?_ _
  exact k2.of_fields

theorem State.takeOrigin_bounded (h : s.flu.Bounded) : s.takeOrigin.flu.Bounded :=
  Flu.Bounded.ite (State.originate_bounded h) h

/-! ### The bus: a notice clear clears the position-changed mark (R195) -/

theorem State.clearKept_bounded (h : s.flu.Bounded) (f : BitVec 16) : (s.clearKept f).flu.Bounded := by
  unfold State.clearKept
  have k1 := Flu.Bounded.ite (c := f.getLsbD 1 = true) (a := s.onFlu fun u => { u with changed := false }) h.of_fields h
  have k2 := Flu.Bounded.ite (c := f.getLsbD 3 = true)
    (a := State.onSlu _ fun u => { u with conflicts := 0 }) k1 k1
  have k3 := Flu.Bounded.ite (c := f.getLsbD 4 = true) (a := State.onPtu _ fun p => { p with latch := none }) k2 k2
  exact Flu.Bounded.ite k3 k3

theorem State.takeBeat_bounded (h : s.flu.Bounded) (b : PBeat) : (s.takeBeat b).flu.Bounded := by
  unfold State.takeBeat
  split
  · exact h
  · exact State.clearKept_bounded (s := s.onCnu _) h _
  · exact (s.takeRefresh_fr _).bounded h
  · exact (s.takeTripCommand_fr _ _).bounded h
  · exact (s.takeWithdraw_fr _ _ _).bounded h
  · exact (s.takeRelease_fr _ _).bounded h
  · exact h

theorem State.endCycle_bounded (h : s.flu.Bounded) : s.endCycle.flu.Bounded := by
  unfold State.endCycle
  split
  · exact Flu.Bounded.foldl _ _ h fun u b k => State.takeBeat_bounded k b
  · exact h

theorem State.present_bounded (h : s.flu.Bounded) (w : Bool) (a : BitVec 24) (bs : List Beat) :
    (s.present w a bs).flu.Bounded := by
  unfold State.present State.answerNow
  refine Flu.Bounded.ite ((s.holdCycle_fr _).bounded h) (State.endCycle_bounded ?_)
  exact (State.passBeats_fr _).bounded h

theorem State.burstDone_bounded (h : s.flu.Bounded) : s.burstDone.flu.Bounded := by
  unfold State.burstDone
  split
  · exact h
  · exact (State.urgentBurst_fr _).bounded h
  · exact (State.normalBurst_fr _).bounded h
  · have k := s.passRun_fr.bounded h
    exact Flu.Bounded.ite ((State.nextCycle_fr _).bounded (State.endCycle_bounded k)) k

theorem State.writeOne_bounded (h : s.flu.Bounded) (a : Nat) (b : Beat) : (s.writeOne a b).flu.Bounded := by
  unfold State.writeOne State.carry
  have k := State.present_bounded h true (BitVec.ofNat 24 a) [b]
  have k1 := (State.arbitrate_fr _).bounded k
  exact Flu.Bounded.ite k (Flu.Bounded.ite (State.burstDone_bounded k1) k1)

theorem State.writeIf_bounded (h : s.flu.Bounded) (p : Ident → Bool) (a : BitVec 24) (b : Beat) :
    (s.writeIf p a b).flu.Bounded := Flu.Bounded.ite (State.writeOne_bounded h _ b) h

theorem State.writeFixed_bounded (h : s.flu.Bounded) (k : WindowKind) (off : Nat) (c : Nat → Bool) (b : Beat) :
    (s.writeFixed k off c b).flu.Bounded := by
  unfold State.writeFixed
  split
  · exact Flu.Bounded.ite (State.writeOne_bounded h _ b) h
  · exact h

/-! ### Configuration (R190) -/

theorem Flu.complete_bounded (u : Flu) (m : Bool) (now : Nat) : (u.complete m now).Bounded :=
  ⟨Flu.reset_bounded.meas, Flu.reset_bounded.entries, Flu.reset_bounded.runUp, show 2 ≤ 255 by decide, Flu.reset_bounded.returnMiss,
    Flu.reset_bounded.absence, Flu.reset_bounded.miss⟩

theorem State.readBody_bounded (h : s.flu.Bounded) (bs : List Byte) : (s.readBody bs).flu.Bounded := by
  unfold State.readBody
  split
  · refine Flu.Bounded.ite (Flu.Bounded.ite h ?_) h
    split
    · exact h
    · rename_i c _
      have k : ((s.takeConfig c).notify 14).flu.Bounded := Flu.complete_bounded _ _ _
      have k1 := (State.initialLandings_fr _).bounded k
      have k2 := Flu.Bounded.ite (c := c.master = true) ((State.screensJoin_fr _).bounded k1) k1
      refine (State.reportTrip_fr _ _).bounded (Flu.Bounded.foldl _ _ k2 fun u x l => (State.startFilter_fr u x).bounded l)
  · exact h

/-! ### Every row, every step -/

/-- An event whose effect keeps the bounds keeps them. -/
theorem State.event_bounded {t : State} {dt : Nat} {f : State → State} (e : s.event dt f = .next t) (h : s.flu.Bounded)
    (hf : ∀ u : State, u.flu.Bounded → (f u).flu.Bounded) : t.flu.Bounded := by
  cases e
  rw [State.settle_flu]
  exact hf _ h

theorem State.checked_bounded {t : State} {ok : Bool} {dt : Nat} {f : State → State} (e : s.checked ok dt f = .next t)
    (h : s.flu.Bounded) (hf : ∀ u : State, u.flu.Bounded → (f u).flu.Bounded) : t.flu.Bounded := by
  cases ok with
  | false => cases e
  | true => exact State.event_bounded e h hf

theorem State.whenOutcome_bounded {f : State → State} (p : State → State → Bool)
    (hf : ∀ u : State, u.flu.Bounded → (f u).flu.Bounded) (u : State) (h : u.flu.Bounded) :
    (u.whenOutcome f p).flu.Bounded := Flu.Bounded.ite (hf u h) h

theorem State.epochWith_bounded {t : State} {dt : Nat} {p : State → State → Bool} (e : s.epochWith dt p = .next t)
    (h : s.flu.Bounded) : t.flu.Bounded :=
  State.event_bounded e h (State.whenOutcome_bounded p fun _ => State.dueEpoch_bounded)

theorem execUndefinedCommandCode_bounded {t : State} {dt : Nat} {site : CommandSite}
    (e : execUndefinedCommandCode dt site s = .next t) (h : s.flu.Bounded) : t.flu.Bounded := by
  cases site with
  | shaft => exact State.epochWith_bounded e h
  | axis n => exact State.epochWith_bounded e h
  | trip w b =>
    exact State.event_bounded (f := fun u => u.writeFixed .trip w.val (fun c => !definedCode c) b) e h fun _ k => State.writeFixed_bounded k _ _ _ b
  | refresh b =>
    exact State.event_bounded (f := fun u => u.writeFixed .node 4 (fun c => !definedCode c) b) e h fun _ k => State.writeFixed_bounded k _ _ _ b

theorem execFlashBodyRead_bounded {t : State} {dt : Nat} {bs : List Byte} (e : execFlashBodyRead dt bs s = .next t)
    (h : s.flu.Bounded) : t.flu.Bounded := by
  unfold execFlashBodyRead at e
  split at e
  · cases e
    exact (State.arbitrate_fr _).bounded (State.readBody_bounded (s := s.elapse dt) h bs)
  · cases e

/-- Every command keeps the bounds: by its row, the FLU's operations above, or the row's frame where it is not the FLU's. -/
theorem exec_bounded {t : State} (c : Instr) (h : s.flu.Bounded) (e : exec c s = .next t) : t.flu.Bounded := by
  cases c with
  | pinReset dt => cases e; exact Flu.reset_bounded
  | flashHeaderRead dt bs => exact (execFlashHeaderRead_fr dt bs s e).bounded h
  | flashBodyRead dt bs => exact execFlashBodyRead_bounded e h
  | lightDetected dt p =>
    exact State.event_bounded (f := fun u => u.lightOn p) e h fun _ k => State.lightOn_bounded k p
  | lockIntervalExpiry dt p =>
    exact State.event_bounded (f := fun u => u.lockDone p) e h fun _ k => State.lockDone_bounded k p
  | clockOutOfBand dt p =>
    exact State.event_bounded (f := fun u => u.clockBad p) e h fun _ k => State.clockBad_bounded k p
  | lightLost dt p =>
    exact State.event_bounded (f := fun u => u.lightOff p) e h fun _ k => State.lightOff_bounded k p
  | startSymbol dt p =>
    exact State.event_bounded (f := fun u => u.startFrame p) e h fun _ k => State.startFrame_bounded k p
  | outRunHeader dt b => exact State.checked_bounded e h fun _ k => State.outHeader_bounded k b
  | entryIntoJoined dt b =>
    exact State.checked_bounded e h (State.whenOutcome_bounded _ fun _ k => State.outHeader_bounded k b)
  | outRunTripBlock dt b => exact State.checked_bounded e h fun _ k => State.outTrip_bounded k b
  | insertionDecision dt x l => exact State.checked_bounded e h fun _ k => State.outSlots_bounded k x l
  | cellDecision dt b => exact State.checked_bounded e h fun _ k => State.outCell_bounded k b
  | claimPassageEnd dt => exact State.event_bounded e h fun _ k => State.outEnd_bounded k
  | returnHeader dt src => exact State.checked_bounded e h fun _ k => State.retHeader_bounded k src
  | returnTripBlock dt src => exact State.checked_bounded e h fun _ k => State.retTrip_bounded k src
  | passageToRun dt b =>
    exact State.checked_bounded e h (State.whenOutcome_bounded _ fun _ k => State.retTrip_bounded k _)
  | slotReception dt n src => exact State.checked_bounded e h fun _ k => State.retSlot_bounded k n src
  | slotAreaEnd dt src => exact State.checked_bounded e h fun _ k => State.retSlotsEnd_bounded k src
  | cellDelivery dt src => exact State.checked_bounded e h fun _ k => State.retCell_bounded k src
  | origination dt =>
    exact State.event_bounded (f := State.takeOrigin) e h fun _ k => State.takeOrigin_bounded k
  | masterRingLoss dt =>
    exact State.event_bounded (f := fun u => u.whenOutcome State.takeOrigin losesReturn) e h
      (State.whenOutcome_bounded _ fun _ k => State.takeOrigin_bounded k)
  | nodeMissing dt b =>
    exact State.checked_bounded e h (State.whenOutcome_bounded _ fun _ k => State.retTrip_bounded k _)
  | applyInstant dt =>
    exact State.event_bounded (f := fun u => if u.configured then u.takeDue 3 else u) e h fun _ k => Flu.Bounded.ite (State.takeDue_bounded k 3) k
  | localCycleTimerExpiry dt =>
    exact State.event_bounded (f := fun u => if u.timerDue then u.takeTimer else u) e h fun _ k => Flu.Bounded.ite (State.takeTimer_bounded k) k
  | ringLoss dt => exact State.epochWith_bounded e h
  | endNodeCondition dt => exact State.epochWith_bounded e h
  | rampEnd dt => exact State.epochWith_bounded e h
  | stopRampEnd dt => exact State.epochWith_bounded e h
  | localStopEnd dt => exact State.epochWith_bounded e h
  | sourceLost dt n => exact State.epochWith_bounded e h
  | stopTimeout dt => exact State.epochWith_bounded e h
  | streamTimeout dt n => exact State.epochWith_bounded e h
  | sweep dt n => exact State.epochWith_bounded e h
  | slotStale dt w k => exact State.epochWith_bounded e h
  | starvation dt => exact (execStarvation_fr dt s e).bounded h
  | tripInputActive dt n l => exact (execTripInputActive_fr dt n l s e).bounded h
  | filterExpiry dt n => exact (execFilterExpiry_fr dt n s e).bounded h
  | tripInputInactive dt n l => exact (execTripInputInactive_fr dt n l s e).bounded h
  | exposureEdge dt n l => exact (execExposureEdge_fr dt n l s e).bounded h
  | firing dt n => exact (execFiring_fr dt n s e).bounded h
  | pulseTimerExpiry dt n => exact (execPulseTimerExpiry_fr dt n s e).bounded h
  | keyRowReading dt cols => exact (execKeyRowReading_fr dt cols s e).bounded h
  | pPortCycle dt w a bs => exact State.checked_bounded e h fun _ k => State.present_bounded k w a bs
  | mPortBurstCompletion dt => exact State.event_bounded e h fun _ k => State.burstDone_bounded k
  | setTarget dt => exact State.epochWith_bounded e h
  | hold dt => exact State.epochWith_bounded e h
  | engage dt n => exact State.epochWith_bounded e h
  | disengage dt n => exact State.epochWith_bounded e h
  | setGear dt n => exact State.epochWith_bounded e h
  | setOffset dt n => exact State.epochWith_bounded e h
  | setSource dt n => exact State.epochWith_bounded e h
  | undefinedCommandCode dt site => exact execUndefinedCommandCode_bounded e h
  | tripRequest dt b =>
    exact State.event_bounded (f := fun u => u.writeFixed .trip 0 definedCode b) e h fun _ k => State.writeFixed_bounded k _ _ _ b
  | resetRequest dt b =>
    exact State.event_bounded (f := fun u => u.writeFixed .trip 1 definedCode b) e h fun _ k => State.writeFixed_bounded k _ _ _ b
  | enableRequest dt b =>
    exact State.event_bounded (f := fun u => u.writeFixed .trip 2 definedCode b) e h fun _ k => State.writeFixed_bounded k _ _ _ b
  | noticeMask dt b =>
    exact State.event_bounded (f := fun u => u.writeFixed .node 2 (fun _ => true) b) e h fun _ k => State.writeFixed_bounded k _ _ _ b
  | noticeClear dt b =>
    exact State.event_bounded (f := fun u => u.writeFixed .node 3 (fun _ => true) b) e h fun _ k => State.writeFixed_bounded k _ _ _ b
  | screenRefreshCommand dt b =>
    exact State.event_bounded (f := fun u => u.writeFixed .node 4 definedCode b) e h fun _ k => State.writeFixed_bounded k _ _ _ b
  | commit dt a b =>
    exact State.event_bounded (f := fun u => u.writeIf Ident.isCommit a b) e h fun _ k => State.writeIf_bounded k _ a b
  | withdraw dt a b =>
    exact State.event_bounded (f := fun u => u.writeIf Ident.isWithdraw a b) e h fun _ k => State.writeIf_bounded k _ a b
  | release dt a b =>
    exact State.event_bounded (f := fun u => u.writeIf Ident.isRelease a b) e h fun _ k => State.writeIf_bounded k _ a b
  | camOutBeat dt a b =>
    exact State.event_bounded (f := fun u => u.writeIf Ident.isCamOut a b) e h fun _ k => State.writeIf_bounded k _ a b
  | screenOutBeat dt a b =>
    exact State.event_bounded (f := fun u => u.writeIf Ident.isScreenOut a b) e h fun _ k => State.writeIf_bounded k _ a b
  | blockedWrite dt a b =>
    exact State.event_bounded (f := fun u => u.writeIf Ident.isLanded a b) e h fun _ k => State.writeIf_bounded k _ a b
  | registerWrite dt a b =>
    exact State.event_bounded (f := fun u => u.writeIf Ident.isRegister a b) e h fun _ k => State.writeIf_bounded k _ a b

/-- Settles O9: a step is a command (`exec_bounded`) or one tick. -/
theorem everyStepKeepsTheLineUnitBounded : Obligations.EveryStepKeepsTheLineUnitBounded := by
  intro s t h e
  unfold step at e
  split at e
  · cases e; exact h
  · rename_i c rest _
    exact exec_bounded (s := { s with pending := rest }) c h e

end Sys2Proof.Machine

/-! Proofs, section 4. Steps, pin reset, sealed blocks, and the receivers of the fibre ports (R1, R2, R5, R187). -/

namespace Sys2Proof.Machine

set_option Elab.async false

/-! ### Steps -/

theorem step_cons {s : State} {c : Instr} {rest : List Instr} (h : s.pending = c :: rest) :
    step s = exec c { s with pending := rest } := by
  unfold step
  rw [h]

theorem step_nil {s : State} (h : s.pending = []) : step s = .next (s.elapse 1) := by
  unfold step
  rw [h]

/-- Settles O1. -/
theorem stepRunsTheFrontCommand : Obligations.StepRunsTheFrontCommand :=
  ⟨fun _ _ _ h => step_cons h, fun _ h => step_nil h⟩

/-! ### Pin reset (R46, R187) -/

/-- A channel after pin reset keeps the level at its pin alone. -/
theorem State.pinReset_ch (s : State) (i : Fin 4) :
    s.pinReset.cmu.ch[i] = { Channel.reset with expLevel := s.cmu.ch[i].expLevel } := by
  simp [State.pinReset, State.withPins, State.reset, Cmu.reset]

/-- Settles O17: every block by computation, the camera channels by `State.pinReset_ch`. -/
theorem pinResetRestoresEveryBlock : Obligations.PinResetRestoresEveryBlock := by
  intro dt s
  refine ⟨(s.elapse dt).pinReset, rfl, rfl, rfl, rfl, rfl, rfl, rfl, rfl, rfl, fun i => ?_, rfl, rfl, rfl, rfl, rfl, rfl,
    rfl, rfl, (execPinReset_fr dt s rfl).only⟩
  rw [State.pinReset_ch]
  simp [State.reset, Cmu.reset]

/-! ### Sealed blocks (R5) -/

theorem blockBytes_map_some (bs : List Byte) : blockBytes (bs.map some) = some bs := by
  induction bs with
  | nil => rfl
  | cons b bs ih => simp [blockBytes, ih]

theorem crcBytes_length (c : BitVec 16) : (crcBytes c).length = 2 := by
  simp [crcBytes, beBytes]

/-- The check of a sealed block is that of the bytes before it. -/
theorem goodBytes_sealed (bs : List Byte) {n : Nat} (h : n = bs.length + 2) :
    goodBytes n (sealed bs) = some (bs ++ crcBytes (crc16 bs)) := by
  subst h
  unfold goodBytes sealed
  rw [blockBytes_map_some]
  simp [crcBytes_length]

/-- Settles O11. -/
theorem sealedBlocksAreGood : Obligations.SealedBlocksAreGood := fun bs => goodBytes_sealed bs rfl

/-! ### Receivers (R2) -/

section
variable (s : State)

theorem Flu.link_setLink (u : Flu) (p : Port) (l : Link) : (u.setLink p l).link p = l := by cases p <;> rfl

theorem Flu.link_setLink_of_ne (u : Flu) {p q : Port} (l : Link) (h : q ≠ p) : (u.setLink p l).link q = u.link q := by
  cases p <;> cases q <;> first | rfl | exact absurd rfl h

theorem Flu.setLink_out (u : Flu) (p : Port) (l : Link) : (u.setLink p l).out = u.out := by cases p <;> rfl
theorem Flu.setLink_ret (u : Flu) (p : Port) (l : Link) : (u.setLink p l).ret = u.ret := by cases p <;> rfl
theorem Flu.setLink_copy (u : Flu) (p : Port) (l : Link) : (u.setLink p l).copy = u.copy := by cases p <;> rfl
theorem Flu.setLink_position (u : Flu) (p : Port) (l : Link) : (u.setLink p l).position = u.position := by
  cases p <;> rfl

/-- The end of a reception leaves both receivers and the copy alone; it ends the port's own passage, but not the master's
own out-run frame. -/
structure Flu.ReceptionEnded (u v : Flu) (p : Port) (master : Bool) : Prop where
  link : v.link = u.link
  copy : v.copy = u.copy
  member : p = .upstream → master = false → v.out.stage = .idle
  master : p = .upstream → master = true → v.out = u.out
  down : p = .downstream → v.ret.stage = .idle

theorem State.endReception_ended (p : Port) : s.flu.ReceptionEnded (s.endReception p).flu p s.isMaster := by
  cases p with
  | upstream =>
    unfold State.endReception
    dsimp only
    cases hm : s.isMaster with
    | true => exact ⟨rfl, rfl, fun _ h => (Bool.noConfusion h), fun _ _ => rfl, fun h => (Port.noConfusion h)⟩
    | false =>
      rw [if_neg (by simp), State.endOut_flu]
      exact ⟨rfl, rfl, fun _ _ => rfl, fun _ h => (Bool.noConfusion h), fun h => (Port.noConfusion h)⟩
  | downstream =>
    obtain ⟨n, -, -, e⟩ := s.endRet_flu
    unfold State.endReception
    dsimp only
    rw [e]
    exact ⟨rfl, rfl, fun h => (Port.noConfusion h), fun h => (Port.noConfusion h), fun _ => rfl⟩

theorem State.goDark_flu (p : Port) :
    (s.goDark p).flu =
      (s.endReception p).flu.setLink p { state := .dark, since := ((s.endReception p).flu.link p).since } := by
  unfold State.goDark
  rw [State.noticeEnd_flu]
  rfl

/-- What R2 says of a port that goes DARK, of the state the event leaves. -/
theorem State.goDark_settled {dt : Nat} {p q : Port} (h : q ≠ p) :
    let t := State.settle (s.elapse dt) ((s.elapse dt).goDark p)
    (t.flu.link p).state = .dark ∧ t.flu.link q = s.flu.link q ∧
      (p = .upstream → s.isMaster = false → t.flu.out.stage = .idle) ∧
      (p = .upstream → s.isMaster = true → t.flu.out = s.flu.out) ∧
      (p = .downstream → t.flu.ret.stage = .idle) ∧ t.flu.copy = s.flu.copy ∧
      OnlyTouches [.now, .flu, .slu, .flags, .ptu, .lde] s t := by
  obtain ⟨hl, hc, hm, hM, hd⟩ := (s.elapse dt).endReception_ended p
  refine ⟨?_, ?_, ?_, ?_, ?_, ?_, State.settled_only _ (State.goDark_fr _ p)⟩ <;>
    simp only [State.settle_flu, State.goDark_flu, Flu.link_setLink, Flu.link_setLink_of_ne _ _ h, Flu.setLink_out,
      Flu.setLink_ret, Flu.setLink_copy]
  · exact congrFun hl q
  · exact hm
  · exact hM
  · exact hd
  · exact hc

theorem State.lightOn_dark {p : Port} (h : (s.flu.link p).state = .dark) :
    s.lightOn p = State.noticeEnd s (s.onFlu fun u => u.setLink p { state := .locking, since := s.now }) := if_pos h

theorem State.lockDone_due {p : Port} (h : (s.flu.link p).state = .locking) (hd : (s.flu.link p).since + 125000 ≤ s.now) :
    s.lockDone p = s.onFlu fun u => u.setLink p { (u.link p) with state := .locked } := if_pos ⟨h, hd⟩

theorem State.clockBad_locking {p : Port} (h : (s.flu.link p).state = .locking) :
    s.clockBad p = s.onFlu fun u => u.setLink p { state := .locking, since := s.now } := by
  unfold State.clockBad
  rw [h]

theorem State.clockBad_locked {p : Port} (h : (s.flu.link p).state = .locked) : s.clockBad p = s.goDark p := by
  unfold State.clockBad
  rw [h]

theorem State.lightOff_lit {p : Port} (h : (s.flu.link p).state = .locking ∨ (s.flu.link p).state = .locked) :
    s.lightOff p = s.goDark p := by
  unfold State.lightOff
  rcases h with h | h <;> rw [h]

end

/-- An effect on the FLU and the flags that keeps the position ends as it is at a node with nothing to grant. -/
theorem State.settle_flu_only {s v : State} {dt : Nat} (hs : s.Served) (hf : Frame [.flu, .flags] (s.elapse dt) v)
    (hp : v.flu.position = s.flu.position) : State.settle (s.elapse dt) v = v :=
  State.settle_id (hs.elapse dt) hf.keeps_tru hp hf.keeps_lde (congrArg Ptu.cycle hf.keeps_ptu)

/-- The same of a change of the FLU alone. -/
theorem State.settle_onFlu {s : State} {dt : Nat} (hs : s.Served) (f : Flu → Flu)
    (hp : (f s.flu).position = s.flu.position) :
    State.settle (s.elapse dt) ((s.elapse dt).onFlu f) = (s.elapse dt).onFlu f :=
  State.settle_flu_only hs ((s.elapse dt).onFlu_fr f).mono hp

/-- Settles O20: one clause per entry of the table of R2. -/
theorem receiverStatesFollowTheTable : Obligations.ReceiverStatesFollowTheTable := by
  intro dt p q s hs hq
  refine ⟨fun h => ?_, fun h hd => ?_, fun h => ?_, fun h => ?_, fun h => ?_⟩
  · refine ⟨_, exec_event (fun u => u.lightOn p) ((s.elapse dt).lightOn_dark h), ?_⟩
    have k := ((s.elapse dt).onFlu_fr fun u => u.setLink p { state := .locking, since := (s.elapse dt).now }).mono
      (qs := [.flu, .flags]) |>.comp (State.noticeEnd_fr (s.elapse dt) _)
    rw [State.settle_flu_only hs k (by rw [State.noticeEnd_flu]; exact Flu.setLink_position ..)]
    exact ⟨by rw [State.noticeEnd_flu]; rfl, State.effect_only _ k⟩
  · refine ⟨_, exec_event (fun u => u.lockDone p) ((s.elapse dt).lockDone_due h hd), ?_⟩
    rw [State.settle_onFlu hs _ (Flu.setLink_position ..)]
    exact ⟨rfl, State.effect_only _ (State.onFlu_fr _ _)⟩
  · refine ⟨_, exec_event (fun u => u.clockBad p) ((s.elapse dt).clockBad_locking h), ?_⟩
    rw [State.settle_onFlu hs _ (Flu.setLink_position ..)]
    exact ⟨rfl, State.effect_only _ (State.onFlu_fr _ _)⟩
  · exact ⟨_, exec_event (fun u => u.clockBad p) ((s.elapse dt).clockBad_locked h), s.goDark_settled hq⟩
  · exact ⟨_, exec_event (fun u => u.lightOff p) ((s.elapse dt).lightOff_lit h), s.goDark_settled hq⟩

end Sys2Proof.Machine

/-! Proofs, section 5. The return header (R13, R17, R19). -/

namespace Sys2Proof.Machine

set_option Elab.async false

section
variable {s : State}

/-! ### Roles and the end-node condition -/

theorem State.isMaster_of_isMember (h : s.isMember = true) : s.isMaster = false := by
  simp only [State.isMember, Bool.and_eq_true, Bool.not_eq_true'] at h
  simp [State.isMaster, h.2]

theorem State.isMember_of_isMaster (h : s.isMaster = true) : s.isMember = false := by
  simp only [State.isMaster, Bool.and_eq_true] at h
  simp [State.isMember, h.2]

theorem State.configured_of_isMember (h : s.isMember = true) : s.configured = true := by
  simp only [State.isMember, Bool.and_eq_true] at h
  exact h.1

theorem State.configured_of_isMaster (h : s.isMaster = true) : s.configured = true := by
  simp only [State.isMaster, Bool.and_eq_true] at h
  exact h.1

/-- With the return watch at 0 only a DARK downstream receiver makes an end node (R13). -/
theorem State.isEndNode_watched (hm : s.isMember = true) (hw : s.flu.returnWatch = 0) :
    s.isEndNode = decide (s.flu.down.state = .dark) := by
  simp [State.isEndNode, hm, hw]

/-- The end-node condition is a function of the role, the downstream receiver and the return watch. -/
theorem State.isEndNode_congr {t : State} (hm : t.isMember = s.isMember) (hd : t.flu.down = s.flu.down)
    (hw : t.flu.returnWatch = s.flu.returnWatch) : t.isEndNode = s.isEndNode := by
  unfold State.isEndNode
  rw [hm, hd, hw]

theorem State.noticeEnd_flags (s0 s : State) : (State.noticeEnd s0 s).cnu.flags =
    if s0.isEndNode = s.isEndNode then s.cnu.flags else withFlags s.cnu.flags [1] := by
  unfold State.noticeEnd
  by_cases h : s0.isEndNode = s.isEndNode
  · simp [h, State.notifyIf]
  · simp [h, Ne.symm h, State.notifyIf, withFlags]

/-! ### The round trip (R19) -/

theorem State.measure_none {c : Word} (h : s.flu.tf.find? (fun p => decide (p.1 = c)) = none) : s.measure c = s := by
  unfold State.measure
  rw [h]

theorem State.measure_some {c x : Word} {tf : Nat} (h : s.flu.tf.find? (fun p => decide (p.1 = c)) = some (x, tf)) :
    s.measure c = s.onFlu fun u =>
      { u with meas := addMeas u.meas (u.ret.start + Config.residence - tf),
               tf := u.tf.filter fun p => decide (p.1 ≠ c) } := by
  unfold State.measure
  rw [h]

/-- A measurement leaves the watch, the receivers and the position alone. -/
theorem State.measure_keeps (c : Word) : (s.measure c).flu.returnWatch = s.flu.returnWatch ∧
    (s.measure c).flu.down = s.flu.down ∧ (s.measure c).flu.position = s.flu.position := by
  unfold State.measure
  split <;> exact ⟨rfl, rfl, rfl⟩

/-! ### The return header at each role -/

/-- The return passage behind a good header. -/
def Passage.tripNext (p : Passage) (h : HeaderFields) : Passage := { p.headed h with stage := .trip }

/-- The FLU of a member behind a good return header: the watch is at 0 (R13). -/
def Flu.returned (u : Flu) (h : HeaderFields) : Flu :=
  { u with ret := u.ret.tripNext h, returnWatch := 0, goodReturn := true }

theorem State.retHeader_good {b : Block} {bs : List Byte} (hs : s.flu.ret.stage = .header)
    (hb : goodBytes 32 b = some bs) : s.retHeader (.arrived b) =
      (if s.flu.ret.used && !s.isMaster then s.sendUp b else s).goodReturn (parseHeader bs) := by
  unfold State.retHeader
  dsimp only
  rw [if_neg (not_not.2 hs), hb]

/-- The state of a member behind a good return header, before its measurement. -/
theorem State.goodReturn_member (hm : s.isMember = true) (h : HeaderFields) : s.goodReturn h =
    (if s.flu.ret.used then ((s.onReturn false fun p => p.tripNext h).seeReturn).measure h.cycle
      else (s.onReturn false fun p => p.tripNext h).seeReturn) := by
  unfold State.goodReturn
  dsimp only
  rw [if_neg (by simp [State.isMaster_of_isMember hm]), if_pos hm]
  rfl

theorem State.seeReturn_flu (h : HeaderFields) :
    ((s.onReturn false fun p => p.tripNext h).seeReturn).flu = s.flu.returned h := by
  unfold State.seeReturn
  rw [State.noticeEnd_flu]
  rfl

theorem State.seeReturn_flags (hm : s.isMember = true) (h : HeaderFields) :
    ((s.onReturn false fun p => p.tripNext h).seeReturn).cnu.flags =
      if s.isEndNode = decide (s.flu.down.state = .dark) then s.cnu.flags else withFlags s.cnu.flags [1] := by
  have he : ((s.onReturn false fun p => p.tripNext h).onFlu fun u =>
      { u with returnWatch := 0, goodReturn := true }).isEndNode = decide (s.flu.down.state = .dark) :=
    State.isEndNode_watched (s := (s.onReturn false fun p => p.tripNext h).onFlu fun u =>
      { u with returnWatch := 0, goodReturn := true }) hm rfl
  unfold State.seeReturn
  rw [State.noticeEnd_flags, he]
  rfl

/-- What every good return header does at a member, whether the node uses the frame or not. -/
theorem State.goodReturn_watch (hm : s.isMember = true) (h : HeaderFields) :
    (s.goodReturn h).isEndNode = decide (s.flu.down.state = .dark) ∧
      (s.goodReturn h).cnu.flags = (if s.isEndNode = decide (s.flu.down.state = .dark) then s.cnu.flags
        else withFlags s.cnu.flags [1]) ∧ (s.goodReturn h).flu.position = s.flu.position := by
  have hm1 : (s.goodReturn h).isMember = true := (s.goodReturn_fr h).keeps_isMember.trans hm
  rw [State.goodReturn_member hm] at hm1 ⊢
  cases hu : s.flu.ret.used with
  | false =>
    rw [if_neg (by simp)]
    rw [hu, if_neg (by simp)] at hm1
    refine ⟨?_, State.seeReturn_flags hm h, ?_⟩
    · rw [State.isEndNode_watched hm1 (by rw [State.seeReturn_flu]; rfl), State.seeReturn_flu]
      rfl
    · rw [State.seeReturn_flu]
      rfl
  | true =>
    rw [if_pos rfl]
    rw [hu, if_pos rfl] at hm1
    obtain ⟨kw, kd, kp⟩ := State.measure_keeps (s := (s.onReturn false fun p => p.tripNext h).seeReturn) h.cycle
    rw [State.seeReturn_flu] at kw kd kp
    exact ⟨by rw [State.isEndNode_watched hm1 kw, kd]; rfl,
      by rw [(State.measure_fr _ _).keeps_flags]; exact State.seeReturn_flags hm h, kp⟩

theorem State.goodReturn_master (hm : s.isMaster = true) (h : HeaderFields) :
    s.goodReturn h = (s.onReturn false fun p => p.tripNext h).matchReturn h.cycle := by
  unfold State.goodReturn
  dsimp only
  rw [if_pos hm]
  rfl

theorem State.goodReturn_repeater (hM : s.isMaster = false) (hm : s.isMember = false) (h : HeaderFields) :
    s.goodReturn h = s.onReturn false fun p => { p with stage := .trip } := by
  unfold State.goodReturn
  dsimp only
  rw [if_neg (by simp [hM]), if_neg (by simp [hm])]

end

/-- Settles O27: `State.goodReturn` at each role. -/
theorem goodReturnHeaderMeasuresTheRoundTrip : Obligations.GoodReturnHeaderMeasuresTheRoundTrip := by
  intro dt b bs s hs hl hst hb h ret
  have wf : (Instr.returnHeader dt (.arrived b)).wf = true := decide_eq_true hl
  have hg := State.retHeader_good (s := s.elapse dt) hst hb
  refine ⟨fun hm => ?_, fun hM => ?_, fun hm hM => ?_⟩
  · have hM := State.isMaster_of_isMember hm
    cases hu : s.flu.ret.used with
    | false =>
      rw [if_neg (by simp [hu])] at hg
      have hm' : (s.elapse dt).isMember = true := hm
      obtain ⟨he, hf, hp⟩ := State.goodReturn_watch hm' h
      refine ⟨_, exec_checked (fun u => u.retHeader (.arrived b)) wf hg, ?_⟩
      rw [State.settle_flu_only hs (State.goodReturn_fr _ _) hp]
      refine ⟨by rw [he]; rfl, hf, fun _ => ?_, fun k => (Bool.noConfusion k), State.effect_only _ (State.goodReturn_fr _ _)⟩
      rw [State.goodReturn_member hm', if_neg (by simp [hu]), State.seeReturn_flu]
      rfl
    | true =>
      rw [if_pos (by simp [hu, hM])] at hg
      have hm' : ((s.elapse dt).sendUp b).isMember = true := hm
      have hu' : ((s.elapse dt).sendUp b).flu.ret.used = true := hu
      obtain ⟨he, hf, hp⟩ := State.goodReturn_watch hm' h
      have hfr : Frame [.flu, .flags] (s.elapse dt) (((s.elapse dt).sendUp b).goodReturn h) :=
        ((s.elapse dt).sendUp_fr b).mono.comp (State.goodReturn_fr _ h)
      refine ⟨_, exec_checked (fun u => u.retHeader (.arrived b)) wf hg, ?_⟩
      rw [State.settle_flu_only hs hfr hp]
      refine ⟨by rw [he]; rfl, hf, fun k => (Bool.noConfusion k), fun _ => ⟨fun hn => ?_, fun tf ht => ?_⟩,
        State.effect_only _ hfr⟩
      · rw [State.goodReturn_member hm', if_pos hu', State.measure_none (by rw [State.seeReturn_flu]; exact hn),
          State.seeReturn_flu]
        rfl
      · rw [State.goodReturn_member hm', if_pos hu', State.measure_some (by rw [State.seeReturn_flu]; exact ht),
          State.onFlu_flu, State.seeReturn_flu]
        rfl
  · have hM' : (s.elapse dt).isMaster = true := hM
    rw [if_neg (by simp [hM]), State.goodReturn_master hM'] at hg
    refine ⟨_, exec_checked (fun u => u.retHeader (.arrived b)) wf hg, ?_⟩
    have hfr : Frame [.flu] (s.elapse dt) (((s.elapse dt).onReturn false fun p => p.tripNext h).matchReturn h.cycle) :=
      (State.onReturn_fr _ _ _).comp (State.matchReturn_fr _ _)
    by_cases hc : h.cycle = s.flu.origCount ∧ s.flu.originated = true ∧ s.flu.returnSeen = false
    · rw [State.settle_flu_only hs hfr.mono (by unfold State.matchReturn; rw [if_pos (by exact hc)]; rfl)]
      refine ⟨fun _ _ _ => ?_, fun k => ?_, State.effect_only _ hfr⟩
      · unfold State.matchReturn
        rw [if_pos (by exact hc)]
        rfl
      · simp [hc.1, hc.2.1, hc.2.2] at k
    · rw [State.settle_flu_only hs hfr.mono (by unfold State.matchReturn; rw [if_neg (by exact hc)]; rfl)]
      refine ⟨fun k1 k2 k3 => absurd ⟨k1, k2, k3⟩ hc, fun _ => ?_, State.effect_only _ hfr⟩
      unfold State.matchReturn
      rw [if_neg (by exact hc)]
      rfl
  · cases hu : s.flu.ret.used with
    | false =>
      rw [if_neg (by simp [hu]), State.goodReturn_repeater (s := s.elapse dt) hM hm] at hg
      refine ⟨_, exec_checked (fun u => u.retHeader (.arrived b)) wf hg, ?_⟩
      rw [State.settle_flu_only hs (State.onReturn_fr _ _ _).mono rfl]
      exact ⟨rfl, State.effect_only _ (State.onReturn_fr _ _ _)⟩
    | true =>
      rw [if_pos (by simp [hu, hM]), State.goodReturn_repeater (s := (s.elapse dt).sendUp b) hM hm] at hg
      have hfr := ((s.elapse dt).sendUp_fr b).comp (State.onReturn_fr _ false fun p => { p with stage := .trip })
      refine ⟨_, exec_checked (fun u => u.retHeader (.arrived b)) wf hg, ?_⟩
      rw [State.settle_flu_only hs hfr.mono rfl]
      exact ⟨rfl, State.effect_only _ hfr⟩

end Sys2Proof.Machine

/-! Proofs, section 6. Notice flags that are set stay set: through the operations of trip block and epoch, and through the end
of every event (R193). -/

namespace Sys2Proof.Machine

set_option Elab.async false

/-- Every notice flag set in `s` is set in `t`. -/
def FlagsStay (s t : State) : Prop := ∀ n, s.cnu.flags.getLsbD n = true → t.cnu.flags.getLsbD n = true

section
variable {s t u : State}

theorem FlagsStay.refl (s : State) : FlagsStay s s := fun _ h => h

theorem FlagsStay.trans (h : FlagsStay s t) (k : FlagsStay t u) : FlagsStay s u := fun n x => k n (h n x)

/-- An operation that does not touch the flags. -/
theorem FlagsStay.frame {ps : List Part} (h : FlagsStay s t) (f : Frame ps t u) (m : Part.flags ∉ ps := by decide) :
    FlagsStay s u := fun n x => by rw [f.keeps_flags m]; exact h n x

theorem FlagsStay.ite {c : Prop} [Decidable c] (h : FlagsStay s t) (k : FlagsStay s u) :
    FlagsStay s (if c then t else u) := by
  split
  · exact h
  · exact k

theorem FlagsStay.foldl {α : Type} (f : State → α → State) (hf : ∀ u x, FlagsStay u (f u x)) (l : List α)
    (h : FlagsStay s t) : FlagsStay s (l.foldl f t) := by
  induction l generalizing t with
  | nil => exact h
  | cons x l ih => exact ih (h.trans (hf t x))

theorem FlagsStay.notify (h : FlagsStay s t) (n : Nat) : FlagsStay s (t.notify n) := fun k x => by
  rw [State.notify_flags, BitVec.getLsbD_or, h k x, Bool.true_or]

theorem FlagsStay.notifyIf (h : FlagsStay s t) (b : Bool) (n : Nat) : FlagsStay s (t.notifyIf b n) :=
  FlagsStay.ite (h.notify n) h

/-- A flag just set is set. -/
theorem State.notify_self (s : State) (n : Nat) (hn : n < 16 := by decide) :
    (s.notify n).cnu.flags.getLsbD n = true := by
  rw [State.notify_flags, BitVec.getLsbD_or]
  simp [hn]

/-! ### Requests, camera channels and the acting class -/

theorem FlagsStay.requestNormal (h : FlagsStay s t) (r : Requester) (l : List Run) : FlagsStay s (t.requestNormal r l) :=
  FlagsStay.ite (h.notify 15) h

theorem FlagsStay.cancelFirings (h : FlagsStay s t) : FlagsStay s t.cancelFirings := h.notifyIf _ 13

theorem FlagsStay.recompute (h : FlagsStay s t) : FlagsStay s t.recompute := by
  unfold State.recompute
  refine FlagsStay.ite h (FlagsStay.ite ?_ h)
  have k : FlagsStay s (t.onTru fun u => u.setActing (t.localClass.worst t.remoteClass)) := h
  exact k.cancelFirings

theorem FlagsStay.handStamped (h : FlagsStay s t) (n : Fin 15) (b : Bool) (x : Stamp) :
    FlagsStay s (t.handStamped n b x) := by
  unfold State.handStamped
  refine FlagsStay.ite (FlagsStay.recompute ?_) h
  exact h

theorem FlagsStay.handCondition (h : FlagsStay s t) (n : Fin 15) (b : Bool) : FlagsStay s (t.handCondition n b) :=
  h.handStamped n b _

theorem FlagsStay.channelEpoch (h : FlagsStay s t) (m : Bool) (i : Fin 4) : FlagsStay s (t.channelEpoch m i) := by
  unfold State.channelEpoch
  dsimp only
  split
  · exact h
  · refine FlagsStay.ite (FlagsStay.notifyIf ?_ _ 13) ?_
    · exact h
    · exact h

theorem FlagsStay.cmuEpoch (h : FlagsStay s t) (m : Bool) : FlagsStay s (t.cmuEpoch m) :=
  h.foldl _ (fun u i => (FlagsStay.refl u).channelEpoch m i) _

theorem FlagsStay.handSourceLost (h : FlagsStay s t) : FlagsStay s t.handSourceLost := h.handCondition 11 _

/-! ### The other units at an epoch -/

theorem FlagsStay.lsuEpoch (h : FlagsStay s t) (hdr : Option HeaderShaft) (m : Bool) : FlagsStay s (t.lsuEpoch hdr m) := by
  have h1 : ∀ f, FlagsStay s (t.generatorEpoch.1.onLsu f) := fun f =>
    h.frame ((t.generatorEpoch_fr.comp (State.onLsu_fr _ f)))
  unfold State.lsuEpoch
  dsimp only
  generalize t.generatorEpoch.2 = r
  generalize (t.cfg.only .shaft) = win
  cases win with
  | none =>
    cases r with
    | none => exact h1 _
    | some r => exact (h1 _).requestNormal _ _
  | some w =>
    cases r with
    | none => exact (h1 _).frame (State.requestUrgent_fr _ _ _)
    | some r => exact ((h1 _).frame (State.requestUrgent_fr _ _ _)).requestNormal _ _

theorem FlagsStay.axuEpoch (h : FlagsStay s t) (y m : Bool) : FlagsStay s (t.axuEpoch y m) := by
  have k : FlagsStay s (t.axisSteps m) := h
  unfold State.axuEpoch
  dsimp only
  split
  · exact FlagsStay.ite (k.frame (State.requestUrgent_fr _ _ _))
      ((k.frame (State.requestUrgent_fr _ _ _)).requestNormal _ _)
  · exact k

theorem FlagsStay.handStale (h : FlagsStay s t) (s0 : State) : FlagsStay s (State.handStale s0 t) :=
  FlagsStay.ite h (h.handCondition 12 _)

theorem FlagsStay.ageWindow (h : FlagsStay s t) (i : Fin 8) : FlagsStay s (t.ageWindow i) := by
  unfold State.ageWindow
  dsimp only
  split
  · refine FlagsStay.frame (FlagsStay.notifyIf ?_ _ 2) (State.requestUrgent_fr _ _ _)
    exact h
  · exact h

theorem FlagsStay.sluEpoch (h : FlagsStay s t) : FlagsStay s t.sluEpoch :=
  (h.foldl _ (fun u i => (FlagsStay.refl u).ageWindow i) _).handStale t

theorem FlagsStay.endImage (h : FlagsStay s t) (i : Fin 4) (c : Bool) : FlagsStay s (t.endImage i c) := by
  unfold State.endImage
  dsimp only
  split
  · refine FlagsStay.ite (FlagsStay.notify ?_ 7) (FlagsStay.requestNormal ?_ _ _)
    · exact FlagsStay.requestNormal (t := t.onStream i _) h _ _
    · exact h
  · exact h

theorem FlagsStay.streamEpoch (h : FlagsStay s t) (i : Fin 4) : FlagsStay s (t.streamEpoch i) := by
  unfold State.streamEpoch
  dsimp only
  split
  · refine FlagsStay.ite (FlagsStay.endImage ?_ _ _) ?_
    · exact h
    · exact h
  · exact h

theorem FlagsStay.iguEpoch (h : FlagsStay s t) : FlagsStay s t.iguEpoch :=
  h.foldl _ (fun u i => (FlagsStay.refl u).streamEpoch i) _

theorem FlagsStay.fetchTile (h : FlagsStay s t) (i : Fin 2) (w : Window) (p : ScreenParams) (k : Nat) :
    FlagsStay s (t.fetchTile i w p k) := by
  have g : FlagsStay s ((t.onOut i fun o => { o with dirty := clearDirty o.dirty k, scan := nextTile p k }).requestNormal
      (.tileRead i k) (tileRuns w p k fun _ => List.replicate 8 0)) := FlagsStay.requestNormal (by exact h) _ _
  unfold State.fetchTile
  exact FlagsStay.ite g g

theorem FlagsStay.fetchOnce (h : FlagsStay s t) (hu : t.fetchOnce = some u) : FlagsStay s u := by
  unfold State.fetchOnce at hu
  split at hu
  · split at hu
    · split at hu
      · cases hu
        exact h.fetchTile _ _ _ _
      · cases hu
    · cases hu
  · cases hu

theorem FlagsStay.tryFetch (h : FlagsStay s t) : FlagsStay s t.tryFetch := by
  unfold State.tryFetch
  split
  · exact h
  · rename_i a ha
    have ka := h.fetchOnce ha
    refine FlagsStay.ite ka ?_
    split
    · exact ka
    · exact ka.fetchOnce ‹_›

theorem FlagsStay.sweepEpoch (h : FlagsStay s t) (i : Fin 2) : FlagsStay s (t.sweepEpoch i) := by
  unfold State.sweepEpoch
  split
  · refine FlagsStay.ite h (FlagsStay.ite (FlagsStay.tryFetch ?_) ?_)
    · exact h
    · exact h
  · exact h

theorem FlagsStay.scuEpoch (h : FlagsStay s t) : FlagsStay s t.scuEpoch := (h.sweepEpoch 0).sweepEpoch 1

/-! ### Ring states and epochs -/

theorem FlagsStay.noticeEnd (h : FlagsStay s t) (s0 : State) : FlagsStay s (State.noticeEnd s0 t) := h.notifyIf _ 1

theorem FlagsStay.imagesLeave (h : FlagsStay s t) : FlagsStay s t.imagesLeave := by
  unfold State.imagesLeave
  exact FlagsStay.notifyIf (by exact h) _ 8

theorem FlagsStay.screensJoin (h : FlagsStay s t) : FlagsStay s t.screensJoin :=
  (((h.frame (State.fullRefresh_fr _ 0)).frame (State.fullRefresh_fr _ 1)).frame (State.requestRefresh_fr _ 0)).frame
    (State.requestRefresh_fr _ 1) |>.tryFetch

theorem FlagsStay.enterJoined (h : FlagsStay s t) : FlagsStay s t.enterJoined := by
  unfold State.enterJoined
  exact ((FlagsStay.notify (by exact h) 1).handCondition 10 false).screensJoin

theorem FlagsStay.leaveJoined (h : FlagsStay s t) : FlagsStay s t.leaveJoined := by
  unfold State.leaveJoined
  exact ((FlagsStay.imagesLeave (by exact h)).frame (State.screensLeave_fr _)).cancelFirings

/-- The node on its way out of the ring, its flag 1 set, before the units act on it (R10, R11). -/
def State.seeks (s : State) : State :=
  let s1 := if s.flu.ring = .joined then s.handCondition 10 true else s
  let s2 := s1.onFlu fun u => { u with ring := .seeking, position := none, meas := [], mismatch := false }
  ((s2.onTru fun t => { t with remote := ClassMasks.empty }).recompute).notify 1

theorem State.leaveRing_eq (s : State) : s.leaveRing = if s.flu.ring = .joined then s.seeks.leaveJoined else s.seeks := rfl

theorem FlagsStay.seeks (h : FlagsStay s t) : FlagsStay s t.seeks := by
  have k : FlagsStay s (if t.flu.ring = .joined then t.handCondition 10 true else t) := FlagsStay.ite (h.handCondition _ _) h
  unfold State.seeks
  dsimp only
  exact (FlagsStay.recompute (by exact k)).notify 1

theorem FlagsStay.leaveRing (h : FlagsStay s t) : FlagsStay s t.leaveRing := by
  rw [State.leaveRing_eq]
  exact FlagsStay.ite h.seeks.leaveJoined h.seeks

/-- A node that leaves the ring sets flag 1 (R10, R11). -/
theorem State.leaveRing_flag (s : State) : s.leaveRing.cnu.flags.getLsbD 1 = true := by
  have k : s.seeks.cnu.flags.getLsbD 1 = true := State.notify_self _ 1
  rw [State.leaveRing_eq]
  split
  · exact (FlagsStay.refl _).leaveJoined 1 k
  · exact k

theorem FlagsStay.loseRing (h : FlagsStay s t) (b : Bool) : FlagsStay s (t.loseRing b) := by
  unfold State.loseRing
  exact (FlagsStay.ite h.scuEpoch h).leaveRing

theorem FlagsStay.epochIn (h : FlagsStay s t) (l w a x : Bool) (hdr : Option HeaderShaft) (mark loss : Bool) :
    FlagsStay s (t.epochIn l w a x hdr mark loss) := by
  unfold State.epochIn
  dsimp only
  have h1 := FlagsStay.ite (c := (loss && l) = true) (h.loseRing w) h
  have h2 := FlagsStay.ite (c := a = true) h1.sluEpoch h1
  have h3 := (((h2.lsuEpoch hdr mark).frame (State.truEpoch_fr _)).axuEpoch hdr.isNone mark)
  have h4 := FlagsStay.ite (c := x = true) (h3.handSourceLost.cmuEpoch mark) (h3.cmuEpoch mark).handSourceLost
  have h5 := FlagsStay.ite (c := a = true) h4 h4.sluEpoch
  have h6 := FlagsStay.ite (c := (loss && !l) = true) (h5.loseRing w) h5
  exact FlagsStay.ite h6.iguEpoch h6.iguEpoch.scuEpoch

theorem FlagsStay.epochWork (h : FlagsStay s t) (hdr : Option HeaderShaft) (mark loss : Bool) :
    FlagsStay s (t.epochWork hdr mark loss) := by
  unfold State.epochWork
  exact FlagsStay.epochIn (by exact h) _ _ _ _ _ _ _

theorem FlagsStay.watchEpoch (h : FlagsStay s t) : FlagsStay s t.watchEpoch := by
  unfold State.watchEpoch
  exact FlagsStay.noticeEnd (by exact h) _

theorem FlagsStay.takeEntry (h : FlagsStay s t) (e : PendingEntry) : FlagsStay s (t.takeEntry e) := by
  unfold State.takeEntry
  refine FlagsStay.ite (by exact h) ?_
  exact ((FlagsStay.notifyIf (by exact h) _ 11).watchEpoch).epochWork _ _ _

theorem FlagsStay.takeOldest (h : FlagsStay s t) : FlagsStay s t.takeOldest := by
  unfold State.takeOldest
  split
  · exact h
  · exact FlagsStay.takeEntry (by exact h) _

theorem FlagsStay.takeDue (h : FlagsStay s t) (n : Nat) : FlagsStay s (t.takeDue n) := by
  induction n generalizing t with
  | zero => exact h
  | succ n ih => exact FlagsStay.ite (ih h.takeOldest) h

theorem FlagsStay.placeEntry (h : FlagsStay s t) (e : Bool → PendingEntry) : FlagsStay s (t.placeEntry e) := by
  have k := FlagsStay.ite (c := 3 ≤ t.flu.entries.length) (h.takeOldest.takeDue 2) h
  exact k

/-! ### The end of every event -/

theorem FlagsStay.reportTrip (h : FlagsStay s t) (s0 : State) : FlagsStay s (State.reportTrip s0 t) := by
  have k : FlagsStay s t → ∀ u : State, FlagsStay s u → FlagsStay s u.landTripRecord := by
    intro _ u hu
    unfold State.landTripRecord
    split
    · exact hu.frame (State.requestUrgent_fr _ _ _)
    · exact hu
  unfold State.reportTrip
  exact FlagsStay.ite (FlagsStay.ite (k h _ (h.notifyIf _ 0)) (h.notifyIf _ 0)) h

/-- A write beat that reaches no memory is absorbed, or blocked with flag 4 (R33, R34). -/
theorem FlagsStay.writeBeat (h : FlagsStay s t) {b : PBeat} (hb : b.id.reaches true = false) :
    FlagsStay s (t.writeBeat b) := by
  unfold State.writeBeat
  unfold Ident.reaches at hb
  cases hc : b.id.wordClass with
  | landed => exact FlagsStay.notify (by exact h) 4
  | substituted => exact h
  | outside => rw [hc] at hb; cases hb
  | ordinary => rw [hc] at hb; cases hb
  | capture => rw [hc] at hb; cases hb

theorem FlagsStay.acceptBeat (h : FlagsStay s t) (w : Bool) {b : PBeat} (hb : b.id.reaches w = false) :
    FlagsStay s (t.acceptBeat w b) := by
  cases w with
  | false => exact h
  | true => exact h.writeBeat hb

theorem FlagsStay.acceptBeats (h : FlagsStay s t) (w : Bool) (bs : List PBeat) (hb : ∀ b ∈ bs, b.id.reaches w = false) :
    FlagsStay s (t.acceptBeats w bs) := by
  unfold State.acceptBeats
  induction bs generalizing t with
  | nil => exact h
  | cons b bs ih =>
    exact ih (h.acceptBeat w (hb b (List.mem_cons_self ..))) fun x hx => hb x (List.mem_cons_of_mem _ hx)

theorem FlagsStay.passBeats (h : FlagsStay s t) : FlagsStay s t.passBeats := by
  unfold State.passBeats
  split
  · refine FlagsStay.acceptBeats (by exact h) _ _ fun b hb => ?_
    simpa using List.mem_takeWhile_imp hb
  · exact h

theorem FlagsStay.arbitrate (h : FlagsStay s t) : FlagsStay s t.arbitrate := by
  have k : FlagsStay s t.starve := h.frame (State.starve_fr _)
  unfold State.arbitrate State.grantCycle
  refine FlagsStay.ite h (FlagsStay.ite (by exact k) (FlagsStay.ite (FlagsStay.passBeats ?_) (FlagsStay.ite (by exact k) k)))
  exact k

theorem FlagsStay.settle (h : FlagsStay s t) (s0 : State) : FlagsStay s (State.settle s0 t) := (h.reportTrip s0).arbitrate

end

end Sys2Proof.Machine

/-! Proofs, section 7. What the Trip Unit's operations make of the trip state: the acting class, latch and conditions, the marks
of a trip block (R91, R94, R97, R98, R102). -/

namespace Sys2Proof

set_option Elab.async false

/-! ### Tables -/

theorem setAt_self {α : Type} {n : Nat} (v : Vector α n) (i : Fin n) (x : α) : (setAt v i x)[i] = x := by
  simp [setAt]

theorem setAt_other {α : Type} {n : Nat} (v : Vector α n) {i j : Fin n} (x : α) (h : j ≠ i) : (setAt v i x)[j] = v[j] := by
  have k : i.val ≠ j.val := fun e => h (Fin.ext e.symm)
  simp [setAt, Vector.getElem_set_ne, k]

theorem modAt_self {α : Type} {n : Nat} (v : Vector α n) (i : Fin n) (f : α → α) : (modAt v i f)[i] = f v[i] :=
  setAt_self v i _

theorem modAt_other {α : Type} {n : Nat} (v : Vector α n) {i j : Fin n} (f : α → α) (h : j ≠ i) : (modAt v i f)[j] = v[j] :=
  setAt_other v _ h

end Sys2Proof

namespace Sys2Proof.Machine

set_option Elab.async false

/-! ### The acting class (R94, R102) -/

/-- The trip state under an acting class: a change of it is handed to the enable lines and the stop timer (R94, R102). -/
def Tru.act (t : Tru) (x : TripClass) : Tru := if x = t.acting then t else t.setActing x

/-- A change of the acting class concerns the enable lines and the stop timer only. -/
theorem Tru.act_eq (t : Tru) (x : TripClass) : ∃ r f on n,
    t.act x = { t with acting := x, requests := r, forced := f, timerOn := on, timerCount := n } := by
  unfold Tru.act
  split
  · rename_i h
    exact ⟨_, _, _, _, by rw [h]⟩
  · unfold Tru.setActing
    cases x with
    | b => cases hs : t.acting.stops <;> exact ⟨_, _, _, _, rfl⟩
    | c => cases hs : t.acting.stops <;> exact ⟨_, _, _, _, rfl⟩
    | _ => exact ⟨_, _, _, _, rfl⟩

section
variable (t : Tru) (x : TripClass)

@[simp] theorem Tru.act_acting : (t.act x).acting = x := by obtain ⟨_, _, _, _, e⟩ := t.act_eq x; rw [e]
@[simp] theorem Tru.act_latch : (t.act x).latch = t.latch := by obtain ⟨_, _, _, _, e⟩ := t.act_eq x; rw [e]
@[simp] theorem Tru.act_cond : (t.act x).cond = t.cond := by obtain ⟨_, _, _, _, e⟩ := t.act_eq x; rw [e]
@[simp] theorem Tru.act_class8 : (t.act x).class8 = t.class8 := by obtain ⟨_, _, _, _, e⟩ := t.act_eq x; rw [e]
@[simp] theorem Tru.act_remote : (t.act x).remote = t.remote := by obtain ⟨_, _, _, _, e⟩ := t.act_eq x; rw [e]
@[simp] theorem Tru.act_known : (t.act x).known = t.known := by obtain ⟨_, _, _, _, e⟩ := t.act_eq x; rw [e]
@[simp] theorem Tru.act_hold : (t.act x).hold = t.hold := by obtain ⟨_, _, _, _, e⟩ := t.act_eq x; rw [e]
@[simp] theorem Tru.act_relay : (t.act x).relay = t.relay := by obtain ⟨_, _, _, _, e⟩ := t.act_eq x; rw [e]
@[simp] theorem Tru.act_press : (t.act x).press = t.press := by obtain ⟨_, _, _, _, e⟩ := t.act_eq x; rw [e]
@[simp] theorem Tru.act_pressFault : (t.act x).pressFault = t.pressFault := by
  obtain ⟨_, _, _, _, e⟩ := t.act_eq x; rw [e]
@[simp] theorem Tru.act_resetPending : (t.act x).resetPending = t.resetPending := by
  obtain ⟨_, _, _, _, e⟩ := t.act_eq x; rw [e]

end

section
variable {s t : State}

theorem State.recompute_tru (s : State) : s.recompute.tru = s.tru.act (s.localClass.worst s.remoteClass) := by
  unfold State.recompute Tru.act
  dsimp only
  split
  · rfl
  · split
    · exact (State.cancelFirings_fr _).only .tru (by decide)
    · rfl

/-- The local class is a function of the configuration and the latched sources. -/
theorem State.localClass_congr (hc : t.cfg = s.cfg) (hl : t.tru.latch = s.tru.latch) (h8 : t.tru.class8 = s.tru.class8) :
    t.localClass = s.localClass := by
  unfold State.localClass State.sourceClass
  rw [hc, hl, h8]

/-- The remote class is a function of the remote view and the position. -/
theorem State.remoteClass_congr (hr : t.tru.remote = s.tru.remote) (hp : t.flu.position = s.flu.position) :
    t.remoteClass = s.remoteClass := by
  unfold State.remoteClass State.ownBit
  rw [hr, hp]

/-- After the acting class is recomputed it is the one that latch and remote view give (R94). -/
theorem State.recompute_acts (s : State) : s.recompute.ActsOnWhatItHolds := by
  unfold State.ActsOnWhatItHolds
  rw [State.localClass_congr s.recompute_fr.keeps_cfg (by simp [State.recompute_tru]) (by simp [State.recompute_tru]),
    State.remoteClass_congr (s := s) (by simp [State.recompute_tru]) (by simp), State.recompute_tru, Tru.act_acting]

theorem State.ActsOnWhatItHolds.of_same (h : s.ActsOnWhatItHolds) (hc : t.cfg = s.cfg) (ht : t.tru = s.tru)
    (hp : t.flu.position = s.flu.position) : t.ActsOnWhatItHolds := by
  unfold State.ActsOnWhatItHolds at h ⊢
  rw [State.localClass_congr hc (by rw [ht]) (by rw [ht]), State.remoteClass_congr (by rw [ht]) hp, ht, h]

/-! ### The latch and the conditions (R91) -/

/-- The latch after a source's condition is handed over: a condition that becomes present latches an unlatched source whose
class is not NONE. -/
def State.latchAfter (s : State) (n : Fin 15) (b : Bool) (x : Stamp) : Vector (Option Stamp) 15 :=
  if b && !s.tru.cond[n] && decide (s.cfg.classes[n] ≠ .clear) && (s.tru.latch[n]).isNone then setAt s.tru.latch n (some x)
  else s.tru.latch

theorem State.handStamped_tru (s : State) (n : Fin 15) (b : Bool) (x : Stamp) : ∃ cl r f on k,
    (s.handStamped n b x).tru = { s.tru with
      cond := setAt s.tru.cond n b, latch := s.latchAfter n b x, acting := cl, requests := r, forced := f, timerOn := on,
      timerCount := k } := by
  unfold State.handStamped State.latchAfter
  dsimp only
  split
  · rw [State.recompute_tru]
    obtain ⟨r, f, on, k, e⟩ := Tru.act_eq _ _
    exact ⟨_, r, f, on, k, e⟩
  · exact ⟨_, _, _, _, _, rfl⟩

section
variable (s : State) (n : Fin 15) (b : Bool) (x : Stamp)

@[simp] theorem State.handStamped_cond : (s.handStamped n b x).tru.cond = setAt s.tru.cond n b := by
  obtain ⟨_, _, _, _, _, e⟩ := s.handStamped_tru n b x; rw [e]
@[simp] theorem State.handStamped_latch : (s.handStamped n b x).tru.latch = s.latchAfter n b x := by
  obtain ⟨_, _, _, _, _, e⟩ := s.handStamped_tru n b x; rw [e]
@[simp] theorem State.handStamped_class8 : (s.handStamped n b x).tru.class8 = s.tru.class8 := by
  obtain ⟨_, _, _, _, _, e⟩ := s.handStamped_tru n b x; rw [e]
@[simp] theorem State.handStamped_remote : (s.handStamped n b x).tru.remote = s.tru.remote := by
  obtain ⟨_, _, _, _, _, e⟩ := s.handStamped_tru n b x; rw [e]
@[simp] theorem State.handStamped_known : (s.handStamped n b x).tru.known = s.tru.known := by
  obtain ⟨_, _, _, _, _, e⟩ := s.handStamped_tru n b x; rw [e]
@[simp] theorem State.handStamped_relay : (s.handStamped n b x).tru.relay = s.tru.relay := by
  obtain ⟨_, _, _, _, _, e⟩ := s.handStamped_tru n b x; rw [e]
@[simp] theorem State.handStamped_press : (s.handStamped n b x).tru.press = s.tru.press := by
  obtain ⟨_, _, _, _, _, e⟩ := s.handStamped_tru n b x; rw [e]
@[simp] theorem State.handStamped_pressFault : (s.handStamped n b x).tru.pressFault = s.tru.pressFault := by
  obtain ⟨_, _, _, _, _, e⟩ := s.handStamped_tru n b x; rw [e]
@[simp] theorem State.handStamped_resetPending : (s.handStamped n b x).tru.resetPending = s.tru.resetPending := by
  obtain ⟨_, _, _, _, _, e⟩ := s.handStamped_tru n b x; rw [e]

theorem State.handStamped_cond_self : (s.handStamped n b x).tru.cond[n] = b := by
  rw [State.handStamped_cond, setAt_self]

variable {n} in
/-- The other sources keep their conditions and stamps. -/
theorem State.handStamped_other {m : Fin 15} (h : m ≠ n) :
    (s.handStamped n b x).tru.latch[m] = s.tru.latch[m] ∧ (s.handStamped n b x).tru.cond[m] = s.tru.cond[m] := by
  rw [State.handStamped_cond, State.handStamped_latch, State.latchAfter, setAt_other _ _ h]
  split
  · exact ⟨setAt_other _ _ h, rfl⟩
  · exact ⟨rfl, rfl⟩

variable {s n} in
/-- A condition that becomes present latches its source, if its class is not NONE (R91). -/
theorem State.latchAfter_self (hc : s.tru.cond[n] = false) (hk : s.cfg.classes[n] ≠ .clear) :
    (s.latchAfter n true x)[n] = (s.tru.latch[n]).or (some x) := by
  unfold State.latchAfter
  cases hl : s.tru.latch[n] with
  | none =>
    rw [if_pos (by simp only [Fin.getElem_fin] at hc hk hl ⊢; simp [hc, hk]), setAt_self]
    rfl
  | some y =>
    rw [if_neg (by simp), hl]
    rfl

end

/-! ### A reset token (R105) -/

/-- The latch after a reset token: the sources whose conditions are present stay, but source 8 (R105). -/
def Tru.cleared (t : Tru) : Vector (Option Stamp) 15 :=
  Vector.ofFn fun n => if n = 8 then none else if t.cond[n] then t.latch[n] else none

theorem Tru.cleared_get (t : Tru) (n : Fin 15) :
    t.cleared[n] = if n = 8 ∨ t.cond[n] = false then none else t.latch[n] := by
  unfold Tru.cleared
  by_cases h : n = 8
  · simp [h]
  · cases hc : t.cond[n] <;> simp only [Fin.getElem_fin] at hc <;> simp [h, hc]

/-- The state as a token finds it once its latch is cleared. -/
def State.tokened (s : State) (g : Byte) : State :=
  s.onTru fun t => { t with known := g, class8 := .clear, hold := false, latch := t.cleared }

theorem State.takeToken_eq (s : State) (g : Byte) : s.takeToken g = (s.tokened g).recompute := rfl

theorem State.takeToken_tru (s : State) (g : Byte) : ∃ cl r f on k, (s.takeToken g).tru = { s.tru with
    known := g, class8 := .clear, hold := false, latch := s.tru.cleared, acting := cl, requests := r, forced := f,
    timerOn := on, timerCount := k } := by
  rw [State.takeToken_eq, State.recompute_tru]
  obtain ⟨r, f, on, k, e⟩ := Tru.act_eq (s.tokened g).tru ((s.tokened g).localClass.worst (s.tokened g).remoteClass)
  exact ⟨_, r, f, on, k, e⟩

/-! ### Marks and offers (R97, R98) -/

/-- What a node marks and offers is a function of the configuration, the latch and the position. -/
structure SameMarks (s t : State) : Prop where
  cfg : t.cfg = s.cfg
  latch : t.tru.latch = s.tru.latch
  class8 : t.tru.class8 = s.tru.class8
  position : t.flu.position = s.flu.position

theorem SameMarks.ownBit (h : SameMarks s t) : t.ownBit = s.ownBit := by
  unfold State.ownBit
  rw [h.position]

theorem SameMarks.holds (h : SameMarks s t) (x : TripClass) : t.holds x = s.holds x := by
  unfold State.holds State.sourceClass
  rw [h.cfg, h.latch, h.class8]

theorem SameMarks.markOwn (h : SameMarks s t) (m : ClassMasks) : t.markOwn m = s.markOwn m := by
  unfold State.markOwn
  rw [h.ownBit, h.holds, h.holds, h.holds, h.holds]

theorem SameMarks.clearOwn (h : SameMarks s t) (m : ClassMasks) : t.clearOwn m = s.clearOwn m := by
  unfold State.clearOwn
  rw [h.ownBit]

theorem SameMarks.offer (h : SameMarks s t) (f : Option FaultRecord) : t.offer f = s.offer f := by
  unfold State.offer State.firstSource State.earliestBefore State.offerRecord State.ownPosition
  rw [h.latch, h.position]

theorem SameMarks.trans {u : State} (h : SameMarks s t) (k : SameMarks t u) : SameMarks s u :=
  ⟨k.cfg.trans h.cfg, k.latch.trans h.latch, k.class8.trans h.class8, k.position.trans h.position⟩

theorem SameMarks.symm (h : SameMarks s t) : SameMarks t s :=
  ⟨h.cfg.symm, h.latch.symm, h.class8.symm, h.position.symm⟩

end

end Sys2Proof.Machine

/-! Proofs, section 8. The return trip block at a member and at the master (R16, R18, R96, R99, R106). -/

namespace Sys2Proof.Machine

set_option Elab.async false

section
variable {s : State}

/-- The return passage behind its trip block: the slots come next. -/
def Passage.slotsNext (p : Passage) : Passage := { p with stage := .slots, next := 0 }

theorem State.onReturn_flu (f : Passage → Passage) : (s.onReturn false f).flu = { s.flu with ret := f s.flu.ret } := rfl

theorem State.retTrip_arrived {b : Block} (hs : s.flu.ret.stage = .trip) :
    s.retTrip (.arrived b) = (s.arrivedTrip b).onReturn false Passage.slotsNext := by
  unfold State.retTrip
  dsimp only
  rw [if_pos hs]
  rfl

/-- A row that names an outcome is the whole event where the event has it (log 4). -/
theorem State.whenOutcome_holds {f : State → State} {p : State → State → Bool} (h : p s (f s) = true) :
    s.whenOutcome f p = f s := if_pos h

/-! ### At a member (R99) -/

theorem State.arrivedTrip_member {b : Block} (hm : s.isMember = true) (hu : s.flu.ret.used = true) :
    s.arrivedTrip b = s.memberRetTrip b := by
  unfold State.arrivedTrip
  rw [if_neg (by simp [State.isMaster_of_isMember hm]), if_neg (by simp [hu]), if_pos hm]

/-- A good trip block on the return run of a member (R99). -/
theorem State.memberRetTrip_good {b : Block} {bs : List Byte} (hb : goodBytes 32 b = some bs) :
    s.memberRetTrip b = (s.onTru fun u => { u with pressFault := (parseTrip bs).fault }).onFlu fun u =>
      { u with txUp := { u.txUp with trip := passTrip b (parseTrip bs) (s.memberReturnTrip (parseTrip bs)).2 } } := by
  unfold State.memberRetTrip
  rw [hb]
  rfl

/-! ### At the master (R16, R18, R96, R106) -/

theorem State.arrivedTrip_matched {b : Block} {bs : List Byte} (hm : s.isMaster = true) (hk : s.flu.ret.isMatched = true)
    (hb : goodBytes 32 b = some bs) : s.arrivedTrip b = s.masterTrip (parseTrip bs) := by
  unfold State.arrivedTrip
  rw [if_pos hm, if_pos hk, hb]

/-- An unmatched frame's trip block, and a bad one, do no more than reset the run-up count (R16). -/
theorem State.arrivedTrip_unmatched {b : Block} (hm : s.isMaster = true)
    (h : s.flu.ret.isMatched = false ∨ goodBytes 32 b = none) :
    s.arrivedTrip b = if s.flu.ret.isMatched then s.resetRunUp else s := by
  unfold State.arrivedTrip
  rw [if_pos hm]
  cases hk : s.flu.ret.isMatched with
  | false => rfl
  | true =>
    have hb : goodBytes 32 b = none := h.resolve_left (by simp [hk])
    rw [if_pos rfl, if_pos rfl, hb]

theorem nextPress_eq (t : Tru) (g : Byte) (m : ClassMasks) : nextPress t g m = (match t.press with
    | .resetting =>
      if t.resetPending = true ∨ g ≠ t.known then .resetting
      else if m = ClassMasks.empty then .clear else .tripped
    | .clear => if m = ClassMasks.empty then .clear else .tripped
    | .tripped => .tripped
    | .notApplicable => .notApplicable) := by
  unfold nextPress ClassMasks.isEmpty
  cases t.press <;> simp

theorem State.allReady_iff (t : TripFields) : s.allReady t = true ↔
    t.presence &&& s.cfg.required = s.cfg.required ∧ t.ready &&& s.cfg.required = s.cfg.required := by
  unfold State.allReady
  rw [Bool.and_eq_true, decide_eq_true_iff, decide_eq_true_iff]

/-- The run-up count and the passage to RUN (R16, R18). -/
theorem State.runUpTrip_flu (t : TripFields) : (s.runUpTrip t).flu =
    if s.allReady t then
      (if 15 ≤ s.flu.runUp then { s.flu with runUp := 16, mstate := .run, absence := Vector.replicate 32 0 }
        else { s.flu with runUp := s.flu.runUp + 1 })
    else { s.flu with runUp := 0 } := by
  unfold State.runUpTrip
  by_cases hr : s.allReady t = true
  · by_cases h : 15 ≤ s.flu.runUp
    · rw [if_pos hr, if_pos hr, if_pos h, if_pos (by omega)]
      rfl
    · rw [if_pos hr, if_pos hr, if_neg h, if_neg (by omega)]
      rfl
  · rw [if_neg hr, if_neg hr]
    rfl

/-- The passage to RUN is reported with flag 1 (R16). -/
theorem State.runUpTrip_flag (t : TripFields) (hr : s.allReady t = true) (h : 15 ≤ s.flu.runUp) :
    (s.runUpTrip t).cnu.flags.getLsbD 1 = true := by
  unfold State.runUpTrip
  rw [if_pos hr, if_pos (by omega)]
  exact State.notify_self _ 1

theorem nextAbsence_get (required presence : Word) (a : Vector Nat 32) (q : Fin 32) :
    (nextAbsence required presence a)[q] =
      if required.getLsbD q.val = true then (if presence.getLsbD q.val = true then 0 else min 255 (a[q] + 1)) else a[q] := by
  unfold nextAbsence
  simp

theorem State.absenceTrip_flu (t : TripFields) : (s.absenceTrip t).flu =
    { s.flu with absence := nextAbsence s.cfg.required t.presence s.flu.absence } := by
  unfold State.absenceTrip
  rw [State.handStamped_flu]
  rfl

theorem State.nodeAbsent_iff : s.nodeAbsent = true ↔
    ∃ q : Fin 32, s.cfg.required.getLsbD q.val = true ∧ s.cfg.lossLimit ≤ s.flu.absence[q] := by
  unfold State.nodeAbsent
  simp [List.any_eq_true]

theorem State.masterTrip_setup (t : TripFields) (h : s.flu.mstate = .setup) :
    s.masterTrip t = (s.masterReturnTrip t).runUpTrip t := if_pos h

theorem State.masterTrip_run (t : TripFields) (h : s.flu.mstate = .run) :
    s.masterTrip t = (s.masterReturnTrip t).absenceTrip t :=
  if_neg fun k : s.flu.mstate = .setup => by rw [h] at k; cases k

/-- In RUN, what the condition of source 14 is and what the other sources keep (R18). -/
theorem State.absenceTrip_tru (t : TripFields) :
    ((s.absenceTrip t).tru.cond[(14 : Fin 15)] = true ↔ ∃ q : Fin 32, s.cfg.required.getLsbD q.val = true ∧
      s.cfg.lossLimit ≤ (nextAbsence s.cfg.required t.presence s.flu.absence)[q]) ∧
    (∀ n : Fin 15, n ≠ 14 →
      (s.absenceTrip t).tru.latch[n] = s.tru.latch[n] ∧ (s.absenceTrip t).tru.cond[n] = s.tru.cond[n]) ∧
    (s.absenceTrip t).tru.relay = s.tru.relay ∧ (s.absenceTrip t).tru.pressFault = s.tru.pressFault ∧
    (s.absenceTrip t).tru.press = s.tru.press := by
  unfold State.absenceTrip
  refine ⟨?_, fun n hn => State.handStamped_other _ _ _ hn, State.handStamped_relay _ _ _ _,
    State.handStamped_pressFault _ _ _ _, State.handStamped_press _ _ _ _⟩
  rw [State.handStamped_cond_self, State.nodeAbsent_iff]
  rfl

/-- The node-missing condition that becomes present latches source 14 with the epoch's cycle number and phase 0 (R18, R91). -/
theorem State.absenceTrip_latch (t : TripFields) (hc : s.tru.cond[(14 : Fin 15)] = false)
    (hk : s.cfg.classes[(14 : Fin 15)] ≠ .clear) (ha : (s.absenceTrip t).tru.cond[(14 : Fin 15)] = true) :
    (s.absenceTrip t).tru.latch[(14 : Fin 15)] =
      (s.tru.latch[(14 : Fin 15)]).or (some { cycle := s.flu.cycle, phase := 0 }) := by
  unfold State.absenceTrip at ha ⊢
  rw [State.handStamped_cond_self] at ha
  rw [State.handStamped_latch, ha]
  exact State.latchAfter_self _ hc hk

/-- What every good matched trip block leaves in the master's records (R96, R99, R106). -/
theorem State.masterTrip_records (t : TripFields) :
    (s.masterTrip t).tru.relay = some { masks := t.masks, presence := t.presence, fault := t.fault } ∧
    (s.masterTrip t).tru.pressFault = t.fault ∧ (s.masterTrip t).tru.press = nextPress s.tru t.gen t.masks ∧
    (s.masterTrip t).flu.ret = s.flu.ret := by
  cases h : s.flu.mstate with
  | setup =>
    rw [State.masterTrip_setup t h, (State.runUpTrip_fr _ t).keeps_tru, State.runUpTrip_flu]
    refine ⟨rfl, rfl, rfl, ?_⟩
    split
    · split <;> rfl
    · rfl
  | run =>
    obtain ⟨_, _, hr, hf, hp⟩ := State.absenceTrip_tru (s := s.masterReturnTrip t) t
    rw [State.masterTrip_run t h, hr, hf, hp, State.absenceTrip_flu]
    exact ⟨rfl, rfl, rfl, rfl⟩

/-- In SETUP a matched trip block counts the run-up (R16). -/
theorem State.masterTrip_counts (t : TripFields) (h : s.flu.mstate = .setup) :
    let ready := t.presence &&& s.cfg.required = s.cfg.required ∧ t.ready &&& s.cfg.required = s.cfg.required
    (s.masterTrip t).flu.runUp = (if ready then min 16 (s.flu.runUp + 1) else 0) ∧
    (s.masterTrip t).flu.mstate = (if ready ∧ 15 ≤ s.flu.runUp then .run else .setup) ∧
    (s.flu.runUp < 15 → (s.masterTrip t).flu.absence = s.flu.absence) ∧
    (s.masterTrip t).tru.latch = s.tru.latch ∧ (s.masterTrip t).tru.cond = s.tru.cond := by
  intro ready
  rw [State.masterTrip_setup t h, (State.runUpTrip_fr _ t).keeps_tru, State.runUpTrip_flu]
  have hr : (s.masterReturnTrip t).allReady t = true ↔ ready := State.allReady_iff (s := s.masterReturnTrip t) t
  have hf : (s.masterReturnTrip t).flu = s.flu := rfl
  have ht : (s.masterReturnTrip t).tru.latch = s.tru.latch ∧ (s.masterReturnTrip t).tru.cond = s.tru.cond := ⟨rfl, rfl⟩
  rw [hf]
  by_cases k : ready
  · rw [if_pos (hr.2 k), if_pos k]
    by_cases h15 : 15 ≤ s.flu.runUp
    · rw [if_pos h15, if_pos ⟨k, h15⟩]
      refine ⟨?_, rfl, fun x => absurd h15 (by omega), ht⟩
      show 16 = min 16 (s.flu.runUp + 1)
      omega
    · rw [if_neg h15, if_neg fun x => h15 x.2]
      refine ⟨?_, h, fun _ => rfl, ht⟩
      show s.flu.runUp + 1 = min 16 (s.flu.runUp + 1)
      omega
  · rw [if_neg fun x => k (hr.1 x), if_neg k, if_neg fun x => k x.1]
    exact ⟨rfl, h, fun _ => rfl, ht⟩

/-- In RUN it counts the absences (R18). -/
theorem State.masterTrip_absences (t : TripFields) (h : s.flu.mstate = .run) :
    (s.masterTrip t).flu = { s.flu with absence := nextAbsence s.cfg.required t.presence s.flu.absence } := by
  rw [State.masterTrip_run t h, State.absenceTrip_flu]
  rfl

end

/-- Settles O28: `State.arrivedTrip` at a member and at the master. -/
theorem returnTripBlockCarriesTheFirstFault : Obligations.ReturnTripBlockCarriesTheFirstFault := by
  intro dt b s hl hst ret
  have wf : (Instr.returnTripBlock dt (.arrived b)).wf = true := decide_eq_true hl
  have hr := State.retTrip_arrived (s := s.elapse dt) (b := b) hst
  refine ⟨?_, ?_, ?_⟩
  · intro bs hm hu hb f
    rw [State.arrivedTrip_member (s := s.elapse dt) hm hu, State.memberRetTrip_good hb] at hr
    refine ⟨_, exec_checked (fun u => u.retTrip (.arrived b)) wf hr, by rw [State.settle_tru]; rfl,
      by rw [State.settle_flu]; rfl, State.settled_only _ ((State.onTru_fr _ _).mono (qs := [.flu, .tru]) |>.comp
        (State.onFlu_fr _ _) |>.comp (State.onReturn_fr _ _ _))⟩
  · intro bs hm hk hb f ready
    rw [State.arrivedTrip_matched (s := s.elapse dt) hm hk hb] at hr
    refine ⟨_, exec_checked (fun u => u.retTrip (.arrived b)) wf hr, ?_⟩
    have hf := ((s.elapse dt).masterTrip_fr f).comp (State.onReturn_fr _ false Passage.slotsNext)
    obtain ⟨hrelay, hfault, hpress, hret⟩ := State.masterTrip_records (s := s.elapse dt) f
    rw [State.settle_tru, State.settle_flu]
    refine ⟨hrelay, hfault, hpress.trans (nextPress_eq _ _ _), fun hs => State.masterTrip_counts (s := s.elapse dt) f hs,
      fun hs => ?_, congrArg Passage.slotsNext hret, State.settled_only _ hf⟩
    have he := State.masterTrip_absences (s := s.elapse dt) f hs
    obtain ⟨hcond, hother, _⟩ := State.absenceTrip_tru (s := (s.elapse dt).masterReturnTrip f) f
    rw [← State.masterTrip_run (s := s.elapse dt) f hs] at hcond hother
    rw [State.onReturn_flu, he]
    exact ⟨hs, rfl, nextAbsence_get _ _ _, hcond, hother⟩
  · intro hs hm h
    rw [State.arrivedTrip_unmatched (s := s.elapse dt) hm h] at hr
    cases hk : s.flu.ret.isMatched with
    | false =>
      rw [if_neg (by simp [hk])] at hr
      refine ⟨_, exec_checked (fun u => u.retTrip (.arrived b)) wf hr, ?_⟩
      rw [State.settle_flu_only hs (State.onReturn_fr _ _ _).mono rfl]
      exact ⟨by simp [State.onReturn_flu, ret, Passage.slotsNext, hk], State.effect_only _ (State.onReturn_fr _ _ _)⟩
    | true =>
      rw [if_pos (show (s.elapse dt).flu.ret.isMatched = true from hk)] at hr
      have hf := (s.elapse dt).resetRunUp_fr.comp (State.onReturn_fr _ false Passage.slotsNext)
      refine ⟨_, exec_checked (fun u => u.retTrip (.arrived b)) wf hr, ?_⟩
      rw [State.settle_flu_only hs hf.mono (by rw [State.onReturn_flu, State.resetRunUp_flu]; rfl)]
      refine ⟨?_, State.effect_only _ hf⟩
      rw [State.onReturn_flu, State.resetRunUp_flu]
      have hM : (s.elapse dt).isMaster = true := hm
      simp [ret, Passage.slotsNext, hM]

/-- Settles O29: `State.runUpTrip` at fifteen. -/
theorem sixteenReadyReturnsPassToRun : Obligations.SixteenReadyReturnsPassToRun := by
  intro dt b bs s hl hm hs hst hg hk hb hp hready h15
  have wf : (Instr.passageToRun dt b).wf = true := decide_eq_true hl
  have hr := State.retTrip_arrived (s := s.elapse dt) (b := b) hst
  rw [State.arrivedTrip_matched (s := s.elapse dt) hm hk hb] at hr
  obtain ⟨hrelay, hfault, -, -⟩ := State.masterTrip_records (s := s.elapse dt) (parseTrip bs)
  obtain ⟨hrun, hstate, -, -, -⟩ := State.masterTrip_counts (s := s.elapse dt) (parseTrip bs) hs
  rw [if_pos ⟨hp, hready⟩] at hrun
  rw [if_pos ⟨⟨hp, hready⟩, h15.ge⟩] at hstate
  have hout := State.whenOutcome_holds (s := s.elapse dt) (f := fun s => s.retTrip (.arrived b)) (p := entersRun)
    (by rw [hr]; simp [entersRun, State.onReturn_flu, hstate, hs])
  rw [hr] at hout
  refine ⟨_, exec_checked (fun u => u.whenOutcome (fun s => s.retTrip (.arrived b)) entersRun) wf hout, ?_⟩
  rw [State.settle_tru, State.settle_flu, State.onReturn_flu]
  rw [State.masterTrip_setup (s := s.elapse dt) _ hs] at hrun hstate hrelay hfault ⊢
  have hall : ((s.elapse dt).masterReturnTrip (parseTrip bs)).allReady (parseTrip bs) = true :=
    (State.allReady_iff (s := (s.elapse dt).masterReturnTrip (parseTrip bs)) _).2 ⟨hp, hready⟩
  refine ⟨hstate, hrun.trans (by rw [State.elapse_flu, h15]; rfl), fun q => ?_, ?_, hrelay, hfault,
    State.settled_only _ ((((s.elapse dt).masterReturnTrip_fr _).mono (qs := [.flu, .tru, .flags])).comp
      (State.runUpTrip_fr _ _) |>.comp (State.onReturn_fr _ _ _))⟩
  · rw [State.runUpTrip_flu, if_pos hall, if_pos (show 15 ≤ ((s.elapse dt).masterReturnTrip (parseTrip bs)).flu.runUp from h15.ge)]
    simp
  · refine FlagsStay.settle (s := ((s.elapse dt).masterReturnTrip (parseTrip bs)).runUpTrip (parseTrip bs))
      (FlagsStay.frame (FlagsStay.refl _) (State.onReturn_fr _ _ _)) _ 1 ?_
    exact State.runUpTrip_flag _ hall h15.ge

/-- Settles O30: `State.absenceTrip` at the limit. -/
theorem missingNodesAreCounted : Obligations.MissingNodesAreCounted := by
  intro dt b bs p s hl hm hs hst hg hk hb hp hpres hlim h15
  have wf : (Instr.nodeMissing dt b).wf = true := decide_eq_true hl
  have hr := State.retTrip_arrived (s := s.elapse dt) (b := b) hst
  rw [State.arrivedTrip_matched (s := s.elapse dt) hm hk hb] at hr
  have he := State.masterTrip_absences (s := s.elapse dt) (parseTrip bs) hs
  obtain ⟨hcond, -, -⟩ := State.absenceTrip_tru (s := (s.elapse dt).masterReturnTrip (parseTrip bs)) (parseTrip bs)
  have hat : (nextAbsence s.cfg.required (parseTrip bs).presence s.flu.absence)[p] = s.cfg.lossLimit := by
    rw [nextAbsence_get, if_pos hp, if_neg (by rw [hpres]; decide), hlim]
    omega
  have hout := State.whenOutcome_holds (s := s.elapse dt) (f := fun s => s.retTrip (.arrived b)) (p := missesNode) (by
    rw [hr]
    refine List.any_eq_true.2 ⟨p, List.mem_finRange p, ?_⟩
    rw [State.onReturn_flu, he, Bool.and_eq_true, decide_eq_true_iff, decide_eq_true_iff]
    exact ⟨show s.flu.absence[p] < s.cfg.lossLimit by omega, hat.ge⟩)
  rw [hr] at hout
  refine ⟨_, exec_checked (fun u => u.whenOutcome (fun s => s.retTrip (.arrived b)) missesNode) wf hout, ?_⟩
  rw [State.settle_tru, State.settle_flu, State.onReturn_flu, he]
  rw [State.masterTrip_run (s := s.elapse dt) _ hs]
  have hpresent := hcond.2 ⟨p, hp, hat.ge⟩
  exact ⟨nextAbsence_get _ _ _, hpresent, fun h0 hc => State.absenceTrip_latch _ h0 hc hpresent,
    State.settled_only _ ((((s.elapse dt).masterReturnTrip_fr _).mono (qs := [.flu, .tru, .cmu, .flags])).comp
      (State.absenceTrip_fr _ _) |>.comp (State.onReturn_fr _ _ _))⟩

end Sys2Proof.Machine

/-! Proofs, section 9. The out-run trip block at a member (R7, R12, R94, R97, R98, R105). -/

namespace Sys2Proof.Machine

set_option Elab.async false

section
variable {s : State}

/-! ### What a member makes of a good trip block, by ring state -/

/-- The node with the masks of a trip block as its remote view, its acting class recomputed (R94). -/
def State.viewing (s : State) (m : ClassMasks) : State := (s.onTru fun u => { u with remote := m }).recompute

/-- A JOINED node behind a good trip block: a generation that differs from the known one is a reset token (R94, R105). -/
def State.tripTaken (s : State) (f : TripFields) : State :=
  if f.gen ≠ s.tru.known then (s.viewing f.masks).takeToken f.gen else s.viewing f.masks

theorem State.viewing_tru (s : State) (m : ClassMasks) : ∃ cl r x on k, (s.viewing m).tru =
    { s.tru with remote := m, acting := cl, requests := r, forced := x, timerOn := on, timerCount := k } := by
  unfold State.viewing
  rw [State.recompute_tru]
  obtain ⟨r, x, on, k, e⟩ := Tru.act_eq (s.onTru fun u => { u with remote := m }).tru
    ((s.onTru fun u => { u with remote := m }).localClass.worst (s.onTru fun u => { u with remote := m }).remoteClass)
  exact ⟨_, r, x, on, k, e⟩

theorem State.viewing_fr (s : State) (m : ClassMasks) : Frame [.tru, .cmu, .flags] s (s.viewing m) :=
  ((s.onTru_fr _).mono (qs := [.tru, .cmu, .flags])).comp (State.recompute_fr _)

theorem State.tripTaken_fr (s : State) (f : TripFields) : Frame [.tru, .cmu, .flags] s (s.tripTaken f) :=
  Frame.ite ((s.viewing_fr _).comp (State.takeToken_fr _ _)) (s.viewing_fr _)

theorem State.tripTaken_acts (s : State) (f : TripFields) : (s.tripTaken f).ActsOnWhatItHolds := by
  unfold State.tripTaken
  split
  · exact State.recompute_acts _
  · exact State.recompute_acts _

/-- A JOINED node's remote view and conditions behind a good trip block, its generation being the known one (R94, R105). -/
theorem State.tripTaken_view (s : State) (f : TripFields) :
    (s.tripTaken f).tru.known = f.gen ∧ (s.tripTaken f).tru.remote = f.masks ∧ (s.tripTaken f).tru.cond = s.tru.cond := by
  obtain ⟨_, _, _, _, _, e⟩ := s.viewing_tru f.masks
  unfold State.tripTaken
  split
  · obtain ⟨_, _, _, _, _, e1⟩ := (s.viewing f.masks).takeToken_tru f.gen
    rw [e1, e]
    exact ⟨rfl, rfl, rfl⟩
  · rename_i h
    rw [e]
    exact ⟨(not_not.1 h).symm, rfl, rfl⟩

/-- A reset token: the power-up hold is released, and the sources whose conditions are absent leave the latch (R105). -/
theorem State.tripTaken_token {f : TripFields} (h : f.gen ≠ s.tru.known) : (s.tripTaken f).tru.hold = false ∧
    ∀ n : Fin 15, (s.tripTaken f).tru.latch[n] = if n = 8 ∨ s.tru.cond[n] = false then none else s.tru.latch[n] := by
  obtain ⟨_, _, _, _, _, e⟩ := s.viewing_tru f.masks
  obtain ⟨_, _, _, _, _, e1⟩ := (s.viewing f.masks).takeToken_tru f.gen
  unfold State.tripTaken
  rw [if_pos h, e1]
  refine ⟨rfl, fun n => ?_⟩
  rw [e]
  exact Tru.cleared_get _ n

/-- The known generation resets nothing (R105). -/
theorem State.tripTaken_known {f : TripFields} (h : f.gen = s.tru.known) : (s.tripTaken f).tru.hold = s.tru.hold ∧
    (s.tripTaken f).tru.latch = s.tru.latch ∧ (s.tripTaken f).tru.class8 = s.tru.class8 := by
  obtain ⟨_, _, _, _, _, e⟩ := s.viewing_tru f.masks
  unfold State.tripTaken
  rw [if_neg (not_not.2 h), e]
  exact ⟨rfl, rfl, rfl⟩

/-- Setting the own bit where the header was good, and no bit where it was not. -/
theorem or_ownBit (g : Bool) (m x : Word) : (if g then m ||| x else m) = m ||| (if g then x else 0) := by
  cases g <;> simp

theorem State.memberTrip_joined (f : TripFields) (g : Bool) (h : s.flu.ring = .joined) : s.memberTrip f g =
    (s.tripTaken f, { f with
      masks := (s.tripTaken f).markOwn ((s.tripTaken f).clearOwn f.masks), fault := (s.tripTaken f).offer f.fault,
      presence := f.presence ||| (if g then s.ownBit else 0), ready := f.ready ||| (if g then s.ownBit else 0) }) := by
  have hk : (s.viewing f.masks).tru.known = s.tru.known := by
    obtain ⟨_, _, _, _, _, e⟩ := s.viewing_tru f.masks
    rw [e]
  unfold State.memberTrip
  rw [h]
  rw [← or_ownBit, ← or_ownBit]
  unfold State.tripTaken
  rw [← hk]
  rfl

theorem State.memberTrip_following (f : TripFields) (g : Bool) (h : s.flu.ring = .following) : s.memberTrip f g =
    ((s.onTru fun u => { u with known := f.gen }).viewing f.masks, { f with
      masks := s.clearOwn f.masks, presence := f.presence ||| (if g then s.ownBit else 0) }) := by
  have hb : ((s.onTru fun u => { u with known := f.gen }).viewing f.masks).ownBit = s.ownBit := by
    unfold State.ownBit
    rw [(State.viewing_fr _ _).keeps_flu]
    rfl
  unfold State.memberTrip
  rw [h, ← or_ownBit]
  unfold State.clearOwn
  rw [← hb]
  rfl

theorem State.memberTrip_seeking (f : TripFields) (g : Bool) (h : s.flu.ring = .seeking) : s.memberTrip f g =
    (s.onTru fun u => { u with known := f.gen }, f) := by
  unfold State.memberTrip
  rw [h]

theorem passTrip_same (b : Block) (f : TripFields) : passTrip b f f = b := if_pos rfl

/-! ### The block passes -/

/-- The out-run passage behind its trip block, which leaves as `b1`. -/
def Flu.tripSent (u : Flu) (b1 : Block) : Flu :=
  { u with out := { u.out with stage := .tags }, txDown := { u.txDown with trip := b1 } }

/-- A good trip block at a member: what the node makes of it, and the block that leaves. -/
theorem State.outTrip_good {b : Block} {bs : List Byte} {r : State × TripFields} (hs : s.flu.out.stage = .trip)
    (hm : s.isMember = true) (hb : goodBytes 32 b = some bs) (hr : s.memberTrip (parseTrip bs) s.flu.out.good = r) :
    s.outTrip b = r.1.onFlu fun u => u.tripSent (passTrip b (parseTrip bs) r.2) := by
  unfold State.outTrip
  dsimp only
  rw [if_neg (not_not.2 hs), hb]
  dsimp only
  rw [if_pos hm, hr]
  rfl

theorem State.outTrip_bad {b : Block} (hs : s.flu.out.stage = .trip) (hb : goodBytes 32 b = none) :
    s.outTrip b = s.onFlu fun u => u.tripSent b := by
  unfold State.outTrip
  rw [if_neg (not_not.2 hs), hb]
  rfl

/-- The FLU's own work on a passage, and the end of an event, change no mark. -/
theorem State.settled_marks (s0 s : State) (f : Flu → Flu) (hp : (f s.flu).position = s.flu.position) :
    SameMarks s (State.settle s0 (s.onFlu f)) :=
  ⟨by rw [State.settle_cfg]; rfl, by rw [State.settle_tru]; rfl, by rw [State.settle_tru]; rfl,
    by rw [State.settle_flu]; exact hp⟩

theorem State.settled_acts {s0 s : State} (h : s.ActsOnWhatItHolds) (f : Flu → Flu)
    (hp : (f s.flu).position = s.flu.position) : (State.settle s0 (s.onFlu f)).ActsOnWhatItHolds :=
  h.of_same (by rw [State.settle_cfg]; rfl) (by rw [State.settle_tru]; rfl) (by rw [State.settle_flu]; exact hp)

end

/-- Settles O41: `State.memberTrip` in each ring state. -/
theorem membersHandleTheTripBlock : Obligations.MembersHandleTheTripBlock := by
  intro dt b s hl hm hst sent bit
  have wf : (Instr.outRunTripBlock dt b).wf = true := decide_eq_true hl
  refine ⟨?_, ?_⟩
  · intro bs hb f
    have he := fun r => State.outTrip_good (s := s.elapse dt) (r := r) hst hm hb
    have hf := ((s.elapse dt).outTrip_fr b).mono (qs := [.flu, .tru, .cmu, .flags])
    have only := State.settled_only (dt := dt) (s := s) [.now, .flu, .tru, .cmu, .flags, .ptu, .lde] hf
    refine ⟨_, exec_checked (fun u => u.outTrip b) wf rfl, ?_⟩
    cases hr : s.flu.ring with
    | joined =>
      rw [he _ (State.memberTrip_joined (s := s.elapse dt) f _ hr)] at only ⊢
      obtain ⟨hk, hv, hc⟩ := (s.elapse dt).tripTaken_view f
      have ha := (s.elapse dt).tripTaken_acts f
      have hu : ((s.elapse dt).tripTaken f).flu = s.flu := ((s.elapse dt).tripTaken_fr f).keeps_flu
      have ht := State.tripTaken_token (s := s.elapse dt) (f := f)
      have hn := State.tripTaken_known (s := s.elapse dt) (f := f)
      generalize (s.elapse dt).tripTaken f = x at *
      generalize hb1 : passTrip b (parseTrip bs) _ = b1 at only ⊢
      have same := State.settled_marks (s.elapse dt) x (fun u => u.tripSent b1) rfl
      refine ⟨by rw [State.settle_tru]; exact hk, fun _ => ⟨by rw [State.settle_tru]; exact hv, State.settled_acts ha _ rfl,
        by rw [State.settle_tru]; exact hc, by rw [State.settle_tru]; exact ht, by rw [State.settle_tru]; exact hn, ?_⟩,
        fun k => (RingState.noConfusion k), fun k => (RingState.noConfusion k), only⟩
      show State.flu _ = _
      rw [same.markOwn, same.clearOwn, same.offer, State.settle_flu, State.onFlu_flu, hu, ← hb1]
      rfl
    | following =>
      rw [he _ (State.memberTrip_following (s := s.elapse dt) f _ hr)] at only ⊢
      obtain ⟨_, _, _, _, _, e⟩ := ((s.elapse dt).onTru fun u => { u with known := f.gen }).viewing_tru f.masks
      have hu : (((s.elapse dt).onTru fun u => { u with known := f.gen }).viewing f.masks).flu = s.flu :=
        (State.viewing_fr _ _).keeps_flu
      have ha : (((s.elapse dt).onTru fun u => { u with known := f.gen }).viewing f.masks).ActsOnWhatItHolds :=
        State.recompute_acts _
      generalize ((s.elapse dt).onTru fun u => { u with known := f.gen }).viewing f.masks = x at *
      have hknown : x.tru.known = f.gen := by rw [e]; rfl
      have hremote : x.tru.remote = f.masks := by rw [e]
      have hlatch : x.tru.latch = s.tru.latch := by rw [e]; rfl
      have hhold : x.tru.hold = s.tru.hold := by rw [e]; rfl
      refine ⟨by rw [State.settle_tru]; exact hknown, fun k => (RingState.noConfusion k),
        fun _ => ⟨by rw [State.settle_tru]; exact hremote, State.settled_acts ha _ rfl,
          by rw [State.settle_tru]; exact hlatch, by rw [State.settle_tru]; exact hhold, ?_⟩,
        fun k => (RingState.noConfusion k), only⟩
      show State.flu _ = _
      rw [State.settle_flu, State.onFlu_flu, hu]
      rfl
    | seeking =>
      rw [he _ (State.memberTrip_seeking (s := s.elapse dt) f _ hr), passTrip_same] at only ⊢
      refine ⟨by rw [State.settle_tru]; rfl, fun k => (RingState.noConfusion k), fun k => (RingState.noConfusion k),
        fun _ => ⟨by rw [State.settle_tru]; rfl, ?_⟩, only⟩
      show State.flu _ = _
      rw [State.settle_flu]
      rfl
  · intro hb hs
    have he := State.outTrip_bad (s := s.elapse dt) hst hb
    refine ⟨_, exec_checked (fun u => u.outTrip b) wf he, ?_⟩
    rw [State.settle_onFlu hs _ rfl]
    exact ⟨rfl, State.effect_only _ (State.onFlu_fr _ _)⟩

end Sys2Proof.Machine

/-! Proofs, section 10. Slots received and landed, and the end node's own copy (R13, R119, R120, R124). -/

namespace Sys2Proof.Machine

set_option Elab.async false

/-! ### Folds -/

/-- A fold in which every step keeps a value. -/
theorem foldl_keeps {α σ β : Type} (f : σ → α → σ) (get : σ → β) (l : List α) (h : ∀ u x, x ∈ l → get (f u x) = get u)
    (u : σ) : get (l.foldl f u) = get u := by
  induction l generalizing u with
  | nil => rfl
  | cons x l ih =>
    rw [List.foldl_cons, ih fun v y hy => h v y (List.mem_cons_of_mem _ hy), h u x (List.mem_cons_self ..)]

/-- A fold in which one step alone can change a value: it finds the value as it was, and leaves it as it ends. -/
theorem foldl_once {α σ β : Type} (f : σ → α → σ) (get : σ → β) {a : α} {l : List α} (hn : l.Nodup) (ha : a ∈ l)
    (h : ∀ u x, x ≠ a → get (f u x) = get u) (u : σ) :
    ∃ v, get v = get u ∧ get (l.foldl f u) = get (f v a) := by
  obtain ⟨l1, l2, rfl⟩ := List.append_of_mem ha
  have hn1 : a ∉ l1 ∧ a ∉ l2 := by
    rw [List.nodup_append] at hn
    exact ⟨fun hm => hn.2.2 a hm a (List.mem_cons_self ..) rfl, (List.nodup_cons.1 hn.2.1).1⟩
  refine ⟨l1.foldl f u, foldl_keeps f get l1 (fun v x hx => h v x fun e => hn1.1 (e ▸ hx)) u, ?_⟩
  rw [List.foldl_append, List.foldl_cons]
  exact foldl_keeps f get l2 (fun v x hx => h v x fun e => hn1.2 (e ▸ hx)) _

section
variable {s : State}

/-! ### The end of the slot area (R124) -/

/-- The landing request of window `i` empties what it had gathered, and leaves every entry. -/
theorem State.landSlots_slu (s : State) (i : Fin 8) : (s.landSlots i).slu.entries = s.slu.entries ∧
    (∀ j, j ≠ i → (s.landSlots i).slu.landing[j] = s.slu.landing[j]) ∧
    ((s.cfg.slotIn i).isSome = true → (s.landSlots i).slu.landing[i] = Vector.replicate 8 none) := by
  have k : ∀ r, (s.requestUrgent (.slotIn i) r).slu = s.slu := fun r => (State.requestUrgent_fr _ _ _).only .slu (by decide)
  unfold State.landSlots
  split
  · rw [State.onSlu_slu, k]
    exact ⟨rfl, fun j hj => setAt_other _ _ hj, fun _ => setAt_self _ _ _⟩
  · rename_i h
    exact ⟨rfl, fun _ _ => rfl, fun x => by rw [h] at x; cases x⟩

theorem State.endSlotArea_entries (s : State) : s.endSlotArea.slu.entries = s.slu.entries :=
  foldl_keeps _ (fun u : State => u.slu.entries) _ (fun u i _ => (u.landSlots_slu i).1) s

theorem State.endSlotArea_landing (i : Fin 8) (h : (s.cfg.slotIn i).isSome = true) :
    s.endSlotArea.slu.landing[i] = Vector.replicate 8 none := by
  obtain ⟨v, hv, e⟩ := foldl_once State.landSlots (fun u => (u.cfg, u.slu.landing[i])) (List.nodup_finRange 8)
    (List.mem_finRange i) (fun u x hx => by
      rw [(u.landSlots_fr x).keeps_cfg, (u.landSlots_slu x).2.1 i (Ne.symm hx)]) s
  have hc : v.cfg = s.cfg := congrArg Prod.fst hv
  exact (congrArg Prod.snd e).trans ((v.landSlots_slu i).2.2 (by rw [hc]; exact h))

/-! ### The landing queue at the end of the slot area -/

/-- The URGENT entries of a source. -/
def Lde.of (q : Lde) (src : UrgentSource) : List UrgentEntry := q.urgent.filter fun e => decide (e.src = src)

/-- A request of one source leaves the entries of another. -/
theorem Lde.requestUrgent_other (q : Lde) {src other : UrgentSource} (runs : List Run) (h : src ≠ other) :
    (q.requestUrgent src runs).of other = q.of other := by
  unfold Lde.requestUrgent Lde.of
  split
  · simp [List.filter_append, h]
  · split
    · rfl
    · have hp : ((fun e : UrgentEntry => decide (e.src = other)) ∘ fun x : UrgentEntry =>
          if x.src = src then { x with runs := mergeRuns x.runs runs } else x) = fun e => decide (e.src = other) := by
        funext x
        by_cases hx : x.src = src <;> simp [hx]
      rw [List.filter_map, hp]
      refine (List.map_congr_left (g := id) fun x hx => ?_).trans (List.map_id _)
      have hx2 : x.src = other := by simpa using (List.mem_filter.1 hx).2
      exact if_neg (by rw [hx2]; exact Ne.symm h)

/-- The first request of a source is a new entry. -/
theorem Lde.requestUrgent_first (q : Lde) (src : UrgentSource) (runs : List Run) (h : q.of src = []) :
    (q.requestUrgent src runs).of src = [{ src := src, runs := runs, done := 0 }] := by
  have hn : q.urgent.find? (fun e => decide (e.src = src)) = none := by
    rw [List.find?_eq_none]
    rw [Lde.of, List.filter_eq_nil_iff] at h
    exact h
  unfold Lde.requestUrgent
  rw [hn]
  unfold Lde.of at h ⊢
  simp [List.filter_append, h]

/-- An URGENT request leaves the NORMAL entries and the M-port's holder. -/
theorem Lde.requestUrgent_keeps (q : Lde) (src : UrgentSource) (runs : List Run) :
    (q.requestUrgent src runs).holder = q.holder ∧ (q.requestUrgent src runs).normal = q.normal := by
  unfold Lde.requestUrgent
  split
  · exact ⟨rfl, rfl⟩
  · split <;> exact ⟨rfl, rfl⟩

theorem State.requestUrgent_lde (src : UrgentSource) (runs : List Run) :
    (s.requestUrgent src runs).lde = if runs.isEmpty then s.lde else s.lde.requestUrgent src runs := by
  unfold State.requestUrgent
  split <;> rfl

/-- The runs that window `i` has gathered (R124). -/
def State.gathered (s : State) (i : Fin 8) (w : Window) : List Run :=
  (List.finRange 8).filterMap fun k =>
    (s.slu.landing[i][k]).map fun ws => ({ addr := entryWord w k.val, words := ws } : Run)

theorem State.gathered_mem {i k : Fin 8} {ws : List Word} (w : Window) (h : s.slu.landing[i][k] = some ws) :
    ({ addr := w.word + 8 * k.val, words := ws } : Run) ∈ s.gathered i w :=
  List.mem_filterMap.2 ⟨k, List.mem_finRange k, by rw [h]; rfl⟩

theorem State.landSlots_lde (i : Fin 8) : (s.landSlots i).lde = match s.cfg.slotIn i with
    | some (w, _, _, _) => (s.requestUrgent (.slotIn i) (s.gathered i w)).lde
    | none => s.lde := by
  unfold State.landSlots
  cases s.cfg.slotIn i <;> rfl

theorem State.landSlots_keeps (i : Fin 8) :
    (s.landSlots i).lde.holder = s.lde.holder ∧ (s.landSlots i).lde.normal = s.lde.normal := by
  rw [State.landSlots_lde]
  split
  · rw [State.requestUrgent_lde]
    split
    · exact ⟨rfl, rfl⟩
    · exact Lde.requestUrgent_keeps _ _ _
  · exact ⟨rfl, rfl⟩

/-- A window's request leaves the other windows' entries. -/
theorem State.landSlots_other {i j : Fin 8} (h : j ≠ i) : (s.landSlots j).lde.of (.slotIn i) = s.lde.of (.slotIn i) := by
  rw [State.landSlots_lde]
  split
  · rw [State.requestUrgent_lde]
    split
    · rfl
    · exact Lde.requestUrgent_other _ _ fun e => h (UrgentSource.slotIn.inj e)
  · rfl

/-- What a window has gathered is requested as one new entry where none of its own is queued (R124). -/
theorem State.landSlots_first {i k : Fin 8} {w : Window} {es : List (Fin 128)} {lim : Nat} {trip : Bool} {ws : List Word}
    (hw : s.cfg.slotIn i = some (w, es, lim, trip)) (hl : s.slu.landing[i][k] = some ws)
    (hq : s.lde.of (.slotIn i) = []) :
    (s.landSlots i).lde.of (.slotIn i) = [{ src := .slotIn i, runs := s.gathered i w, done := 0 }] := by
  rw [State.landSlots_lde, hw]
  dsimp only
  rw [State.requestUrgent_lde, if_neg (by simp [List.ne_nil_of_mem (State.gathered_mem w hl)])]
  exact Lde.requestUrgent_first _ _ _ hq

theorem State.endSlotArea_keeps (s : State) :
    s.endSlotArea.lde.holder = s.lde.holder ∧ s.endSlotArea.lde.normal = s.lde.normal :=
  ⟨foldl_keeps _ (fun u : State => u.lde.holder) _ (fun _ i _ => (State.landSlots_keeps i).1) s,
    foldl_keeps _ (fun u : State => u.lde.normal) _ (fun _ i _ => (State.landSlots_keeps i).2) s⟩

/-- At the end of the slot area of an empty queue every word gathered is requested (R124). -/
theorem State.endSlotArea_requests {i k : Fin 8} {w : Window} {es : List (Fin 128)} {lim : Nat} {trip : Bool}
    {ws : List Word} (hu : s.lde.urgent = []) (hw : s.cfg.slotIn i = some (w, es, lim, trip))
    (hl : s.slu.landing[i][k] = some ws) : ∃ e ∈ s.endSlotArea.lde.urgent,
      e.src = .slotIn i ∧ ({ addr := w.word + 8 * k.val, words := ws } : Run) ∈ e.runs := by
  obtain ⟨v, hv, he⟩ := foldl_once State.landSlots (fun u => (u.cfg, u.slu.landing[i], u.lde.of (.slotIn i)))
    (List.nodup_finRange 8) (List.mem_finRange i) (fun u x hx => by
      rw [(u.landSlots_fr x).keeps_cfg, (u.landSlots_slu x).2.1 i (Ne.symm hx), State.landSlots_other hx]) s
  simp only [Prod.mk.injEq] at hv he
  obtain ⟨vc, vl, vq⟩ := hv
  rw [State.landSlots_first (s := v) (k := k) (by rw [vc]; exact hw) (by rw [vl]; exact hl)
    (by rw [vq, Lde.of, hu]; rfl)] at he
  have hmem := (List.mem_filter.1 (he.2.2 ▸ List.mem_singleton.2 rfl :
    _ ∈ s.endSlotArea.lde.of (.slotIn i))).1
  exact ⟨_, hmem, rfl, State.gathered_mem w (by rw [vl]; exact hl)⟩

/-! ### The end of an event that queues URGENT entries -/

/-- The arbiter grants a free M-port to a queued URGENT entry (R42). -/
theorem State.arbitrate_urgent (hf : s.lde.holder = .free) (hn : s.lde.normal = []) (hu : s.lde.urgent ≠ []) :
    s.arbitrate = s.giveTo .urgent := by
  unfold State.arbitrate
  rw [if_neg (not_not.2 hf), s.starve_id hn, if_pos (by simpa using hu)]

/-! ### A slot area that passes (R3, R13, R124) -/

/-- The return passage behind its slot area: the cells come next. -/
def Passage.cellsNext (p : Passage) : Passage := { p with stage := .cells, next := 0 }

theorem State.retSlotsEnd_area {src : AreaSource} (hs : (s.flu.returnPassage (fromCopy src)).stage = .slots) :
    s.retSlotsEnd src = ((if (s.flu.returnPassage (fromCopy src)).used then s.endSlotArea else s).sendArea src).onReturn
      (fromCopy src) Passage.cellsNext := if_pos hs

/-! ### A slot that is received (R119, R120) -/

/-- The entries that name slot `n` take a reception (R120). -/
def State.takeSlot (s : State) (n : Fin 128) (p : Fin 32) (data : List Byte) : State :=
  s.onSlu fun u => (List.finRange 8).foldl (fun u i =>
    (List.finRange 8).foldl (fun u k => if s.cfg.entrySlot i k = some n then u.receiveAt i k p data else u) u) u

/-- One reception at one entry leaves every other. -/
theorem Slu.receiveAt_other (u : Slu) {i k j l : Fin 8} (p : Fin 32) (data : List Byte) (h : j ≠ i ∨ l ≠ k) :
    (u.receiveAt i k p data).entries[j][l] = u.entries[j][l] := by
  unfold Slu.receiveAt
  by_cases hj : j = i
  · subst hj
    rw [modAt_self, setAt_other _ _ (h.resolve_left (not_not.2 rfl))]
  · rw [modAt_other _ _ hj]

theorem Slu.receiveAt_self (u : Slu) (i k : Fin 8) (p : Fin 32) (data : List Byte) :
    (u.receiveAt i k p data).entries[i][k] = u.entries[i][k].receive p := by
  unfold Slu.receiveAt
  rw [modAt_self, setAt_self]

/-- An entry that names the slot is received once (R120). -/
theorem State.takeSlot_entry {n : Fin 128} {i k : Fin 8} (p : Fin 32) (data : List Byte)
    (h : s.cfg.entrySlot i k = some n) :
    (s.takeSlot n p data).slu.entries[i][k] = s.slu.entries[i][k].receive p := by
  have skip : ∀ (u : Slu) (j l : Fin 8), j ≠ i ∨ l ≠ k →
      (if s.cfg.entrySlot j l = some n then u.receiveAt j l p data else u).entries[i][k] = u.entries[i][k] := by
    intro u j l hjl
    split
    · exact Slu.receiveAt_other _ _ _ (hjl.imp Ne.symm Ne.symm)
    · rfl
  obtain ⟨u, hu, he⟩ := foldl_once
    (fun (u : Slu) j => (List.finRange 8).foldl (fun u l =>
      if s.cfg.entrySlot j l = some n then u.receiveAt j l p data else u) u)
    (fun u => u.entries[i][k]) (List.nodup_finRange 8) (List.mem_finRange i)
    (fun u j hj => foldl_keeps _ (fun u : Slu => u.entries[i][k]) _ (fun v l _ => skip v j l (.inl hj)) u) s.slu
  obtain ⟨v, hv, hf⟩ := foldl_once (fun (u : Slu) l => if s.cfg.entrySlot i l = some n then u.receiveAt i l p data else u)
    (fun u => u.entries[i][k]) (List.nodup_finRange 8) (List.mem_finRange k) (fun v l hl => skip v i l (.inr hl)) u
  refine he.trans (hf.trans ?_)
  rw [if_pos h, Slu.receiveAt_self, hv, hu]

/-- An entry names slots that the node subscribes to (R117). -/
theorem NodeCfg.subscribes_of_entry {c : NodeCfg} {i k : Fin 8} {n : Fin 128} (h : c.entrySlot i k = some n) :
    c.subscribes n = true := by
  unfold NodeCfg.subscribes
  refine List.any_eq_true.2 ⟨i, List.mem_finRange i, ?_⟩
  unfold NodeCfg.entrySlot at h
  split at h
  · simp only [List.contains_iff_mem]
    exact List.mem_of_getElem? h
  · cases h

theorem State.receiveSlot_eq {n : Fin 128} (p : Fin 32) (data : List Byte) (h : s.cfg.subscribes n = true) :
    s.receiveSlot n p data = State.handStale s ((s.takeSlot n p data).onAxu fun x =>
      { x with fresh := setAt x.fresh n (some (BitVec.ofNat 32 (field data 0 4))) }) := if_pos h

/-- A valid slot of a passage that the node uses (R119, R120). -/
theorem State.slotArrives_valid {q : Passage} {n : Fin 128} {tags slot : Block} {bs : List Byte} {p : Fin 32}
    {data : List Byte} (hr : s.receives = true) (hg : q.good = true) (hu : q.used = true)
    (ht : goodBytes 18 tags = some bs) (hb : tagBit bs n = true) (hs : slotPublisher slot = some (p, data)) :
    s.slotArrives q n tags slot = s.receiveSlot n p data := by
  unfold State.slotArrives
  rw [hr, hg, hu, if_pos (by rfl), ht, hs]
  exact if_pos hb

theorem State.retSlot_copy {n : Fin 128} {slot : Block} (hs : s.flu.copy.stage = .slots) (hn : s.flu.copy.next ≤ n.val)
    (hb : s.flu.txDown.slots[n.val]? = some slot) : s.retSlot n .copy =
      (s.slotArrives s.flu.copy n s.flu.txDown.tags slot).onReturn true fun p => { p with next := n.val + 1 } := by
  unfold State.retSlot
  dsimp only
  rw [if_pos ⟨hs, hn⟩, hb]

/-! ### The copy's other blocks (R13) -/

theorem State.retHeader_copy (hs : s.flu.copy.stage = .header) (hb : s.flu.txDown.header ≠ []) : s.retHeader .copy =
    s.onFlu fun u => { u with
      txUp := { u.txUp with header := u.txDown.header }, copy := { u.copy with stage := .trip } } := by
  unfold State.retHeader
  dsimp only
  rw [if_pos ⟨hs, hb⟩]
  rfl

theorem State.retTrip_copy (hs : s.flu.copy.stage = .trip) (hb : s.flu.txDown.trip ≠ []) : s.retTrip .copy =
    (s.memberRetTrip s.flu.txDown.trip).onReturn true Passage.slotsNext := by
  unfold State.retTrip
  dsimp only
  rw [if_pos ⟨hs, hb⟩]
  rfl

theorem Passage.cellPassed_eq (p : Passage) :
    p.cellPassed = if p.next < 95 then { p with next := p.next + 1 } else Passage.idle := by
  unfold Passage.cellPassed
  by_cases h : p.next < 95
  · rw [if_pos h, if_neg (by omega)]
  · rw [if_neg h, if_pos (by omega)]

theorem State.retCell_copy {b : Block} (hs : s.flu.copy.stage = .cells)
    (hb : s.flu.txDown.cells[s.flu.copy.next]? = some b) : s.retCell .copy = s.passCell true b := by
  unfold State.retCell
  dsimp only
  rw [if_pos hs, hb]

/-- The FLU behind a cell of the copy: it leaves upstream, and the passage moves on (R13, R134). -/
theorem State.passCell_copy (b : Block) : (s.passCell true b).flu = { s.flu with
    copy := s.flu.copy.cellPassed, txUp := { s.flu.txUp with cells := s.flu.txUp.cells ++ [b] } } := by
  have h := State.cellArrives_flu s (s.flu.returnPassage true) b
  unfold State.passCell
  generalize s.cellArrives (s.flu.returnPassage true) b = x at h
  show { x.flu with copy := x.flu.copy.cellPassed, txUp := { x.flu.txUp with cells := x.flu.txUp.cells ++ [b] } } = _
  rw [h]

/-- The node is JOINED, and so it receives slots (R119). -/
theorem State.receives_of_isJoined (h : s.isJoined = true) : s.receives = true := by
  simp only [State.isJoined, Bool.and_eq_true, decide_eq_true_iff] at h
  simp [State.receives, h.1, h.2]

/-- The FLU behind the slot area of an arriving frame that the node uses (R3, R13). -/
theorem State.sendArea_arrived (tags : Block) (slots : List Block) (hu : s.flu.ret.used = true) :
    (s.sendArea (.arrived tags slots)).flu = { s.flu with
      txUp := if s.isMaster then s.flu.txUp else { s.flu.txUp with tags := tags, slots := slots } } := by
  unfold State.sendArea State.goesUp fromCopy
  cases s.isMaster <;> simp [hu]

end

/-- Settles O32: `State.endSlotArea` at a quiet landing queue. -/
theorem slotAreaEndRequestsTheLandings : Obligations.SlotAreaEndRequestsTheLandings := by
  intro dt i k w es lim trip ws tags slots s wf hq hst hu hw hl
  obtain ⟨hfree, hurgent, hnormal, -, -⟩ := hq
  have he : (s.elapse dt).retSlotsEnd (.arrived tags slots) =
      ((s.elapse dt).endSlotArea.sendArea (.arrived tags slots)).onReturn false Passage.cellsNext := by
    rw [State.retSlotsEnd_area (s := s.elapse dt) (src := .arrived tags slots) hst, if_pos (by exact hu)]
    rfl
  have hf := (s.elapse dt).retSlotsEnd_fr (.arrived tags slots)
  rw [he] at hf
  have hsend := State.sendArea_arrived (s := (s.elapse dt).endSlotArea) tags slots (by rw [State.endSlotArea_flu]; exact hu)
  obtain ⟨hholder, hkeep⟩ := (s.elapse dt).endSlotArea_keeps
  obtain ⟨e, hmem, hsrc, hrun⟩ := State.endSlotArea_requests (s := s.elapse dt) hurgent hw hl
  have hlanding := State.endSlotArea_landing (s := s.elapse dt) i (by rw [State.elapse_cfg, hw]; rfl)
  have hentries := (s.elapse dt).endSlotArea_entries
  have hsa := (s.elapse dt).endSlotArea_fr
  refine ⟨_, exec_checked (fun u => u.retSlotsEnd (.arrived tags slots)) wf he, ?_⟩
  generalize (s.elapse dt).endSlotArea = x at *
  have hxf : x.flu = s.flu := hsa.keeps_flu
  have hxm : x.isMaster = s.isMaster := hsa.keeps_isMaster
  have hx := (x.sendArea_fr (.arrived tags slots)).comp (State.onReturn_fr _ false Passage.cellsNext)
  have hflu : ((x.sendArea (.arrived tags slots)).onReturn false Passage.cellsNext).flu = { s.flu with
      ret := { s.flu.ret with stage := .cells, next := 0 },
      txUp := if s.isMaster then s.flu.txUp else { s.flu.txUp with tags := tags, slots := slots } } := by
    rw [State.onReturn_flu, hsend, hxf, hxm]
    rfl
  generalize (x.sendArea (.arrived tags slots)).onReturn false Passage.cellsNext = y at *
  have hy : State.settle (s.elapse dt) y = y.giveTo .urgent := by
    rw [State.settle, State.reportTrip_id hf.keeps_tru (by rw [hflu]; rfl), State.arbitrate_urgent]
    · rw [hx.keeps_lde, hholder]; exact hfree
    · rw [hx.keeps_lde, hkeep]; exact hnormal
    · rw [hx.keeps_lde]; exact List.ne_nil_of_mem hmem
  rw [hy]
  refine ⟨⟨e, by rw [State.giveTo, State.onLde_lde, hx.keeps_lde]; exact hmem, hsrc, hrun⟩, ?_, ?_, hflu,
    State.effect_only _ (hf.comp (y.giveTo_fr .urgent))⟩
  · show y.slu.landing[i][k] = none
    rw [hx.keeps_slu, hlanding]
    simp
  · show y.slu.entries = s.slu.entries
    rw [hx.keeps_slu]
    exact hentries

/-- Settles O43: `State.retHeader` to `State.retCell` of the copy. -/
theorem turnedAroundCopiesAreReturns : Obligations.TurnedAroundCopiesAreReturns := by
  intro dt s hs
  refine ⟨?_, ?_, ?_, ?_, ?_⟩
  · intro hst hb
    refine ⟨_, exec_checked (fun u => u.retHeader .copy) rfl (State.retHeader_copy (s := s.elapse dt) hst hb), ?_⟩
    rw [State.settle_onFlu hs _ rfl]
    exact ⟨rfl, State.effect_only _ (State.onFlu_fr _ _)⟩
  · intro bs hst hb hg f
    have he := State.retTrip_copy (s := s.elapse dt) hst hb
    rw [State.memberRetTrip_good (s := s.elapse dt) (b := (s.elapse dt).flu.txDown.trip) hg] at he
    exact ⟨_, exec_checked (fun u => u.retTrip .copy) rfl he, by rw [State.settle_tru]; rfl,
      by rw [State.settle_flu]; rfl, State.settled_only _ ((State.onTru_fr _ _).mono (qs := [.flu, .tru]) |>.comp
        (State.onFlu_fr _ _) |>.comp (State.onReturn_fr _ _ _))⟩
  · intro n slot bs p data i k hj hst hg hu hn ht hb hslot hpub hentry
    have hr : (s.elapse dt).receives = true := State.receives_of_isJoined hj
    have he := State.retSlot_copy (s := s.elapse dt) hst hn hslot
    have hf := (s.elapse dt).retSlot_fr n .copy
    rw [he] at hf
    have hv := State.slotArrives_valid (s := s.elapse dt) (q := s.flu.copy) hr hg hu ht hb hpub
    have hflu := State.slotArrives_flu (s.elapse dt) s.flu.copy n s.flu.txDown.tags slot
    rw [State.receiveSlot_eq (s := s.elapse dt) p data (NodeCfg.subscribes_of_entry hentry)] at hv
    have hw := State.takeSlot_entry (s := s.elapse dt) p data hentry
    refine ⟨_, exec_checked (fun u => u.retSlot n .copy) rfl he, ?_, ?_, ?_, State.settled_only _ hf⟩
    · rw [State.settle_flu]
      show { ((s.elapse dt).slotArrives s.flu.copy n s.flu.txDown.tags slot).flu.copy with next := n.val + 1 } = _
      rw [hflu]
      rfl
    · rw [State.settle_slu]
      show ((s.elapse dt).slotArrives s.flu.copy n s.flu.txDown.tags slot).slu.entries[i][k] = _
      rw [hv, (State.handStale_fr _ _).keeps_slu]
      exact hw
    · rw [State.settle_axu]
      show ((s.elapse dt).slotArrives s.flu.copy n s.flu.txDown.tags slot).axu.fresh[n] = _
      rw [hv, (State.handStale_fr _ _).keeps_axu]
      exact setAt_self _ _ _
  · intro hst
    have he : (s.elapse dt).retSlotsEnd .copy =
        ((if s.flu.copy.used then (s.elapse dt).endSlotArea else s.elapse dt).sendArea .copy).onReturn true
          Passage.cellsNext := State.retSlotsEnd_area (s := s.elapse dt) (src := .copy) hst
    have hf := (s.elapse dt).retSlotsEnd_fr .copy
    refine ⟨_, exec_checked (fun u => u.retSlotsEnd .copy) rfl he, ?_⟩
    rw [he] at hf
    rw [State.settle_flu, State.settle_slu]
    have hx : (if s.flu.copy.used then (s.elapse dt).endSlotArea else s.elapse dt).flu = s.flu := by
      split
      · exact State.endSlotArea_flu _
      · rfl
    refine ⟨?_, fun hu i k hw => ?_, State.settled_only _ hf⟩
    · generalize (if s.flu.copy.used then (s.elapse dt).endSlotArea else s.elapse dt) = x at hx
      show { x.flu with copy := x.flu.copy.cellsNext,
                        txUp := { x.flu.txUp with tags := x.flu.txDown.tags, slots := x.flu.txDown.slots } } = _
      rw [hx]
      rfl
    · show (if s.flu.copy.used then (s.elapse dt).endSlotArea else s.elapse dt).slu.landing[i][k] = none
      rw [if_pos hu, State.endSlotArea_landing (s := s.elapse dt) i hw]
      simp
  · intro b hst hb
    have he := State.retCell_copy (s := s.elapse dt) hst hb
    refine ⟨_, exec_checked (fun u => u.retCell .copy) rfl he, ?_, State.settled_only _ (State.passCell_fr _ true b)⟩
    rw [State.settle_flu, State.passCell_copy, Passage.cellPassed_eq]
    rfl

end Sys2Proof.Machine

/-! Proofs, section 11. Cells of the return run: passed on, and handed to their owners (R134, R135, R161 to R163, R175, R177,
R184). -/

namespace Sys2Proof.Machine

set_option Elab.async false

section
variable {s : State}

/-! ### The arbiter where no P-port cycle is in progress -/

theorem State.cycleWaits_none (h : s.ptu.cycle = none) : s.cycleWaits = false := by
  unfold State.cycleWaits
  rw [h]
  rfl

theorem State.starve_keeps (s : State) : s.starve.lde.normal = s.lde.normal ∧ s.starve.lde.holder = s.lde.holder := by
  unfold State.starve
  split <;> exact ⟨rfl, rfl⟩

/-- With no P-port cycle in progress the arbiter touches the landing queue only, and no NORMAL entry of it (R42). -/
theorem State.arbitrate_idle (h : s.ptu.cycle = none) :
    Frame [.lde] s s.arbitrate ∧ s.arbitrate.lde.normal = s.lde.normal := by
  have hs := s.starve_fr
  have hw : s.starve.cycleWaits = false := State.cycleWaits_none (by rw [hs.keeps_ptu]; exact h)
  have hn := s.starve_keeps.1
  unfold State.arbitrate
  split
  · exact ⟨Frame.refl _ _, rfl⟩
  · dsimp only
    rw [hw]
    split
    · exact ⟨hs.comp (State.giveTo_fr _ _), hn⟩
    · rw [if_neg (by simp)]
      split
      · exact ⟨hs.comp (State.giveTo_fr _ _), hn⟩
      · exact ⟨hs, hn⟩

/-- The end of an event that reports nothing of the trip state, no P-port cycle being in progress. -/
theorem State.settle_idle {s0 : State} (ht : s.tru = s0.tru) (hp : s.flu.position = s0.flu.position)
    (hc : s.ptu.cycle = none) :
    Frame [.lde] s (State.settle s0 s) ∧ (State.settle s0 s).lde.normal = s.lde.normal := by
  unfold State.settle
  rw [State.reportTrip_id ht hp]
  exact State.arbitrate_idle hc

/-! ### A NORMAL request at a queue with room (R41) -/

theorem State.normalFull_of_empty (h : s.lde.normal = []) : s.normalFull = false := by
  unfold State.normalFull
  rw [h]
  rfl

/-- A request at a queue with room is entered at its tail. -/
theorem State.requestNormal_room (h : s.normalFull = false) (req : Requester) (runs : List Run) :
    s.requestNormal req runs = s.onLde fun q => { q with
      normal := q.normal ++ [{ req := req, runs := runs, entered := s.now, done := 0, got := [] }] } := by
  unfold State.requestNormal
  rw [if_neg (by simp [h])]

/-! ### A tile marked dirty stays marked until it is in flight (R172) -/

/-- A tile of outgoing screen `i` is marked dirty, or its fetch is in flight. -/
def State.TileMarked (s : State) (i : Fin 2) (u : Nat) : Prop :=
  s.scu.out[i].dirty.getLsbD u = true ∨ (i, u) ∈ s.scu.inFlight

theorem setDirty_get (d : BitVec 8192) {t u : Nat} (hu : u < 8192) :
    (setDirty d t).getLsbD u = (d.getLsbD u || decide (t = u)) := by
  unfold setDirty
  rw [BitVec.getLsbD_or, BitVec.getLsbD_shiftLeft]
  by_cases h : t = u
  · simp [h, hu]
  · rcases Nat.lt_or_gt_of_ne h with k | k
    · simp [h, hu, BitVec.getLsbD_one, show ¬ u < t by omega, show u - t ≠ 0 by omega]
    · simp [h, show u < t from k]

theorem clearDirty_get (d : BitVec 8192) {t u : Nat} (h : t ≠ u) (hd : d.getLsbD u = true) :
    (clearDirty d t).getLsbD u = true := by
  have hu : u < 8192 := BitVec.lt_of_getLsbD hd
  unfold clearDirty
  rw [BitVec.getLsbD_and, hd, BitVec.getLsbD_not, BitVec.getLsbD_shiftLeft]
  rcases Nat.lt_or_gt_of_ne h with k | k
  · simp [hu, BitVec.getLsbD_one, show ¬ u < t by omega, show u - t ≠ 0 by omega]
  · simp [hu, show u < t from k]

theorem State.requestNormal_scu (req : Requester) (runs : List Run) : (s.requestNormal req runs).scu = s.scu :=
  (State.requestNormal_fr _ _ _).only .scu (by decide)

/-- A fetch of one tile leaves every other tile's bit, and its own bit is set again where the request is discarded (R172). -/
theorem State.fetchTile_scu (i : Fin 2) (w : Window) (p : ScreenParams) (t : Nat) :
    (s.fetchTile i w p t).scu.inFlight = (if s.normalFull then s.scu.inFlight else s.scu.inFlight ++ [(i, t)]) ∧
    (s.fetchTile i w p t).scu.out[i].dirty = (if s.normalFull then setDirty (clearDirty s.scu.out[i].dirty t) t
      else clearDirty s.scu.out[i].dirty t) ∧
    (∀ j, j ≠ i → (s.fetchTile i w p t).scu.out[j] = s.scu.out[j]) ∧
    (s.fetchTile i w p t).scu.buffer = s.scu.buffer := by
  have k := State.requestNormal_scu
    (s := s.onOut i fun o => { o with dirty := clearDirty o.dirty t, scan := nextTile p t })
    (.tileRead i t) (tileRuns w p t fun _ => List.replicate 8 0)
  unfold State.fetchTile
  dsimp only
  generalize State.requestNormal (s.onOut i _) _ _ = x at k ⊢
  cases s.normalFull with
  | true =>
    rw [if_pos rfl, if_pos rfl, if_pos rfl]
    show x.scu.inFlight = _ ∧ (modAt x.scu.out i _)[i].dirty = _ ∧
      (∀ j, j ≠ i → (modAt x.scu.out i _)[j] = _) ∧ x.scu.buffer = _
    rw [k]
    refine ⟨rfl, ?_, fun j hj => ?_, rfl⟩
    · rw [modAt_self]
      show setDirty (modAt s.scu.out i _)[i].dirty t = _
      rw [modAt_self]
    · rw [modAt_other _ _ hj]
      exact modAt_other _ _ hj
  | false =>
    rw [if_neg (by simp), if_neg (by simp), if_neg (by simp)]
    show x.scu.inFlight ++ _ = _ ∧ x.scu.out[i].dirty = _ ∧ (∀ j, j ≠ i → x.scu.out[j] = _) ∧ x.scu.buffer = _
    rw [k]
    refine ⟨rfl, ?_, fun j hj => modAt_other _ _ hj, rfl⟩
    show (modAt s.scu.out i _)[i].dirty = _
    rw [modAt_self]

theorem State.fetchTile_marked (i : Fin 2) (w : Window) (p : ScreenParams) (t : Nat) {j : Fin 2} {u : Nat}
    (h : s.TileMarked j u) : (s.fetchTile i w p t).TileMarked j u := by
  obtain ⟨hf, hd, ho, -⟩ := State.fetchTile_scu (s := s) i w p t
  unfold State.TileMarked
  rcases h with h | h
  · by_cases hj : j = i
    · subst hj
      have hu : u < 8192 := BitVec.lt_of_getLsbD h
      rw [hd, hf]
      by_cases hn : s.normalFull = true
      · rw [if_pos hn]
        refine .inl ?_
        rw [setDirty_get _ hu]
        by_cases ht : t = u
        · simp [ht]
        · rw [clearDirty_get _ ht h]
          rfl
      · rw [if_neg hn, if_neg hn]
        by_cases ht : t = u
        · exact .inr (by simp [ht])
        · exact .inl (clearDirty_get _ ht h)
    · rw [ho j hj]
      exact .inl h
  · refine .inr ?_
    rw [hf]
    split
    · exact h
    · exact List.mem_append_left _ h

theorem State.fetchOnce_cases {t : State} (h : s.fetchOnce = some t) : ∃ i w p k, t = s.fetchTile i w p k := by
  unfold State.fetchOnce at h
  split at h
  · split at h
    · split at h
      · exact ⟨_, _, _, _, (Option.some.inj h).symm⟩
      · cases h
    · cases h
  · cases h

/-- Fetches are issued one after another: what each keeps, all keep (R172). -/
theorem State.tryFetch_cases (P : State → Prop) (h : P s) (step : ∀ (t : State) i w p k, P t → P (t.fetchTile i w p k)) :
    P s.tryFetch := by
  have once : ∀ {t u : State}, P t → t.fetchOnce = some u → P u := by
    intro t u ht hu
    obtain ⟨i, w, p, k, rfl⟩ := State.fetchOnce_cases hu
    exact step t i w p k ht
  unfold State.tryFetch
  split
  · exact h
  · rename_i a ha
    split
    · exact once h ha
    · split
      · exact once h ha
      · exact once (once h ha) ‹_›

theorem State.tryFetch_marked {j : Fin 2} {u : Nat} (h : s.TileMarked j u) : s.tryFetch.TileMarked j u :=
  State.tryFetch_cases (fun t => t.TileMarked j u) h fun _ i w p k ht => State.fetchTile_marked i w p k ht

theorem State.tryFetch_buffer (s : State) : s.tryFetch.scu.buffer = s.scu.buffer :=
  State.tryFetch_cases (fun t => t.scu.buffer = s.scu.buffer) rfl fun _ i w p k ht =>
    (State.fetchTile_scu i w p k).2.2.2.trans ht

theorem allDirty_get {n u : Nat} (hn : u < n) (hu : u < 8192) : (allDirty n).getLsbD u = true := by
  unfold allDirty
  rw [BitVec.getLsbD_ofNat, Nat.testBit_two_pow_sub_one]
  simp [hn, hu]

/-- A full refresh marks every tile of its screen (R175). -/
theorem State.fullRefresh_marks {i : Fin 2} {w : Window} {p : ScreenParams} {u : Nat}
    (h : s.cfg.screenOut i = some (w, p)) (hu : u < p.tiles) (hu2 : u < 8192) : (s.fullRefresh i).TileMarked i u := by
  refine .inl ?_
  unfold State.fullRefresh
  rw [h]
  show (modAt s.scu.out i _)[i].dirty.getLsbD u = true
  rw [modAt_self]
  exact allDirty_get hu hu2

/-! ### The owner of each kind of cell (R135) -/

/-- The search over two screens finds the one that fits, where no other does. -/
theorem find_screen {f : Fin 2 → Bool} {i : Fin 2} (hi : f i = true) (h : ∀ j, f j = true → j = i) :
    (List.finRange 2).find? f = some i := by
  have e : List.finRange 2 = [0, 1] := rfl
  rw [e]
  match i with
  | 0 => rw [List.find?_cons_of_pos hi]
  | 1 =>
    have h0 : f 0 ≠ true := fun k => absurd (h 0 k) (by decide)
    rw [List.find?_cons_of_neg h0, List.find?_cons_of_pos hi]

/-- A head of the configured size begins an image in a FREE buffer (R162). -/
theorem State.headArrives_free {i : Fin 4} {w : Window} {p : StreamParams} (c : CellFields)
    (hc : s.cfg.stream i = some (w, p)) (ha : s.igu.streams[i].asm = none)
    (hs : field (receivedHead c.payload) 4 4 = p.size) (ho : s.igu.streams[i].own[s.igu.streams[i].next] = .free) :
    s.headArrives i p c = s.onStream i fun x => { x with
      own := setAt x.own x.next .assembling, idle := 0,
      asm := some { imgNo := c.imgNo, buffer := x.next, info := parseHead (receivedHead c.payload), landed := 0, last := 0,
                    broken := false } } := by
  have he : s.endImage i false = s := by
    unfold State.endImage
    rw [ha, hc]
  unfold State.headArrives
  simp only [he, hs, ho, and_self, if_true]

/-- A data fragment that is not the image's last is requested for landing (R163). -/
theorem State.dataArrives_lands {i : Fin 4} (w : Window) {p : StreamParams} {c : CellFields} {a : Assembly}
    (hn : s.normalFull = false) (ha : s.igu.streams[i].asm = some a) (hi : a.imgNo = c.imgNo) (hl : a.last < c.index)
    (hx : c.index ≤ p.size / 256) (hc : c.len = 256) (ht : a.landed + 1 ≠ p.size / 256) :
    s.dataArrives i w p c = (s.requestNormal .fragment
        [{ addr := w.word + a.buffer.val * p.size / 4 + (c.index - 1) * 64, words := wordsOfBytes c.payload }]).onStream i
      fun x => { x with idle := 0, asm := some { a with landed := a.landed + 1, last := c.index } } := by
  unfold State.dataArrives
  rw [ha]
  dsimp only
  rw [if_neg (not_not.2 hi), if_neg (by omega), if_neg (by simp [hn]), if_neg ht]

/-- A tile of the screen of its source and number is requested for landing (R177). -/
theorem State.deliverTile_lands {i : Fin 2} {w : Window} {p : ScreenParams} {c : CellFields}
    (hw : s.cfg.screenIn i = some (w, p)) (hp : p.pos = c.source) (hn : p.number = c.stream)
    (hone : ∀ j v q, s.cfg.screenIn j = some (v, q) → q.pos = c.source → q.number = c.stream → j = i)
    (hx : c.index < p.tiles) (hc : c.len = 256) : s.deliverTile c = s.requestNormal (.tileLand i)
      (tileRuns w p c.index fun j => wordsOfBytes ((c.payload.drop (32 * j)).take 32)) := by
  have hf := find_screen (i := i) (f := fun i => match s.cfg.screenIn i with
    | some (_, p) => decide (p.pos = c.source) && decide (p.number = c.stream)
    | none => false) (by rw [hw]; simp [hp, hn]) (fun j hj => by
      cases hs : s.cfg.screenIn j with
      | none => rw [hs] at hj; cases hj
      | some v =>
        rw [hs] at hj
        simp only [Bool.and_eq_true, decide_eq_true_iff] at hj
        exact hone j v.1 v.2 hs hj.1 hj.2)
  unfold State.deliverTile
  split
  · rename_i j hj
    have hji : j = i := Option.some.inj (hj.symm.trans hf)
    rw [hji, hw]
    exact if_pos ⟨hx, hc⟩
  · rename_i hj
    exact absurd (hj.symm.trans hf) (by simp)

/-- A refresh request refreshes the outgoing screen of its source and number (R175). -/
theorem State.deliverScreenReq_refreshes {i : Fin 2} {w : Window} {p : ScreenParams} {c : CellFields}
    (hw : s.cfg.screenOut i = some (w, p)) (hp : p.pos = c.source) (hn : p.number = c.stream)
    (hone : ∀ j v q, s.cfg.screenOut j = some (v, q) → q.pos = c.source → q.number = c.stream → j = i) :
    s.deliverScreenReq c = (s.fullRefresh i).tryFetch := by
  have hf := find_screen (i := i) (f := fun i => match s.cfg.screenOut i with
    | some (_, p) => decide (p.pos = c.source) && decide (p.number = c.stream)
    | none => false) (by rw [hw]; simp [hp, hn]) (fun j hj => by
      cases hs : s.cfg.screenOut j with
      | none => rw [hs] at hj; cases hj
      | some v =>
        rw [hs] at hj
        simp only [Bool.and_eq_true, decide_eq_true_iff] at hj
        exact hone j v.1 v.2 hs hj.1 hj.2)
  unfold State.deliverScreenReq
  split
  · rename_i j hj
    rw [Option.some.inj (hj.symm.trans hf)]
  · rename_i hj
    exact absurd (hj.symm.trans hf) (by simp)

theorem State.deliverImage_eq {i : Fin 4} {w : Window} {p : StreamParams} (head : Bool) {c : CellFields}
    (hi : s.streamOf c = some i) (hw : s.cfg.stream i = some (w, p)) :
    s.deliverImage head c = if head then s.headArrives i p c else s.dataArrives i w p c := by
  unfold State.deliverImage
  rw [hi]
  dsimp only
  rw [hw]

theorem State.handCell_image {c : CellFields} (head : Bool) (h : c.kind = if head then 1 else 2) :
    s.handCell c = s.deliverImage head c := by
  unfold State.handCell
  cases head <;> simp [h]

theorem State.handCell_tile {c : CellFields} (h : c.kind = 3) : s.handCell c = s.deliverTile c := by
  simp [State.handCell, h]

theorem State.handCell_keys {c : CellFields} (h : c.kind = 4) : s.handCell c = s.deliverKeys c := by
  simp [State.handCell, h]

theorem State.handCell_refresh {c : CellFields} (h : c.kind = 5) : s.handCell c = s.deliverScreenReq c := by
  simp [State.handCell, h]

/-- A request that is entered is among the NORMAL entries. -/
theorem State.requestNormal_mem (h : s.normalFull = false) (req : Requester) (runs : List Run) :
    ∃ e ∈ (s.requestNormal req runs).lde.normal, e.req = req ∧ e.runs = runs := by
  rw [State.requestNormal_room h]
  exact ⟨_, List.mem_append_right _ (List.mem_singleton.2 rfl), rfl, rfl⟩

/-- Key events land with the list's new write index (R184). -/
theorem State.deliverKeys_lands {w : Window} {c : CellFields} (hf : s.normalFull = false)
    (hw : s.cfg.only .keys = some w) (h8 : c.len % 8 = 0) (hl : c.len ≤ 128) :
    let wi := (s.ksc.writeIndex + c.len / 8) % 64
    let count := s.ksc.landedCount + BitVec.ofNat 16 (c.len / 8)
    (s.deliverKeys c).ksc = { s.ksc with writeIndex := wi, landedCount := count } ∧
      ∃ e ∈ (s.deliverKeys c).lde.normal, e.req = .keys ∧
        ({ addr := w.word + 128, words := [packWord
          [(wi, 6), (0, 1), (bit c.overflow, 1), (c.source, 5), (0, 3), (count.toNat, 16)]] } : Run) ∈ e.runs := by
  intro wi count
  unfold State.deliverKeys
  rw [hw]
  dsimp only
  rw [if_neg (by omega), if_neg (by simp [hf])]
  refine ⟨?_, ?_⟩
  · rw [State.requestNormal_room hf]
    rfl
  · obtain ⟨e, hmem, hreq, hruns⟩ := State.requestNormal_mem hf .keys _
    exact ⟨e, hmem, hreq, by rw [hruns]; simp [wi, count]⟩

/-! ### A cell passes on (R134) -/

theorem State.onStream_streams (i : Fin 4) (f : Stream → Stream) :
    (s.onStream i f).igu.streams = setAt s.igu.streams i (f s.igu.streams[i]) := rfl

theorem State.retCell_arrived {b : Block} (hs : s.flu.ret.stage = .cells) :
    s.retCell (.arrived b) = s.passCell false b := if_pos hs

/-- The FLU behind a cell of an arriving return frame: the passage moves on, and the cell leaves upstream, but at the master
or in a frame the node disregards (R3, R13, R134). -/
theorem State.passCell_arrived (b : Block) : (s.passCell false b).flu = { s.flu with
    ret := if s.flu.ret.next < 95 then { s.flu.ret with next := s.flu.ret.next + 1 } else Passage.idle,
    txUp := if s.flu.ret.used = true ∧ s.isMaster = false then { s.flu.txUp with cells := s.flu.txUp.cells ++ [b] }
      else s.flu.txUp } := by
  have h := State.cellArrives_flu s (s.flu.returnPassage false) b
  have hm : (s.cellArrives (s.flu.returnPassage false) b).isMaster = s.isMaster :=
    (State.cellArrives_fr _ _ _).keeps_isMaster
  unfold State.passCell State.sendCell State.goesUp
  generalize s.cellArrives (s.flu.returnPassage false) b = x at h hm ⊢
  rw [← Passage.cellPassed_eq, ← h, ← hm]
  by_cases k : x.flu.ret.used = true ∧ x.isMaster = false
  · rw [if_pos (by simp [k.1, k.2]), if_pos k]
    rfl
  · rw [if_neg (by simpa [Bool.and_eq_true] using k), if_neg k]
    rfl

/-- A cell that is not this node's to deliver reaches no owner (R134, R135). -/
theorem State.cellArrives_stays {p : Passage} {b : Block} (h : (s.isJoined && p.good && p.used) = false ∨
    goodBytes 274 b = none ∨ ∃ bs, goodBytes 274 b = some bs ∧ ((parseCell bs).len = 0 ∨ 256 < (parseCell bs).len ∨
      s.flu.position ≠ some (parseCell bs).dest ∨ (parseCell bs).kind = 0 ∨ 5 < (parseCell bs).kind)) :
    s.cellArrives p b = s := by
  unfold State.cellArrives
  rcases h with h | h | ⟨bs, hb, h⟩
  · rw [if_neg (by simp [h])]
  · split
    · unfold State.deliverCell
      rw [h]
    · rfl
  · split
    · unfold State.deliverCell
      rw [hb]
      dsimp only
      split
      · rename_i hok
        obtain ⟨h1, h256, hp⟩ := hok
        have hk : (parseCell bs).kind = 0 ∨ 5 < (parseCell bs).kind := by
          rcases h with h | h | h | h | h
          · omega
          · omega
          · exact absurd hp h
          · exact .inl h
          · exact .inr h
        unfold State.handCell
        rw [if_neg (by omega), if_neg (by omega), if_neg (by omega), if_neg (by omega), if_neg (by omega)]
      · rfl
    · rfl

/-- A good cell of this node in a delivery passage is handed to the owner of its kind (R134, R135). -/
theorem State.cellArrives_delivers {p : Passage} {b : Block} {bs : List Byte}
    (h : (s.isJoined && p.good && p.used) = true) (hb : goodBytes 274 b = some bs) (h1 : 1 ≤ (parseCell bs).len)
    (h2 : (parseCell bs).len ≤ 256) (hp : s.flu.position = some (parseCell bs).dest) :
    s.cellArrives p b = s.handCell (parseCell bs) := by
  unfold State.cellArrives
  rw [if_pos h]
  unfold State.deliverCell
  rw [hb]
  exact if_pos ⟨h1, h2, hp⟩

end

/-- Settles O42: `State.cellArrives`, kind by kind. -/
theorem deliveredCellsReachTheirOwners : Obligations.DeliveredCellsReachTheirOwners := by
  intro dt b s hl hst delivers passed stays
  have wf : (Instr.cellDelivery dt (.arrived b)).wf = true := decide_eq_true hl
  have he := State.retCell_arrived (s := s.elapse dt) (b := b) hst
  have hp := State.passCell_arrived (s := s.elapse dt) b
  refine ⟨⟨_, exec_checked (fun u => u.retCell (.arrived b)) wf he, ?_,
    State.settled_only _ (State.passCell_fr _ false b)⟩, fun hs hstay => ?_, ?_⟩
  · show State.flu _ = _
    rw [State.settle_flu]
    exact hp
  · have hc : (s.elapse dt).cellArrives s.flu.ret b = s.elapse dt := State.cellArrives_stays hstay
    have hf : Frame [.flu] (s.elapse dt) ((s.elapse dt).passCell false b) := by
      unfold State.passCell
      rw [show (s.elapse dt).flu.returnPassage false = s.flu.ret from rfl, hc]
      exact (State.sendCell_fr _ _ _).comp (State.onReturn_fr _ _ _)
    refine ⟨_, exec_checked (fun u => u.retCell (.arrived b)) wf he, ?_⟩
    rw [State.settle_flu_only hs hf.mono (by rw [hp]; rfl)]
    exact ⟨hp, State.effect_only _ hf⟩
  · intro bs hq hd hb c h1 h256 hpos
    have hx : (s.elapse dt).cellArrives s.flu.ret b = (s.elapse dt).handCell c :=
      State.cellArrives_delivers hd hb h1 h256 hpos
    have hfr := (s.elapse dt).passCell_fr false b
    have hxt : Frame [.flu] ((s.elapse dt).handCell c) ((s.elapse dt).passCell false b) := by
      unfold State.passCell
      rw [show (s.elapse dt).flu.returnPassage false = s.flu.ret from rfl, hx]
      exact (State.sendCell_fr _ _ _).comp (State.onReturn_fr _ _ _)
    obtain ⟨hfree, hurgent, hnormal, hcycle, -⟩ := hq
    have hroom : (s.elapse dt).normalFull = false := State.normalFull_of_empty (s := s.elapse dt) hnormal
    obtain ⟨hend, hn⟩ := State.settle_idle (s0 := s.elapse dt) (s := (s.elapse dt).passCell false b) hfr.keeps_tru
      (by rw [hp]) (by rw [hfr.keeps_ptu]; exact hcycle)
    have hall := hxt.mono (qs := [.flu, .lde]) |>.comp hend
    rw [hxt.keeps_lde] at hn
    refine ⟨_, exec_checked (fun u => u.retCell (.arrived b)) wf he, ?_⟩
    rw [hall.keeps_igu, hall.keeps_ksc, hn]
    refine ⟨?_, ?_, ?_, ?_, ?_, ?_, State.effect_only _ (hfr.comp hend)⟩
    · show State.flu _ = _
      rw [State.settle_flu]
      exact hp
    · intro i w p hk hstream hw x hasm hsize hbuffer
      rw [State.handCell_image (s := s.elapse dt) true hk, State.deliverImage_eq (s := s.elapse dt) true hstream hw,
        if_pos rfl, State.headArrives_free (s := s.elapse dt) c hw hasm hsize hbuffer]
      exact ⟨rfl, rfl⟩
    · intro i w p a hk hstream hw x hasm himg hlast hindex hlen hland
      rw [State.handCell_image (s := s.elapse dt) false hk, State.deliverImage_eq (s := s.elapse dt) false hstream hw,
        if_neg (by simp), State.dataArrives_lands (s := s.elapse dt) w hroom hasm himg hlast hindex hlen hland]
      refine ⟨?_, State.requestNormal_mem hroom _ _⟩
      rw [State.requestNormal_room hroom]
      exact State.onStream_streams i _
    · intro i w p hk hw hpos hnum hone hindex hlen
      rw [State.handCell_tile (s := s.elapse dt) hk,
        State.deliverTile_lands (s := s.elapse dt) hw hpos hnum hone hindex hlen]
      exact State.requestNormal_mem hroom _ _
    · intro w hk hw h8 h128 wi count
      rw [State.handCell_keys (s := s.elapse dt) hk]
      exact State.deliverKeys_lands (s := s.elapse dt) hroom hw h8 h128
    · intro i w p u hk hw hpos hnum hone hu hu2
      have hm : ((s.elapse dt).handCell c).TileMarked i u := by
        rw [State.handCell_refresh (s := s.elapse dt) hk,
          State.deliverScreenReq_refreshes (s := s.elapse dt) hw hpos hnum hone]
        exact State.tryFetch_marked (State.fullRefresh_marks hw hu hu2)
      unfold State.TileMarked at hm
      rwa [← hall.keeps_scu] at hm

end Sys2Proof.Machine

/-! Proofs, section 12. Cells of the out-run: the fill order and the claims (R129 to R132). -/

namespace Sys2Proof.Machine

set_option Elab.async false

section
variable {s : State}

/-! ### The fill order (R130, R131) -/

theorem State.takeMessage_keys {k : KeyCfg} (hm : s.cls.messageSent = false) (hq : s.ksc.queue ≠ [])
    (hk : s.cfg.keys = some k) : s.takeMessage = some ({ s with
      cls := { s.cls with messageSent := true }, ksc := { s.ksc with queue := [], overflow := false } },
      s.keysCell k) := by
  obtain ⟨x, l, hx⟩ := List.exists_cons_of_ne_nil hq
  unfold State.takeMessage
  rw [if_neg (by simp [hm]), hx, hk]
  rfl

theorem State.takeMessage_request {i : Fin 2} {rest : List (Fin 2)} {w : Window} {p : ScreenParams}
    (hm : s.cls.messageSent = false) (hq : s.ksc.queue = []) (hr : s.cls.requests = i :: rest)
    (hw : s.cfg.screenIn i = some (w, p)) : s.takeMessage =
      some ({ s with cls := { s.cls with messageSent := true, requests := rest } }, s.requestCell p) := by
  unfold State.takeMessage
  rw [if_neg (by simp [hm]), hq, hr]
  dsimp only
  rw [hw]
  rfl

/-- One message was sent in the passage, or none waits (R131). -/
theorem State.takeMessage_none (h : s.cls.messageSent = true ∨ s.ksc.queue = [] ∧ s.cls.requests = []) :
    s.takeMessage = none := by
  unfold State.takeMessage
  rcases h with h | ⟨hq, hr⟩
  · rw [if_pos h]
  · split
    · rfl
    · rw [hq, hr]

/-- The oldest tile leaves the send buffer, which lets a fetch be tried (R131, R172). -/
theorem State.takeTile_cons {x : TileItem} {rest : List TileItem} (h : s.scu.buffer = x :: rest) : s.takeTile =
    some ((s.onScu fun u => { u with buffer := rest }).tryFetch, s.tileCell x) := by
  unfold State.takeTile
  rw [h]

theorem State.takeTile_none (h : s.scu.buffer = []) : s.takeTile = none := by
  unfold State.takeTile
  rw [h]

theorem State.takeFragment_cons {f : Fragment} {rest : List Fragment} (h : s.igu.tx = f :: rest) : s.takeFragment =
    some ({ s with igu := { s.igu with tx := rest } }, s.fragmentCell f) := by
  unfold State.takeFragment
  rw [h]
  rfl

theorem State.takeFragment_none (h : s.igu.tx = []) : s.takeFragment = none := by
  unfold State.takeFragment
  rw [h]

theorem State.takeReserved_cons {x : TileItem} {rest : List TileItem} (h : s.scu.buffer = x :: rest)
    (hr : s.cls.reserveTiles < s.cfg.reserve) : s.takeReserved =
      some (((s.onCls fun c => { c with reserveTiles := c.reserveTiles + 1 }).onScu fun u =>
        { u with buffer := rest }).tryFetch, s.tileCell x) := by
  unfold State.takeReserved
  rw [if_pos hr, State.takeTile_cons (s := s.onCls _) h]
  rfl

theorem State.takeReserved_none (h : s.scu.buffer = [] ∨ s.cfg.reserve ≤ s.cls.reserveTiles) : s.takeReserved = none := by
  unfold State.takeReserved
  rcases h with h | h
  · split
    · exact State.takeTile_none (s := s.onCls _) h
    · rfl
  · rw [if_neg (by omega)]

theorem State.nextItem_message {r : State × CellFields} (h : s.takeMessage = some r) : s.nextItem = some r := by
  unfold State.nextItem
  rw [h]

theorem State.nextItem_reserved {r : State × CellFields} (hm : s.takeMessage = none) (h : s.takeReserved = some r) :
    s.nextItem = some r := by
  unfold State.nextItem
  rw [hm, h]

theorem State.nextItem_fragment {r : State × CellFields} (hm : s.takeMessage = none) (ht : s.takeReserved = none)
    (h : s.takeFragment = some r) : s.nextItem = some r := by
  unfold State.nextItem
  rw [hm, ht, h]

theorem State.nextItem_tile (hm : s.takeMessage = none) (ht : s.takeReserved = none) (hf : s.takeFragment = none) :
    s.nextItem = s.takeTile := by
  unfold State.nextItem
  rw [hm, ht, hf]

/-! ### One cell of the out-run (R129) -/

/-- The decision on a cell of the out-run: the state and the cell that leaves (R15, R129). -/
def State.cellDecided (s : State) (b : Block) : State × Block :=
  if s.sends then s.decideCell (s.cellBefore b) else (s, s.cellBefore b)

theorem State.outCell_eq {b : Block} (h : s.flu.out.stage = .cells ∧ s.flu.out.next < 96) : s.outCell b =
    (s.cellDecided b).1.onFlu fun u => { u with
      out := { u.out with next := u.out.next + 1 },
      txDown := { u.txDown with cells := u.txDown.cells ++ [(s.cellDecided b).2] } } := if_pos h

theorem State.cellDecided_flu (b : Block) : (s.cellDecided b).1.flu = s.flu := by
  unfold State.cellDecided
  split
  · exact State.decideCell_flu _ _
  · rfl

/-- An EMPTY cell of a claim passage takes the next item while the allowance lasts. -/
theorem State.cellDecided_claims {b : Block} {r : State × CellFields} (hs : s.sends = true)
    (he : readsEmpty (s.cellBefore b) = true) (ha : s.cls.claimed < s.cfg.allowance) (hr : s.nextItem = some r) :
    s.cellDecided b = (r.1.onCls fun x => { x with claimed := x.claimed + 1 },
      (buildCell r.2).take (s.cellBefore b).length) := by
  unfold State.cellDecided State.decideCell
  rw [if_pos hs, if_pos (by simp [he, ha]), hr]

/-- Every other cell passes as it arrived. -/
theorem State.cellDecided_passes {b : Block} (h : s.sends = false ∨ readsEmpty (s.cellBefore b) = false ∨
    s.cfg.allowance ≤ s.cls.claimed ∨ s.nextItem = none) : s.cellDecided b = (s, s.cellBefore b) := by
  unfold State.cellDecided State.decideCell
  split
  · rename_i hs
    rcases h with h | h | h | h
    · rw [h] at hs
      cases hs
    · rw [if_neg (by simp [h])]
    · rw [if_neg (by simp [h])]
    · split
      · rw [h]
      · rfl
  · rfl

end

/-- Settles O25: `State.cellDecided`, and `State.nextItem` rank by rank. -/
theorem emptyCellsAreClaimed : Obligations.EmptyCellsAreClaimed := by
  refine ⟨?_, fun s => ⟨fun k hm hq hk => State.nextItem_message (State.takeMessage_keys hm hq hk),
    fun i rest w p hm hq hr hw => State.nextItem_message (State.takeMessage_request hm hq hr hw), fun h => ?_⟩⟩
  · intro dt b s hl hst hn c
    have wf : (Instr.cellDecision dt b).wf = true := decide_eq_true hl
    have he := State.outCell_eq (s := s.elapse dt) (b := b) ⟨hst, hn⟩
    have hf := (s.elapse dt).outCell_fr b
    have hc : (s.elapse dt).cellBefore b = c := rfl
    have hflu := State.cellDecided_flu (s := s.elapse dt) b
    refine ⟨_, exec_checked (fun u => u.outCell b) wf rfl, ?_, ?_, ?_, State.settled_only _ hf⟩
    · rw [State.settle_flu, he, State.onFlu_flu, hflu]
      rfl
    · intro r hs hempty hclaimed hitem
      have hd := State.cellDecided_claims (s := s.elapse dt) (b := b) hs hempty hclaimed hitem
      rw [State.settle_flu, State.settle_cls, State.settle_ksc, State.settle_igu, State.settle_scu, he, State.onFlu_flu,
        hflu, hd]
      exact ⟨rfl, rfl, rfl, rfl, rfl⟩
    · intro hpass
      have hd := State.cellDecided_passes (s := s.elapse dt) (b := b) hpass
      rw [State.settle_flu, State.settle_cls, State.settle_ksc, State.settle_igu, State.settle_scu, he, State.onFlu_flu,
        hflu, hd]
      exact ⟨rfl, rfl, rfl, rfl, rfl⟩
  · have hm := State.takeMessage_none h
    refine ⟨fun x rest hb hr => ?_, fun f rest hb hf => State.nextItem_fragment hm (State.takeReserved_none hb)
      (State.takeFragment_cons hf), fun x rest hb hr hf => ?_, fun hb hf => ?_⟩
    · refine ⟨_, State.nextItem_reserved hm (State.takeReserved_cons hb hr), State.tryFetch_buffer _,
        (State.tryFetch_fr _).keeps_cls, ?_⟩
      exact (((s.onCls_fr _).mono (qs := [.cls, .scu, .flags, .lde])).comp (State.onScu_fr _ _) |>.comp
        (State.tryFetch_fr _)).only
    · refine ⟨_, (State.nextItem_tile hm (State.takeReserved_none (.inr hr)) (State.takeFragment_none hf)).trans
        (State.takeTile_cons hb), State.tryFetch_buffer _, ?_⟩
      exact ((s.onScu_fr _).mono (qs := [.scu, .flags, .lde]) |>.comp (State.tryFetch_fr _)).only
    · rw [State.nextItem_tile hm (State.takeReserved_none (.inl hb)) (State.takeFragment_none hf)]
      exact State.takeTile_none hb

end Sys2Proof.Machine

/-! Proofs, section 13. The start of a frame (R1, R3, R13). -/

namespace Sys2Proof.Machine

set_option Elab.async false

section
variable {s : State}

/-! ### What is left of the copy (log 14) -/

/-- The FLU without the copy and the frame that leaves upstream. -/
def Flu.besideCopy (u : Flu) : Flu := { u with copy := Passage.idle, txUp := TxFrame.idle }

theorem Flu.besideCopy_with (u : Flu) (p : Passage) (x : TxFrame) :
    Flu.besideCopy { u with copy := p, txUp := x } = u.besideCopy := rfl

theorem State.onCopy_besideCopy (s : State) (f : Passage → Passage) :
    (s.onReturn true f).flu.besideCopy = s.flu.besideCopy := Flu.besideCopy_with s.flu (f s.flu.copy) s.flu.txUp

theorem State.retHeader_besideCopy (s : State) : (s.retHeader .copy).flu.besideCopy = s.flu.besideCopy := by
  by_cases h : s.flu.copy.stage = .header ∧ s.flu.txDown.header ≠ []
  · rw [State.retHeader_copy h.1 h.2, State.onFlu_flu]
    exact Flu.besideCopy_with ..
  · rw [show s.retHeader .copy = s from if_neg h]

theorem State.memberRetTrip_flu (b : Block) : ∃ b1, (s.memberRetTrip b).flu =
    { s.flu with txUp := { s.flu.txUp with trip := b1 } } := by
  cases hb : goodBytes 32 b with
  | none =>
    refine ⟨b, ?_⟩
    unfold State.memberRetTrip
    rw [hb]
    rfl
  | some bs => exact ⟨_, by rw [State.memberRetTrip_good hb, State.onFlu_flu, State.onTru_flu]⟩

theorem State.retTrip_besideCopy (s : State) : (s.retTrip .copy).flu.besideCopy = s.flu.besideCopy := by
  by_cases h : s.flu.copy.stage = .trip ∧ s.flu.txDown.trip ≠ []
  · obtain ⟨b1, hb⟩ := State.memberRetTrip_flu (s := s) s.flu.txDown.trip
    rw [State.retTrip_copy h.1 h.2, State.onCopy_besideCopy, hb]
    exact Flu.besideCopy_with ..
  · rw [show s.retTrip .copy = s from if_neg h]

theorem State.retSlot_besideCopy (s : State) (n : Fin 128) : (s.retSlot n .copy).flu.besideCopy = s.flu.besideCopy := by
  unfold State.retSlot
  dsimp only
  split
  · split
    · rw [State.onCopy_besideCopy, State.slotArrives_flu]
    · rfl
  · rfl

theorem State.retSlotsEnd_besideCopy (s : State) : (s.retSlotsEnd .copy).flu.besideCopy = s.flu.besideCopy := by
  by_cases h : s.flu.copy.stage = .slots
  · have hx : (if s.flu.copy.used then s.endSlotArea else s).flu = s.flu := by
      split
      · exact State.endSlotArea_flu _
      · rfl
    have hu : ∀ x : State, (x.sendArea .copy).flu.besideCopy = x.flu.besideCopy := fun x =>
      Flu.besideCopy_with x.flu x.flu.copy { x.flu.txUp with tags := x.flu.txDown.tags, slots := x.flu.txDown.slots }
    rw [State.retSlotsEnd_area (src := .copy) h]
    exact (State.onCopy_besideCopy _ _).trans ((hu _).trans (congrArg Flu.besideCopy hx))
  · rw [show s.retSlotsEnd .copy = s from if_neg h]

theorem State.retCell_besideCopy (s : State) : (s.retCell .copy).flu.besideCopy = s.flu.besideCopy := by
  unfold State.retCell
  dsimp only
  split
  · split
    · rw [State.passCell_copy]
      exact Flu.besideCopy_with ..
    · rfl
  · rfl

/-- What is left of the copy concerns the copy and the frame that leaves upstream only. -/
theorem State.drainCopy_besideCopy (s : State) : s.drainCopy.flu.besideCopy = s.flu.besideCopy := by
  have he : ∀ x : State, x.endCopy.flu.besideCopy = x.flu.besideCopy := fun x => by
    rw [State.endCopy_flu]
    exact Flu.besideCopy_with ..
  unfold State.drainCopy
  dsimp only
  rw [he, foldl_keeps _ (fun u : State => u.flu.besideCopy) _ fun u _ _ => u.retCell_besideCopy, State.retSlotsEnd_besideCopy,
    foldl_keeps _ (fun u : State => u.flu.besideCopy) _ fun u n _ => u.retSlot_besideCopy n, State.retTrip_besideCopy,
    State.retHeader_besideCopy]

/-- With no copy in passage nothing is left of one. -/
theorem State.drainCopy_idle (h : s.flu.copy.stage = .idle) : s.drainCopy.flu.txUp = s.flu.txUp := by
  have fixed : ∀ {α : Type} (f : State → α → State) (l : List α), (∀ x, f s x = s) → l.foldl f s = s := by
    intro α f l hf
    induction l with
    | nil => rfl
    | cons x l ih => rw [List.foldl_cons, hf, ih]
  have h1 : s.retHeader .copy = s := if_neg (by rw [h]; exact fun k => Stage.noConfusion k.1)
  have h2 : s.retTrip .copy = s := if_neg (by rw [h]; exact fun k => Stage.noConfusion k.1)
  have h3 : ∀ n, s.retSlot n .copy = s := fun n => if_neg (by rw [h]; exact fun k => Stage.noConfusion k.1)
  have h4 : s.retSlotsEnd .copy = s := if_neg (by
    rw [show s.flu.returnPassage (fromCopy .copy) = s.flu.copy from rfl, h]; exact fun k => Stage.noConfusion k)
  have h5 : s.retCell .copy = s := if_neg (by rw [h]; exact fun k => Stage.noConfusion k)
  unfold State.drainCopy
  dsimp only
  rw [h1, h2, fixed _ _ h3, h4, fixed _ _ fun _ => h5, State.endCopy_flu]

/-! ### A frame starts -/

theorem State.startFrame_upstream (hl : s.flu.up.state = .locked) (hm : s.isMaster = false) :
    s.startFrame .upstream = (if s.isEndNode then s.endOut.drainCopy.disregardRet else s.endOut.drainCopy).onFlu fun u =>
      { u with out := Passage.started (s.now + 1) true, turning := s.isEndNode,
               txDown := TxFrame.started (s.now + 1 + Config.residence),
               copy := if s.isEndNode then Passage.started (s.now + 1) true else Passage.idle,
               txUp := if s.isEndNode then TxFrame.started (s.now + 1 + Config.residence) else u.txUp } := by
  have h1 : s.startFrame .upstream = s.startOut := if_pos hl
  have h2 : s.startOut = _ := if_neg (by simp [hm])
  rw [h1, h2]

theorem State.startFrame_downstream (hl : s.flu.down.state = .locked) (he : s.isEndNode = false)
    (ht : s.flu.turning = false) (hm : s.isMaster = false) :
    s.startFrame .downstream = s.endRet.onFlu fun u =>
      { u with ret := Passage.started (s.now + 1) true, txUp := TxFrame.started (s.now + 1 + Config.residence) } := by
  have h1 : s.startFrame .downstream = s.startRet := if_pos hl
  rw [h1]
  unfold State.startRet
  simp [he, ht, hm]

theorem State.disregardRet_flu : s.disregardRet.flu = { s.flu with ret := { s.flu.ret with used := false } } := by
  unfold State.disregardRet
  rw [State.onFlu_flu, State.endReturnStage_flu]

end

/-- Settles O21: `State.startOut` and `State.startRet`. -/
theorem startSymbolBeginsAFrame : Obligations.StartSymbolBeginsAFrame := by
  intro dt s hs
  refine ⟨fun hl hm => ?_, fun hl hm he ht => ?_⟩
  · have hst := State.startFrame_upstream (s := s.elapse dt) hl hm
    have hf := (s.elapse dt).startFrame_fr .upstream
    have hd : (s.elapse dt).endOut.drainCopy.flu.besideCopy = { s.flu with out := Passage.idle }.besideCopy := by
      rw [State.drainCopy_besideCopy, State.endOut_flu]
      rfl
    have hidle : s.flu.copy.stage = .idle → (s.elapse dt).endOut.drainCopy.flu.txUp = s.flu.txUp := fun h => by
      rw [State.drainCopy_idle (by rw [State.endOut_flu]; exact h), State.endOut_flu]
      rfl
    refine ⟨_, exec_event (fun u => u.startFrame .upstream) rfl, ?_⟩
    have only := State.settled_only (dt := dt) (s := s)
      [.now, .flu, .axu, .tru, .slu, .cmu, .igu, .scu, .ksc, .flags, .ptu, .lde] hf
    rw [hst] at only ⊢
    generalize (s.elapse dt).endOut.drainCopy = x at hd hidle only ⊢
    have hret : x.flu.ret = s.flu.ret := (congrArg Flu.ret hd :)
    have hring : x.flu.ring = s.flu.ring := (congrArg Flu.ring hd :)
    have hposition : x.flu.position = s.flu.position := (congrArg Flu.position hd :)
    have hmeas : x.flu.meas = s.flu.meas := (congrArg Flu.meas hd :)
    rw [State.settle_flu, State.onFlu_flu]
    rw [State.elapse_isEndNode] at only ⊢
    cases he : s.isEndNode with
    | true =>
      rw [he] at only
      rw [if_pos rfl, State.disregardRet_flu]
      exact ⟨rfl, rfl, rfl, fun _ => ⟨rfl, rfl, congrArg (fun p : Passage => { p with used := false }) hret⟩,
        fun k => Bool.noConfusion k, hring, hposition, hmeas, only⟩
    | false =>
      rw [he] at only
      rw [if_neg (by simp)]
      exact ⟨rfl, rfl, rfl, fun k => Bool.noConfusion k, fun _ => ⟨rfl, hret, hidle⟩, hring, hposition, hmeas, only⟩
  · have hst := State.startFrame_downstream (s := s.elapse dt) hl he ht (State.isMaster_of_isMember hm)
    obtain ⟨n, -, -, hr⟩ := (s.elapse dt).endRet_flu
    refine ⟨_, exec_event (fun u => u.startFrame .downstream) hst, ?_⟩
    rw [State.settle_flu, State.onFlu_flu, hr]
    exact ⟨rfl, rfl, rfl, rfl, rfl, State.settled_only _ ((State.endRet_fr _).mono (qs := [.flu, .slu, .flags, .lde])
      |>.comp (State.onFlu_fr _ _))⟩

end Sys2Proof.Machine

/-! Proofs, section 14. The out-run header (R6, R8, R9, R11, R19, R20). -/

namespace Sys2Proof.Machine

set_option Elab.async false

section
variable {s : State}

/-! ### Ring state, measurement and joining at a good header -/

/-- The FLU of a FOLLOWING node that takes a counted position (R8, R9). -/
def Flu.follow (u : Flu) (fits : Bool) (p : Nat) : Flu :=
  { u with position := some p, mismatch := !fits, meas := if u.position = some p then u.meas else [] }

/-- A JOINED node's position has changed (R11). -/
def Flu.moved (u : Flu) : Flu := { u with changed := true }

/-- The FLU behind the ring work of a good header with counted position `p`, `fits` saying whether the node may take it
(R8, R9, R11). -/
def Flu.ringHeader (u : Flu) (fits : Bool) (p : Nat) : Flu :=
  match u.ring with
  | .seeking => Flu.follow { u with ring := .following } fits p
  | .following => u.follow fits p
  | .joined => if u.position = some p then u else u.moved.left

theorem State.ringHeader_flu (s : State) (p : Nat) : (s.ringHeader p).flu = s.flu.ringHeader (s.positionFits p) p := by
  unfold State.ringHeader Flu.ringHeader
  cases s.flu.ring with
  | seeking => rfl
  | following => rfl
  | joined =>
    dsimp only
    split
    · rfl
    · rw [State.leaveRing_flu]
      rfl

/-- The FLU behind the start of a measurement (R19). -/
def Flu.beginMeasure (u : Flu) (c : Word) : Flu :=
  if u.turning then { u with meas := addMeas u.meas Config.residence } else { u with tf := recordTf u.tf c u.out.start }

theorem State.beginMeasure_flu (s : State) (c : Word) : (s.beginMeasure c).flu = s.flu.beginMeasure c := by
  unfold State.beginMeasure Flu.beginMeasure
  split <;> rfl

/-- A member that was FOLLOWING joins (R9). -/
def Flu.joinsAt (u : Flu) (was : RingState) (fits : Bool) : Prop :=
  was = .following ∧ u.ring = .following ∧ u.meas.length = 16 ∧ fits = true

theorem State.tryJoin_joins {was : RingState} {p : Nat} (h : s.flu.joinsAt was (s.positionFits p)) :
    s.tryJoin was p = s.enterJoined := if_pos h

theorem State.tryJoin_stays {was : RingState} {p : Nat} (h : ¬ s.flu.joinsAt was (s.positionFits p)) :
    s.tryJoin was p = s := if_neg h

/-- The passage counts of a claim passage (R128). -/
def Cls.SameCounts (c d : Cls) : Prop :=
  d.claimed = c.claimed ∧ d.messageSent = c.messageSent ∧ d.reserveTiles = c.reserveTiles

theorem State.requestRefresh_counts (s : State) (i : Fin 2) : s.cls.SameCounts (s.requestRefresh i).cls := by
  unfold State.requestRefresh
  split
  · unfold Cls.SameCounts
    rw [State.onCls_cls]
    split <;> exact ⟨rfl, rfl, rfl⟩
  · exact ⟨rfl, rfl, rfl⟩

theorem Cls.SameCounts.trans {a b c : Cls} (h : a.SameCounts b) (k : b.SameCounts c) : a.SameCounts c :=
  ⟨k.1.trans h.1, k.2.1.trans h.2.1, k.2.2.trans h.2.2⟩

theorem State.enterJoined_counts (s : State) : s.cls.SameCounts s.enterJoined.cls := by
  have hf : ∀ {x : State}, s.cls = x.cls → s.cls.SameCounts ((x.requestRefresh 0).requestRefresh 1).tryFetch.cls := by
    intro x hx
    rw [(State.tryFetch_fr _).keeps_cls, hx]
    exact (x.requestRefresh_counts 0).trans (State.requestRefresh_counts _ 1)
  unfold State.enterJoined State.screensJoin
  refine hf ?_
  rw [(State.fullRefresh_fr _ 1).keeps_cls, (State.fullRefresh_fr _ 0).keeps_cls, (State.handCondition_fr _ _ _).keeps_cls]
  rfl

/-! ### The state in which the entry is placed -/

/-- A good header up to its ring state (R8, R9, R11, R19). -/
def State.ringed (s : State) (h : HeaderFields) : State :=
  ((s.ringHeader (h.hop + 1)).beginMeasure h.cycle).tryJoin s.flu.ring (h.hop + 1)

/-- The FLU behind a good header, its entry not yet placed (R6, R8, R20). -/
def Flu.headed (u : Flu) (h : HeaderFields) : Flu :=
  { u with dk := u.delay h.l, lastL := BitVec.ofNat 32 h.l, out := { u.out.headed h with stage := .trip },
           copy := if u.turning then u.copy.headed h else u.copy }

/-- A good header up to its entry: a claim passage begins (R128). -/
def State.headed (s : State) (h : HeaderFields) : State :=
  let s2 := (s.ringed h).onFlu fun u => u.headed h
  if s2.sends then s2.startClaims else s2

theorem State.goodHeader_eq (s : State) (h : HeaderFields) : s.goodHeader h =
    (s.headed h).placeEntry (entryOf h (s.ringed h).flu.out.start ((s.ringed h).flu.delay h.l)) := rfl

/-- The FLU of a good header up to its ring state. -/
def Flu.ringed (u : Flu) (fits : Bool) (h : HeaderFields) : Flu := (u.ringHeader fits (h.hop + 1)).beginMeasure h.cycle

theorem State.positionFits_congr {t : State} (h : t.cfg = s.cfg) (p : Nat) : t.positionFits p = s.positionFits p := by
  unfold State.positionFits
  rw [h]

/-- The state before the node may join. -/
theorem State.measured_flu (s : State) (h : HeaderFields) :
    ((s.ringHeader (h.hop + 1)).beginMeasure h.cycle).flu = s.flu.ringed (s.positionFits (h.hop + 1)) h ∧
    ((s.ringHeader (h.hop + 1)).beginMeasure h.cycle).positionFits (h.hop + 1) = s.positionFits (h.hop + 1) :=
  ⟨by rw [State.beginMeasure_flu, State.ringHeader_flu]; rfl,
    State.positionFits_congr (by rw [(State.beginMeasure_fr _ _).keeps_cfg, (State.ringHeader_fr _ _).keeps_cfg]) _⟩

theorem State.ringed_joins {h : HeaderFields}
    (k : (s.flu.ringed (s.positionFits (h.hop + 1)) h).joinsAt s.flu.ring (s.positionFits (h.hop + 1))) :
    s.ringed h = ((s.ringHeader (h.hop + 1)).beginMeasure h.cycle).enterJoined := by
  obtain ⟨hu, hp⟩ := s.measured_flu h
  exact State.tryJoin_joins (by rw [hu, hp]; exact k)

theorem State.ringed_stays {h : HeaderFields}
    (k : ¬ (s.flu.ringed (s.positionFits (h.hop + 1)) h).joinsAt s.flu.ring (s.positionFits (h.hop + 1))) :
    s.ringed h = (s.ringHeader (h.hop + 1)).beginMeasure h.cycle := by
  obtain ⟨hu, hp⟩ := s.measured_flu h
  exact State.tryJoin_stays (by rw [hu, hp]; exact k)

/-- What a good header leaves alone up to its ring state, and the t_f it keeps (R19). -/
theorem Flu.ringed_keeps (u : Flu) (fits : Bool) (h : HeaderFields) : (u.ringed fits h).out = u.out ∧
    (u.ringed fits h).turning = u.turning ∧ (u.ringed fits h).copy = u.copy ∧ (u.ringed fits h).txDown = u.txDown ∧
    (u.ringed fits h).entries = u.entries ∧ (u.ringed fits h).cycle = u.cycle ∧
    (u.ringed fits h).tf = (if u.turning then u.tf else recordTf u.tf h.cycle u.out.start) := by
  have k : ∀ v : Flu, v.out = u.out → v.turning = u.turning → v.copy = u.copy → v.txDown = u.txDown →
      v.entries = u.entries → v.cycle = u.cycle → v.tf = u.tf →
      (v.beginMeasure h.cycle).out = u.out ∧ (v.beginMeasure h.cycle).turning = u.turning ∧
      (v.beginMeasure h.cycle).copy = u.copy ∧ (v.beginMeasure h.cycle).txDown = u.txDown ∧
      (v.beginMeasure h.cycle).entries = u.entries ∧ (v.beginMeasure h.cycle).cycle = u.cycle ∧
      (v.beginMeasure h.cycle).tf = (if u.turning then u.tf else recordTf u.tf h.cycle u.out.start) := by
    intro v ho ht hc hx he hy hf
    unfold Flu.beginMeasure
    rw [← ht]
    cases v.turning with
    | true => exact ⟨ho, rfl, hc, hx, he, hy, hf⟩
    | false => exact ⟨ho, rfl, hc, hx, he, hy, by rw [← ho, ← hf]; rfl⟩
  unfold Flu.ringed Flu.ringHeader
  split
  · exact k _ rfl rfl rfl rfl rfl rfl rfl
  · exact k _ rfl rfl rfl rfl rfl rfl rfl
  · split
    · exact k _ rfl rfl rfl rfl rfl rfl rfl
    · exact k _ rfl rfl rfl rfl rfl rfl rfl

/-- The measurements behind the start of a measurement (R19). -/
theorem Flu.beginMeasure_meas (u : Flu) (c : Word) :
    (u.beginMeasure c).meas = (if u.turning then addMeas u.meas 96 else u.meas) ∧
    (u.beginMeasure c).ring = u.ring ∧ (u.beginMeasure c).position = u.position ∧
    (u.beginMeasure c).mismatch = u.mismatch ∧ (u.beginMeasure c).changed = u.changed ∧
    (u.beginMeasure c).resyncArmed = u.resyncArmed := by
  unfold Flu.beginMeasure
  cases u.turning <;> exact ⟨rfl, rfl, rfl, rfl, rfl, rfl⟩

/-- A node that was not JOINED takes the counted position; a change of it empties the measurements (R8, R9). -/
theorem Flu.ringed_follows (u : Flu) (fits : Bool) (h : HeaderFields) (hr : u.ring ≠ .joined) :
    (u.ringed fits h).ring = .following ∧ (u.ringed fits h).position = some (h.hop + 1) ∧
    (u.ringed fits h).mismatch = !fits ∧ (u.ringed fits h).resyncArmed = u.resyncArmed ∧
    (u.ringed fits h).meas = (if u.turning then addMeas (if u.position = some (h.hop + 1) then u.meas else []) 96
      else if u.position = some (h.hop + 1) then u.meas else []) := by
  unfold Flu.ringed
  obtain ⟨km, kr, kp, kx, -, ka⟩ := Flu.beginMeasure_meas (u.ringHeader fits (h.hop + 1)) h.cycle
  rw [km, kr, kp, kx, ka]
  unfold Flu.ringHeader
  cases hc : u.ring with
  | seeking => exact ⟨rfl, rfl, rfl, rfl, rfl⟩
  | following => exact ⟨hc, rfl, rfl, rfl, rfl⟩
  | joined => exact absurd hc hr

/-- A JOINED node whose position is the counted one stays as it is (R11). -/
theorem Flu.ringed_same (u : Flu) (fits : Bool) (h : HeaderFields) (hr : u.ring = .joined)
    (hp : u.position = some (h.hop + 1)) : (u.ringed fits h).ring = .joined ∧
    (u.ringed fits h).position = u.position ∧ (u.ringed fits h).resyncArmed = u.resyncArmed ∧
    (u.ringed fits h).meas = (if u.turning then addMeas u.meas 96 else u.meas) := by
  unfold Flu.ringed
  obtain ⟨km, kr, kp, -, -, ka⟩ := Flu.beginMeasure_meas (u.ringHeader fits (h.hop + 1)) h.cycle
  have e : u.ringHeader fits (h.hop + 1) = u := by
    unfold Flu.ringHeader
    rw [hr]
    exact if_pos hp
  rw [km, kr, kp, ka, e]
  exact ⟨hr, rfl, rfl, rfl⟩

/-- A JOINED node whose fixed position differs leaves for SEEKING, its resync mark armed (R10, R11). -/
theorem Flu.ringed_moved (u : Flu) (fits : Bool) (h : HeaderFields) (hr : u.ring = .joined)
    (hp : u.position ≠ some (h.hop + 1)) : (u.ringed fits h).ring = .seeking ∧ (u.ringed fits h).position = none ∧
    (u.ringed fits h).changed = true ∧ (u.ringed fits h).resyncArmed = true ∧
    (u.ringed fits h).meas = (if u.turning then [96] else []) := by
  unfold Flu.ringed
  obtain ⟨km, kr, kp, -, kc, ka⟩ := Flu.beginMeasure_meas (u.ringHeader fits (h.hop + 1)) h.cycle
  have e : u.ringHeader fits (h.hop + 1) = u.moved.left := by
    unfold Flu.ringHeader
    rw [hr]
    exact if_neg hp
  rw [km, kr, kp, kc, ka, e]
  exact ⟨rfl, rfl, rfl, by simp [Flu.left, Flu.moved, hr], rfl⟩

/-- Joining changes the ring state and the mismatch flag only (R9). -/
theorem State.ringed_flu (s : State) (h : HeaderFields) :
    let fits := s.positionFits (h.hop + 1)
    let u := s.flu.ringed fits h
    (u.joinsAt s.flu.ring fits ∧ (s.ringed h).flu = { u with ring := .joined, mismatch := false }) ∨
      (¬ u.joinsAt s.flu.ring fits ∧ (s.ringed h).flu = u) := by
  intro fits u
  by_cases k : u.joinsAt s.flu.ring fits
  · refine .inl ⟨k, ?_⟩
    rw [State.ringed_joins k, State.enterJoined_flu, s.measured_flu h |>.1]
  · refine .inr ⟨k, ?_⟩
    rw [State.ringed_stays k, s.measured_flu h |>.1]

/-- What joining leaves of the FLU. -/
theorem State.ringed_keeps (s : State) (h : HeaderFields) :
    let u := s.flu.ringed (s.positionFits (h.hop + 1)) h
    let v := (s.ringed h).flu
    v.out = u.out ∧ v.turning = u.turning ∧ v.copy = u.copy ∧ v.txDown = u.txDown ∧ v.entries = u.entries ∧
      v.cycle = u.cycle ∧ v.tf = u.tf ∧ v.meas = u.meas ∧ v.position = u.position ∧ v.changed = u.changed ∧
      v.resyncArmed = u.resyncArmed := by
  intro u v
  rcases s.ringed_flu h with ⟨-, e⟩ | ⟨-, e⟩
  · have e1 : v = { u with ring := .joined, mismatch := false } := e
    rw [e1]
    exact ⟨rfl, rfl, rfl, rfl, rfl, rfl, rfl, rfl, rfl, rfl, rfl⟩
  · have e1 : v = u := e
    rw [e1]
    exact ⟨rfl, rfl, rfl, rfl, rfl, rfl, rfl, rfl, rfl, rfl, rfl⟩

/-- The ring state behind a good header: a FOLLOWING node joins with 16 measurements and its position conditions (R9). -/
theorem State.ringed_ring (s : State) (h : HeaderFields) :
    (s.flu.ring ≠ .following → (s.ringed h).flu.ring = (s.flu.ringed (s.positionFits (h.hop + 1)) h).ring ∧
      (s.ringed h).flu.mismatch = (s.flu.ringed (s.positionFits (h.hop + 1)) h).mismatch) ∧
    (s.flu.ring = .following → (s.ringed h).flu.mismatch = !s.positionFits (h.hop + 1) ∧
      (s.ringed h).flu.ring = if (s.ringed h).flu.meas.length = 16 ∧ s.positionFits (h.hop + 1) = true then .joined
        else .following) := by
  rcases s.ringed_flu h with ⟨k, e⟩ | ⟨k, e⟩
  · refine ⟨fun hr => absurd k.1 hr, fun hr => ?_⟩
    rw [e]
    exact ⟨by rw [k.2.2.2]; rfl, (if_pos ⟨k.2.2.1, k.2.2.2⟩).symm⟩
  · refine ⟨fun _ => by rw [e]; exact ⟨rfl, rfl⟩, fun hr => ?_⟩
    obtain ⟨hfollowing, -, hmismatch, -, -⟩ := Flu.ringed_follows s.flu (s.positionFits (h.hop + 1)) h (by rw [hr]; simp)
    rw [e]
    refine ⟨hmismatch, ?_⟩
    rw [if_neg fun x => k ⟨hr, hfollowing, x.1, x.2⟩]
    exact hfollowing

/-! ### The passage counts and the entry -/

theorem State.headed_flu (s : State) (h : HeaderFields) : (s.headed h).flu = (s.ringed h).flu.headed h := by
  unfold State.headed
  dsimp only
  split <;> rfl

/-- A claim passage begins where the header is RUN and the node ends JOINED (R128). -/
theorem State.headed_cls (s : State) (h : HeaderFields) (hc : s.configured = true) :
    ((s.ringed h).flu.ring = .joined → h.run = true → (s.headed h).cls.claimed = 0 ∧
      (s.headed h).cls.messageSent = false ∧ (s.headed h).cls.reserveTiles = 0) ∧
    ((s.ringed h).flu.ring ≠ .joined ∨ h.run = false → s.cls.SameCounts (s.headed h).cls) := by
  have hconf : (s.ringed h).configured = true := by
    have hf : Frame [.flu, .tru, .cls, .cmu, .igu, .scu, .flags, .lde] s (s.ringed h) :=
      ((s.ringHeader_fr _).mono (qs := [.flu, .tru, .cls, .cmu, .igu, .scu, .flags, .lde])).comp
        (State.beginMeasure_fr _ _) |>.comp (State.tryJoin_fr _ _ _)
    rw [hf.keeps_configured]
    exact hc
  have hsends : ((s.ringed h).onFlu fun u => u.headed h).sends = (decide ((s.ringed h).flu.ring = .joined) && h.run) := by
    show (((s.ringed h).configured && decide ((s.ringed h).flu.ring = .joined)) && true && h.run) = _
    rw [hconf]
    simp
  unfold State.headed
  dsimp only
  rw [hsends]
  refine ⟨fun hj hr => ?_, fun hn => ?_⟩
  · rw [hj, hr, if_pos (by simp)]
    exact ⟨rfl, rfl, rfl⟩
  · rw [if_neg (by rcases hn with hn | hn <;> simp [hn])]
    show s.cls.SameCounts (s.ringed h).cls
    have hb : s.cls = ((s.ringHeader (h.hop + 1)).beginMeasure h.cycle).cls := by
      rw [(State.beginMeasure_fr _ _).keeps_cls, (State.ringHeader_fr _ _).keeps_cls]
    by_cases k : (s.flu.ringed (s.positionFits (h.hop + 1)) h).joinsAt s.flu.ring (s.positionFits (h.hop + 1))
    · rw [State.ringed_joins k, hb]
      exact State.enterJoined_counts _
    · rw [State.ringed_stays k, ← hb]
      exact ⟨rfl, rfl, rfl⟩

/-- With fewer than three entries pending a header's entry joins the list (R20). -/
theorem State.placeEntry_room (e : Bool → PendingEntry) (h : s.flu.entries.length < 3) : s.placeEntry e =
    s.onFlu fun u => { u with entries := u.entries ++ [e u.resyncArmed] } := by
  unfold State.placeEntry
  rw [if_neg (by omega)]

end

end Sys2Proof.Machine

/-! Proofs, section 15. A good out-run header is taken (R6, R8 to R11, R19 to R21). -/

namespace Sys2Proof.Machine

set_option Elab.async false

section
variable {s : State}

/-! ### A JOINED node that leaves the ring (R10) -/

theorem State.imagesLeave_tx (s : State) : s.imagesLeave.igu.tx = [] := by
  unfold State.imagesLeave
  dsimp only
  rw [State.notifyIf_igu]
  rfl

/-- From JOINED the transmit queue is emptied and the condition of source 10 becomes present (R10). -/
theorem State.leaveRing_joined (h : s.flu.ring = .joined) :
    s.leaveRing.igu.tx = [] ∧ s.leaveRing.tru.cond[(10 : Fin 15)] = true := by
  rw [State.leaveRing_eq, if_pos h]
  refine ⟨?_, ?_⟩
  · unfold State.leaveJoined
    rw [(State.cancelFirings_fr _).keeps_igu, (State.screensLeave_fr _).keeps_igu]
    exact State.imagesLeave_tx _
  · rw [(State.leaveJoined_fr _).keeps_tru]
    unfold State.seeks
    rw [if_pos h, State.notify_tru, State.recompute_tru, Tru.act_cond]
    exact State.handStamped_cond_self s 10 true _

/-- A header that finds a JOINED node in another position (R11). -/
theorem State.ringed_leaves {h : HeaderFields} (hr : s.flu.ring = .joined) (hp : s.flu.position ≠ some (h.hop + 1)) :
    (s.ringed h).cnu.flags.getLsbD 1 = true ∧ (s.ringed h).igu.tx = [] ∧
      (s.ringed h).tru.cond[(10 : Fin 15)] = true := by
  have hm := (Flu.ringed_moved s.flu (s.positionFits (h.hop + 1)) h hr hp).1
  rw [State.ringed_stays fun k => by rw [k.2.1] at hm; cases hm]
  have e : s.ringHeader (h.hop + 1) = ((s.onFlu fun u => { u with changed := true }).notify 1).leaveRing := by
    unfold State.ringHeader
    rw [hr]
    exact if_neg hp
  have hb := State.beginMeasure_fr (s.ringHeader (h.hop + 1)) h.cycle
  obtain ⟨htx, hcond⟩ := State.leaveRing_joined (s := (s.onFlu fun u => { u with changed := true }).notify 1) hr
  rw [hb.keeps_flags, hb.keeps_igu, hb.keeps_tru, e]
  exact ⟨State.leaveRing_flag _, htx, hcond⟩

/-! ### Frames -/

theorem State.ringed_fr (s : State) (h : HeaderFields) :
    Frame [.flu, .tru, .cls, .cmu, .igu, .scu, .flags, .lde] s (s.ringed h) :=
  ((s.ringHeader_fr _).mono (qs := [.flu, .tru, .cls, .cmu, .igu, .scu, .flags, .lde])).comp
    (State.beginMeasure_fr _ _) |>.comp (State.tryJoin_fr _ _ _)

theorem State.headed_fr (s : State) (h : HeaderFields) :
    Frame [.flu, .tru, .cls, .cmu, .igu, .scu, .flags, .lde] s (s.headed h) :=
  Frame.ite (((s.ringed_fr h).comp (State.onFlu_fr _ _)).comp (State.startClaims_fr _))
    ((s.ringed_fr h).comp (State.onFlu_fr _ _))

/-- The work on the claims touches neither flags, images nor trip state. -/
theorem State.headed_rest (s : State) (h : HeaderFields) : (s.headed h).cnu = (s.ringed h).cnu ∧
    (s.headed h).igu = (s.ringed h).igu ∧ (s.headed h).tru = (s.ringed h).tru ∧ (s.headed h).scu = (s.ringed h).scu := by
  unfold State.headed
  dsimp only
  split <;> exact ⟨rfl, rfl, rfl, rfl⟩

/-! ### The row -/

theorem State.outHeader_good {b : Block} {bs : List Byte} (hs : s.flu.out.stage = .header) (hm : s.isMember = true)
    (hb : goodBytes 32 b = some bs) : s.outHeader b =
      (s.sendHeader (withHop bs (nextHop (parseHeader bs).hop))).goodHeader (parseHeader bs) := by
  unfold State.outHeader
  rw [if_neg (not_not.2 hs), hb]
  exact if_pos hm

/-- A bad header, and any at a node that is no member, is forwarded as it arrived (R4, R6). -/
theorem State.outHeader_passes {b : Block} (hs : s.flu.out.stage = .header)
    (h : goodBytes 32 b = none ∨ s.isMember = false) : s.outHeader b = s.onFlu fun u =>
      { u with out := { u.out with stage := .trip }, txDown := { u.txDown with header := b } } := by
  unfold State.outHeader
  rw [if_neg (not_not.2 hs)]
  cases hb : goodBytes 32 b with
  | none => rfl
  | some bs =>
    have hm : s.isMember = false := h.resolve_left (by simp [hb])
    dsimp only
    rw [if_neg (by simp [hm])]
    rfl

end

/-- A member with fewer than three entries pending takes a good header: every part of the first clause of O22, before the
end of the event. -/
theorem State.goodHeader_room {s : State} (h : HeaderFields) (hl : s.flu.entries.length < 3) :
    s.goodHeader h = (s.headed h).onFlu fun u => { u with entries := u.entries ++
      [entryOf h s.flu.out.start ((s.ringed h).flu.delay h.l) u.resyncArmed] } := by
  obtain ⟨ho, -, -, -, he, -⟩ := s.ringed_keeps h
  obtain ⟨ko, -, -, -, ke, -⟩ := Flu.ringed_keeps s.flu (s.positionFits (h.hop + 1)) h
  rw [State.goodHeader_eq, State.placeEntry_room _ (by
    rw [State.headed_flu]
    show (s.ringed h).flu.entries.length < 3
    rw [he, ke]
    exact hl), ho, ko]

end Sys2Proof.Machine

/-! Proofs, section 16. The order of the blocks' work at an epoch, and the shadow shaft (R58 to R61). -/

namespace Sys2Proof.Machine

set_option Elab.async false

section
variable {s : State}

/-! ### The order of an epoch's work -/

/-- An epoch up to the work of the line shaft. -/
def State.epochFront (s : State) (lossFirst sweepFirst ageFirst loss : Bool) : State :=
  let s1 := if loss && lossFirst then s.loseRing sweepFirst else s
  if ageFirst then s1.sluEpoch else s1

/-- An epoch from the work of the Camera Unit on. -/
def State.epochBack (s : State) (lossFirst sweepFirst ageFirst lostFirst mark loss : Bool) : State :=
  let s4 := if lostFirst then s.handSourceLost.cmuEpoch mark else (s.cmuEpoch mark).handSourceLost
  let s5 := if ageFirst then s4 else s4.sluEpoch
  let s6 := if loss && !lossFirst then s5.loseRing sweepFirst else s5
  if loss && sweepFirst then s6.iguEpoch else s6.iguEpoch.scuEpoch

theorem State.epochIn_eq (s : State) (l w a x : Bool) (hdr : Option HeaderShaft) (mark loss : Bool) :
    s.epochIn l w a x hdr mark loss =
      (((s.epochFront l w a loss).lsuEpoch hdr mark).truEpoch.axuEpoch hdr.isNone mark).epochBack l w a x mark loss := rfl

theorem State.epochFront_fr (s : State) (l w a loss : Bool) :
    Frame [.flu, .tru, .slu, .cmu, .igu, .scu, .flags, .lde] s (s.epochFront l w a loss) := by
  have h1 : Frame [.flu, .tru, .slu, .cmu, .igu, .scu, .flags, .lde] s (if (loss && l) = true then s.loseRing w else s) :=
    Frame.ite (s.loseRing_fr w).mono (Frame.refl _ _)
  exact Frame.ite (h1.comp (State.sluEpoch_fr _)) h1

theorem State.epochBack_fr (s : State) (l w a x mark loss : Bool) :
    Frame [.flu, .tru, .slu, .cmu, .igu, .scu, .flags, .lde] s (s.epochBack l w a x mark loss) := by
  have h4 : Frame [.flu, .tru, .slu, .cmu, .igu, .scu, .flags, .lde] s
      (if x = true then s.handSourceLost.cmuEpoch mark else (s.cmuEpoch mark).handSourceLost) :=
    Frame.ite ((s.handSourceLost_fr.mono).comp (State.cmuEpoch_fr _ _)) (((s.cmuEpoch_fr mark).mono).comp (State.handSourceLost_fr _))
  have h5 := Frame.ite (c := a = true) h4 (h4.comp (State.sluEpoch_fr _))
  have h6 := Frame.ite (c := (loss && !l) = true) (h5.comp (State.loseRing_fr _ w)) h5
  exact Frame.ite (h6.comp (State.iguEpoch_fr _)) ((h6.comp (State.iguEpoch_fr _)).comp (State.scuEpoch_fr _))

/-! ### The shadow shaft -/

/-- The shadow behind an epoch's work on it (R58 to R61). -/
def State.epochShadow (s : State) (hdr : Option HeaderShaft) (mark : Bool) : Shadow :=
  match hdr with
  | some h => Shadow.header s.cfg h mark
  | none => s.lsu.shadow.synthesize s.cfg s.tru.acting

/-- The generator and the records leave the shadow as the epoch makes it. -/
theorem State.lsuEpoch_shadow (s : State) (hdr : Option HeaderShaft) (mark : Bool) :
    (s.lsuEpoch hdr mark).lsu.shadow = s.epochShadow hdr mark := by
  have h1 : ∀ x : State, x.lsu.shadow = s.epochShadow hdr mark → ∀ r : Option (Window × Word),
      (match r with
        | some (w, word) => x.requestResult (w.word + 3) word
        | none => x).lsu.shadow = s.epochShadow hdr mark := by
    intro x hx r
    cases r with
    | none => exact hx
    | some r => rw [← hx]; exact congrArg Lsu.shadow (State.requestResult_fr x _ _).keeps_lsu
  unfold State.lsuEpoch
  refine h1 _ ?_ _
  cases s.cfg.only .shaft with
  | none => rfl
  | some w => rw [(State.requestUrgent_fr _ _ _).keeps_lsu]; rfl

theorem State.epochIn_shadow (s : State) (l w a x : Bool) (hdr : Option HeaderShaft) (mark loss : Bool) :
    (s.epochIn l w a x hdr mark loss).lsu.shadow = (s.epochFront l w a loss).epochShadow hdr mark := by
  rw [State.epochIn_eq, (State.epochBack_fr ..).keeps_lsu, (State.axuEpoch_fr ..).keeps_lsu, (State.truEpoch_fr ..).keeps_lsu,
    State.lsuEpoch_shadow]

/-- At a header epoch the shadow is the header's, whatever comes before it. -/
theorem State.epochWork_shadow_header (s : State) (h : HeaderShaft) (mark loss : Bool) :
    (s.epochWork (some h) mark loss).lsu.shadow = Shadow.header s.cfg h mark := by
  unfold State.epochWork
  rw [State.epochIn_shadow]
  show Shadow.header _ h mark = _
  rw [(State.epochFront_fr ..).keeps_cfg]

/-- A header epoch from an entry of another cycle (R21, R58, R63). -/
theorem State.takeEntry_shadow {e : PendingEntry} (h : e.cycle ≠ s.flu.cycle) :
    (s.takeEntry e).lsu.shadow = Shadow.header s.cfg e.shaft s.flu.resyncArmed := by
  unfold State.takeEntry
  rw [if_neg h, State.epochWork_shadow_header]
  congr 1
  exact ((State.onFlu_fr s _).mono (qs := [.flu, .flags]) |>.comp (State.notifyIf_fr _ _ _) |>.comp (State.watchEpoch_fr _)).keeps_cfg

/-! ### The entries that are taken -/

theorem State.takeDue_stops {n : Nat} (h : s.entryDue = false) : s.takeDue n = s := by
  cases n with
  | zero => rfl
  | succ n => exact if_neg (by simp [h])

theorem State.entryDue_later {e : PendingEntry} {rest : List PendingEntry} (h : s.flu.entries = e :: rest)
    (hi : s.now < e.instant) : s.entryDue = false := by
  unfold State.entryDue
  rw [h]
  simp only [decide_eq_false_iff_not]
  omega

theorem State.entryDue_nil (h : s.flu.entries = []) : s.entryDue = false := by
  unfold State.entryDue
  rw [h]

end

end Sys2Proof.Machine

/-! Proofs, section 17. The out-run header's obligations (R6, R8 to R11, R19 to R21). -/

namespace Sys2Proof.Machine

set_option Elab.async false

section
variable {s : State}

/-- The FLU of an epoch made from the oldest of three entries, the other two still pending (R20, R21). -/
def Flu.tookOldest (u : Flu) (e0 e1 e2 : PendingEntry) (now : Nat) : Flu :=
  (Flu.headerEpoch { u with entries := [e1, e2] } e0 now).watched

/-- With three entries pending and the second not yet due, the oldest makes an epoch before a header's entry is placed (R20,
R21). -/
theorem State.placeEntry_three {e0 e1 e2 : PendingEntry} (e : Bool → PendingEntry) (he : s.flu.entries = [e0, e1, e2])
    (hc : e0.cycle ≠ s.flu.cycle) (hi : s.now < e1.instant) :
    (s.placeEntry e).flu = { s.flu.tookOldest e0 e1 e2 s.now with entries := [e1, e2, e false] } ∧
    (s.placeEntry e).lsu.shadow = Shadow.header s.cfg e0.shaft s.flu.resyncArmed := by
  have hold : s.takeOldest.flu = s.flu.tookOldest e0 e1 e2 s.now := by
    rw [State.takeOldest_flu s he, if_neg hc]
    rfl
  have hshadow : s.takeOldest.lsu.shadow = Shadow.header s.cfg e0.shaft s.flu.resyncArmed := by
    unfold State.takeOldest
    rw [he]
    exact State.takeEntry_shadow (s := s.onFlu fun u => { u with entries := [e1, e2] }) hc
  have hdue : s.takeOldest.takeDue 2 = s.takeOldest :=
    State.takeDue_stops (State.entryDue_later (e := e1) (rest := [e2]) (by rw [hold]; rfl)
      (by rw [(State.takeOldest_fr s).keeps_now]; exact hi))
  unfold State.placeEntry
  dsimp only
  rw [if_pos (by rw [he]; exact Nat.le_refl 3), hdue, State.onFlu_flu, hold]
  exact ⟨rfl, hshadow⟩

/-- The resync mark behind the ring work: armed by a passage from JOINED (R10). -/
theorem Flu.ringed_armed (u : Flu) (fits : Bool) (h : HeaderFields) : (u.ringed fits h).resyncArmed =
    (u.resyncArmed || decide (u.ring = .joined ∧ u.position ≠ some (h.hop + 1))) := by
  by_cases hj : u.ring = .joined
  · by_cases hp : u.position = some (h.hop + 1)
    · simp [(Flu.ringed_same u fits h hj hp).2.2.1, hp]
    · simp [(Flu.ringed_moved u fits h hj hp).2.2.2.1, hp, hj]
  · simp [(Flu.ringed_follows u fits h hj).2.2.2.1, hj]

theorem State.headed_armed (s : State) (h : HeaderFields) : (s.headed h).flu.resyncArmed =
    (s.flu.resyncArmed || decide (s.flu.ring = .joined ∧ s.flu.position ≠ some (h.hop + 1))) := by
  obtain ⟨-, -, -, -, -, -, -, -, -, -, ha⟩ := s.ringed_keeps h
  rw [State.headed_flu]
  exact ha.trans (Flu.ringed_armed ..)

end

/-- Settles O22: `State.goodHeader_room`, `State.placeEntry_three` and `State.outHeader_passes`. -/
theorem goodOutRunHeaderIsTaken : Obligations.GoodOutRunHeaderIsTaken := by
  intro dt b s hl hst
  have wf : (Instr.outRunHeader dt b).wf = true := decide_eq_true hl
  refine ⟨fun bs hb hm he => ?_, fun bs e0 e1 e2 hb hm he hc hi => ?_, fun hn hs => ?_⟩
  · intro h
    have hg := State.outHeader_good (s := s.elapse dt) hst hm hb
    set s0 := (s.elapse dt).sendHeader (withHop bs (nextHop h.hop)) with hs0
    have hc0 : s0.configured = true := State.configured_of_isMember hm
    have e := s0.goodHeader_room h he
    refine ⟨_, exec_checked (fun u => u.outHeader b) wf (hg.trans e), ?_⟩
    obtain ⟨ho, ht, hcopy, hx, hent, -, htf, hmeas, hpos, hch, harm⟩ := s0.ringed_keeps h
    obtain ⟨ko, kt, kcopy, kx, kent, -, ktf⟩ := Flu.ringed_keeps s0.flu (s0.positionFits (h.hop + 1)) h
    obtain ⟨hring, hringf⟩ := s0.ringed_ring h
    obtain ⟨hcls, hclsk⟩ := s0.headed_cls h hc0
    have hflu := s0.headed_flu h
    have hfit : s0.positionFits (h.hop + 1) = s.positionFits (h.hop + 1) := rfl
    have fr : Frame [.flu, .tru, .cls, .cmu, .igu, .scu, .flags, .lde] (s.elapse dt) ((s0.headed h).onFlu fun u =>
        { u with entries := u.entries ++ [entryOf h s0.flu.out.start ((s0.ringed h).flu.delay h.l) u.resyncArmed] }) :=
      (((s.elapse dt).sendHeader_fr _).mono.comp (s0.headed_fr h)).comp (State.onFlu_fr _ _)
    have hnow : (s0.headed h).now = s.now + dt := (s0.headed_fr h).keeps_now
    obtain ⟨hcnu, higu, htru, -⟩ := s0.headed_rest h
    simp only [State.settle_now, State.settle_flu, State.settle_cls, State.settle_igu, State.settle_tru, State.onFlu_flu,
      State.onFlu_cls, State.onFlu_igu, State.onFlu_tru, State.onFlu_now]
    refine ⟨hnow, ?_, ?_, ?_, ?_, ?_, ?_, ?_, ?_, ?_, ?_, ?_, ?_, ?_, ?_, State.settled_only _ fr⟩ <;> clear fr hg e hnow
    all_goals rw [hflu]
    · exact hx.trans kx
    · exact (congrArg (fun p : Passage => { p.headed h with stage := .trip }) (ho.trans ko) :)
    · show (if (s0.ringed h).flu.turning then (s0.ringed h).flu.copy.headed h else (s0.ringed h).flu.copy) = _
      rw [ht.trans kt, hcopy.trans kcopy]
      rfl
    · exact htf.trans ktf
    · rfl
    · rfl
    · exact congrArg (· ++ [entryOf h s0.flu.out.start ((s0.ringed h).flu.delay h.l) (s0.ringed h).flu.resyncArmed])
        (hent.trans kent)
    · intro hr
      obtain ⟨k1, k2, k3, -, -⟩ := Flu.ringed_follows s0.flu (s0.positionFits (h.hop + 1)) h
        (show s.flu.ring ≠ _ by rw [hr]; simp)
      obtain ⟨hr1, hr2⟩ := hring (show s.flu.ring ≠ _ by rw [hr]; simp)
      exact ⟨hr1.trans k1, hpos.trans k2, hr2.trans k3⟩
    · intro hr
      obtain ⟨-, k2, -, -, -⟩ := Flu.ringed_follows s0.flu (s0.positionFits (h.hop + 1)) h
        (show s.flu.ring ≠ _ by rw [hr]; simp)
      exact ⟨hpos.trans k2, (hringf hr).1, (hringf hr).2⟩
    · intro hr
      exact hmeas.trans (Flu.ringed_follows s0.flu (s0.positionFits (h.hop + 1)) h hr).2.2.2.2
    · intro hr hp
      obtain ⟨k1, k2, -, k4⟩ := Flu.ringed_same s0.flu (s0.positionFits (h.hop + 1)) h hr hp
      exact ⟨(hring (show s.flu.ring ≠ _ by rw [hr]; simp)).1.trans k1, hpos.trans k2, hmeas.trans k4⟩
    · intro hr hp
      obtain ⟨k1, k2, k3, k4, k5⟩ := Flu.ringed_moved s0.flu (s0.positionFits (h.hop + 1)) h hr hp
      obtain ⟨l1, l2, l3⟩ := State.ringed_leaves (s := s0) hr hp
      refine ⟨(hring (show s.flu.ring ≠ _ by rw [hr]; simp)).1.trans k1, hpos.trans k2, hmeas.trans k5, hch.trans k3,
        harm.trans k4, ?_, ?_, ?_⟩
      · exact (FlagsStay.refl _).settle _ 1 (show (s0.headed h).cnu.flags.getLsbD 1 = true by rw [hcnu]; exact l1)
      · rw [higu]; exact l2
      · exact (congrArg (fun x : Tru => x.cond[(10 : Fin 15)]) htru).trans l3
    · exact hcls
    · exact hclsk
  · intro h
    have hg := State.outHeader_good (s := s.elapse dt) hst hm hb
    set s0 := (s.elapse dt).sendHeader (withHop bs (nextHop h.hop)) with hs0
    obtain ⟨ho, -, -, hx, hent, hcyc, -⟩ := s0.ringed_keeps h
    obtain ⟨ko, -, -, kx, kent, kcyc, -⟩ := Flu.ringed_keeps s0.flu (s0.positionFits (h.hop + 1)) h
    have hflu := s0.headed_flu h
    have hfr := s0.headed_fr h
    have harm := s0.headed_armed h
    obtain ⟨hf, hsh⟩ := State.placeEntry_three (s := s0.headed h) (e0 := e0) (e1 := e1) (e2 := e2)
      (entryOf h s0.flu.out.start ((s0.ringed h).flu.delay h.l))
      (by rw [hflu]; exact hent.trans (kent.trans he))
      (by rw [hflu]; exact fun k => hc (k.trans (hcyc.trans kcyc)))
      (by rw [hfr.keeps_now]; exact hi)
    rw [State.goodHeader_eq, ho, ko] at hg
    refine ⟨_, exec_checked (fun u => u.outHeader b) wf hg, ?_⟩
    have fr : Frame (.cls :: epochParts) (s.elapse dt) ((s0.headed h).placeEntry
        (entryOf h s0.flu.out.start ((s0.ringed h).flu.delay h.l))) :=
      ((((s.elapse dt).sendHeader_fr _).mono (qs := .cls :: epochParts)).comp hfr).comp (State.placeEntry_fr _ _)
    rw [State.settle_flu, State.settle_lsu, hf, hsh, harm, hfr.keeps_now, hflu]
    refine ⟨rfl, rfl, rfl, rfl, rfl, rfl, rfl, rfl, ?_, ?_, State.settled_only _ fr⟩
    · exact (congrArg (fun p : Passage => { p.headed h with stage := .trip }) (ho.trans ko) :)
    · exact hx.trans kx
  · have hp := State.outHeader_passes (s := s.elapse dt) (b := b) hst hn
    refine ⟨_, exec_checked (fun u => u.outHeader b) wf hp, ?_⟩
    rw [State.settle_onFlu hs _ rfl]
    exact ⟨rfl, State.effect_only _ (State.onFlu_fr _ _)⟩

end Sys2Proof.Machine

/-! Proofs, section 18. Entry into JOINED (R9, R172, R175, R178). -/

namespace Sys2Proof.Machine

set_option Elab.async false

section
variable {s : State}

/-! ### What joining does to the screens -/

/-- A refresh of one screen leaves the tiles of the other marked. -/
theorem State.fullRefresh_marked {i j : Fin 2} {u : Nat} (hij : j ≠ i) (h : s.TileMarked j u) :
    (s.fullRefresh i).TileMarked j u := by
  unfold State.fullRefresh
  split
  · unfold State.TileMarked at h ⊢
    show (modAt s.scu.out i _)[j].dirty.getLsbD u = true ∨ _
    rw [modAt_other _ _ hij]
    exact h
  · exact h

theorem State.requestRefresh_requests (s : State) (i : Fin 2) : (s.requestRefresh i).cls.requests =
    if (s.cfg.screenIn i).isSome = true ∧ i ∉ s.cls.requests then s.cls.requests ++ [i] else s.cls.requests := by
  unfold State.requestRefresh
  cases s.cfg.screenIn i with
  | none => rfl
  | some x =>
    show (if s.cls.requests.contains i = true then s.cls else { s.cls with requests := s.cls.requests ++ [i] }).requests = _
    by_cases h : i ∈ s.cls.requests <;> simp [h]

theorem State.requestRefresh_self {i : Fin 2} (h : (s.cfg.screenIn i).isSome = true) :
    i ∈ (s.requestRefresh i).cls.requests := by
  rw [State.requestRefresh_requests]
  by_cases k : i ∈ s.cls.requests <;> simp [h, k]

theorem State.requestRefresh_keeps {i j : Fin 2} (h : j ∈ s.cls.requests) : j ∈ (s.requestRefresh i).cls.requests := by
  rw [State.requestRefresh_requests]
  split
  · exact List.mem_append_left _ h
  · exact h

/-- Becoming JOINED, each incoming screen has its refresh request (R178). -/
theorem State.screensJoin_requests {i : Fin 2} (h : (s.cfg.screenIn i).isSome = true) : i ∈ s.screensJoin.cls.requests := by
  unfold State.screensJoin
  rw [(State.tryFetch_fr _).keeps_cls]
  have hcfg : ((s.fullRefresh 0).fullRefresh 1).cfg = s.cfg := ((s.fullRefresh_fr 0).comp (State.fullRefresh_fr _ 1)).keeps_cfg
  fin_cases i
  · exact State.requestRefresh_keeps (State.requestRefresh_self (by rw [hcfg]; exact h))
  · exact State.requestRefresh_self (by rw [(State.requestRefresh_fr _ _).keeps_cfg, hcfg]; exact h)

/-- Becoming JOINED, every tile of an outgoing screen is dirty, or its fetch was issued at once (R172, R175). -/
theorem State.screensJoin_marked {i : Fin 2} {w : Window} {p : ScreenParams} {u : Nat}
    (h : s.cfg.screenOut i = some (w, p)) (hu : u < p.tiles) (hu2 : u < 8192) : s.screensJoin.TileMarked i u := by
  unfold State.screensJoin
  refine State.tryFetch_marked ?_
  have hmark : ((s.fullRefresh 0).fullRefresh 1).TileMarked i u := by
    fin_cases i
    · exact State.fullRefresh_marked (by decide) (State.fullRefresh_marks h hu hu2)
    · exact State.fullRefresh_marks (by rw [(State.fullRefresh_fr _ _).keeps_cfg]; exact h) hu hu2
  unfold State.TileMarked at hmark ⊢
  rw [(State.requestRefresh_fr _ 1).keeps_scu, (State.requestRefresh_fr _ 0).keeps_scu]
  exact hmark

/-! ### A header that takes the node to JOINED -/

theorem State.enterJoined_flag (s : State) : s.enterJoined.cnu.flags.getLsbD 1 = true := by
  unfold State.enterJoined
  exact ((FlagsStay.refl _).handCondition 10 false).screensJoin 1 (State.notify_self _ 1)

/-- The condition of source 10 ends with the passage to JOINED (R9). -/
theorem State.enterJoined_cond (s : State) : s.enterJoined.tru.cond[(10 : Fin 15)] = false := by
  unfold State.enterJoined
  rw [(State.screensJoin_fr _).keeps_tru]
  exact State.handStamped_cond_self _ 10 false _

theorem addMeas_full {m : List Nat} (h : m.length = 16) (r : Nat) : (addMeas m r).length = 16 := by
  unfold addMeas
  rw [if_pos (by rw [h]; decide)]
  simp [h]

/-- A FOLLOWING node with 16 measurements, its position as counted and taken, joins at the header (R9). -/
theorem Flu.ringed_joinsAt {u : Flu} {fits : Bool} {h : HeaderFields} (hr : u.ring = .following)
    (hp : u.position = some (h.hop + 1)) (hf : fits = true) (hm : u.meas.length = 16) :
    (u.ringed fits h).joinsAt u.ring fits := by
  obtain ⟨k1, -, -, -, k5⟩ := Flu.ringed_follows u fits h (by rw [hr]; simp)
  refine ⟨hr, k1, ?_, hf⟩
  rw [k5, if_pos hp]
  split
  · exact addMeas_full hm _
  · exact hm

theorem State.ringHeader_following (hr : s.flu.ring = .following) (p : Nat) : s.ringHeader p = s.follow p := by
  unfold State.ringHeader
  rw [hr]

/-- What such a header touches up to the entry. -/
theorem State.headed_joining_fr {h : HeaderFields} (hr : s.flu.ring = .following)
    (k : (s.flu.ringed (s.positionFits (h.hop + 1)) h).joinsAt s.flu.ring (s.positionFits (h.hop + 1))) :
    Frame [.flu, .tru, .cls, .cmu, .scu, .flags, .lde] s (s.headed h) := by
  have hf : Frame [.flu, .tru, .cls, .cmu, .scu, .flags, .lde] s (s.ringed h) := by
    rw [State.ringed_joins k, State.ringHeader_following hr]
    exact (((s.follow_fr _).mono).comp (State.beginMeasure_fr _ _)).comp (State.enterJoined_fr _)
  exact Frame.ite ((hf.comp (State.onFlu_fr _ _)).comp (State.startClaims_fr _)) (hf.comp (State.onFlu_fr _ _))

theorem State.headed_requests (s : State) (h : HeaderFields) : (s.headed h).cls.requests = (s.ringed h).cls.requests := by
  unfold State.headed
  dsimp only
  split <;> rfl

end

/-- Settles O23: `State.enterJoined` behind the measurement that the header begins. -/
theorem sixteenMeasurementsJoinTheLine : Obligations.SixteenMeasurementsJoinTheLine := by
  intro dt b bs s hl hm hst hb he hr hp hfit hmeas
  have wf : (Instr.entryIntoJoined dt b).wf = true := decide_eq_true hl
  have hg := State.outHeader_good (s := s.elapse dt) hst hm hb
  generalize hh : parseHeader bs = h at hp hfit hg ⊢
  set s0 := (s.elapse dt).sendHeader (withHop bs (nextHop h.hop)) with hs0
  have hroom := s0.goodHeader_room h he
  have k : (s0.flu.ringed (s0.positionFits (h.hop + 1)) h).joinsAt s0.flu.ring (s0.positionFits (h.hop + 1)) :=
    Flu.ringed_joinsAt hr hp hfit hmeas
  have hflu : (s0.headed h).flu = ({ s0.flu.ringed (s0.positionFits (h.hop + 1)) h with
      ring := .joined, mismatch := false } : Flu).headed h := by
    rw [State.headed_flu]
    rcases s0.ringed_flu h with ⟨-, e⟩ | ⟨n, -⟩
    · rw [e]
    · exact absurd k n
  obtain ⟨-, -, -, kx, -, -, -⟩ := Flu.ringed_keeps s0.flu (s0.positionFits (h.hop + 1)) h
  obtain ⟨-, kp, -⟩ := Flu.ringed_follows s0.flu (s0.positionFits (h.hop + 1)) h (show s.flu.ring ≠ _ by rw [hr]; simp)
  have hall := hg.trans hroom
  have hring : ((s.elapse dt).outHeader b).flu.ring = .joined := by
    rw [hall, State.onFlu_flu, hflu]
    rfl
  refine ⟨_, exec_checked (fun u => u.whenOutcome (fun u => u.outHeader b) joins) wf
    ((State.whenOutcome_holds (by simp [joins, hring, hr])).trans hall), ?_⟩
  have fr : Frame [.flu, .tru, .cls, .cmu, .scu, .flags, .lde] (s.elapse dt) ((s0.headed h).onFlu fun u =>
      { u with entries := u.entries ++ [entryOf h s0.flu.out.start ((s0.ringed h).flu.delay h.l) u.resyncArmed] }) :=
    (((s.elapse dt).sendHeader_fr _).mono.comp (State.headed_joining_fr (s := s0) (h := h) hr k)).comp (State.onFlu_fr _ _)
  obtain ⟨hcnu, -, htru, hscu⟩ := s0.headed_rest h
  have hreq := s0.headed_requests h
  rw [State.ringed_joins k] at hcnu htru hscu hreq
  generalize hx : (s0.ringHeader (h.hop + 1)).beginMeasure h.cycle = x at hcnu htru hscu hreq
  have hcfg : x.cfg = s.cfg := by
    rw [← hx, (State.beginMeasure_fr _ _).keeps_cfg, (State.ringHeader_fr _ _).keeps_cfg]
    rfl
  rw [State.settle_flu, State.settle_tru, State.settle_cls, State.settle_scu, State.onFlu_flu, hflu]
  refine ⟨rfl, kp.trans hp.symm, rfl, ?_, ?_, fun i hi => ?_, fun i v p u hv hu hu2 => ?_, kx, State.settled_only _ fr⟩
  · exact (FlagsStay.refl _).settle _ 1 (show (s0.headed h).cnu.flags.getLsbD 1 = true by rw [hcnu]; exact x.enterJoined_flag)
  · exact (congrArg (fun v : Tru => v.cond[(10 : Fin 15)]) htru).trans x.enterJoined_cond
  · show i ∈ (s0.headed h).cls.requests
    rw [hreq]
    exact State.screensJoin_requests (by rw [(State.handCondition_fr _ _ _).keeps_cfg]; exact hcfg ▸ hi)
  · show (s0.headed h).TileMarked i u
    unfold State.TileMarked
    rw [hscu]
    exact State.screensJoin_marked (w := v) (p := p) (by rw [(State.handCondition_fr _ _ _).keeps_cfg]; exact hcfg ▸ hv) hu hu2

end Sys2Proof.Machine

/-! Proofs, section 19. Silent epochs (R10, R13, R14, R23). -/

namespace Sys2Proof.Machine

set_option Elab.async false

section
variable {s t u : State}

/-! ### What the blocks' work leaves alone -/

/-- What the work of the blocks at an epoch keeps, ring loss apart: the FLU, transmit queue, send buffer, source 10 and what is
published; flags that are set stay. -/
structure BlocksWork (s t : State) : Prop where
  flu : t.flu = s.flu
  tx : t.igu.tx = s.igu.tx
  buffer : t.scu.buffer = s.scu.buffer
  loss : t.tru.cond[(10 : Fin 15)] = s.tru.cond[(10 : Fin 15)]
  publish : t.slu.publish = s.slu.publish
  committed : t.slu.committed = s.slu.committed
  flags : FlagsStay s t

theorem BlocksWork.refl (s : State) : BlocksWork s s := ⟨rfl, rfl, rfl, rfl, rfl, rfl, FlagsStay.refl s⟩

theorem BlocksWork.trans (h : BlocksWork s t) (k : BlocksWork t u) : BlocksWork s u :=
  ⟨k.flu.trans h.flu, k.tx.trans h.tx, k.buffer.trans h.buffer, k.loss.trans h.loss, k.publish.trans h.publish,
    k.committed.trans h.committed, h.flags.trans k.flags⟩

theorem BlocksWork.ite {c : Prop} [Decidable c] (h : BlocksWork s t) (k : BlocksWork s u) :
    BlocksWork s (if c then t else u) := by
  split
  · exact h
  · exact k

/-- An operation that touches none of the blocks concerned. -/
theorem BlocksWork.of_frame {ps : List Part} (f : Frame ps s t) (hf : FlagsStay s t) (m1 : Part.flu ∉ ps := by decide)
    (m2 : Part.igu ∉ ps := by decide) (m3 : Part.scu ∉ ps := by decide) (m4 : Part.tru ∉ ps := by decide)
    (m5 : Part.slu ∉ ps := by decide) : BlocksWork s t :=
  ⟨f.keeps_flu m1, congrArg Igu.tx (f.keeps_igu m2), congrArg Scu.buffer (f.keeps_scu m3),
    congrArg (fun x : Tru => x.cond[(10 : Fin 15)]) (f.keeps_tru m4), congrArg Slu.publish (f.keeps_slu m5),
    congrArg Slu.committed (f.keeps_slu m5), hf⟩

theorem BlocksWork.lsuEpoch (s : State) (hdr : Option HeaderShaft) (mark : Bool) : BlocksWork s (s.lsuEpoch hdr mark) :=
  .of_frame (s.lsuEpoch_fr hdr mark) ((FlagsStay.refl s).lsuEpoch hdr mark)

theorem BlocksWork.axuEpoch (s : State) (y mark : Bool) : BlocksWork s (s.axuEpoch y mark) :=
  .of_frame (s.axuEpoch_fr y mark) ((FlagsStay.refl s).axuEpoch y mark)

theorem BlocksWork.cmuEpoch (s : State) (mark : Bool) : BlocksWork s (s.cmuEpoch mark) :=
  .of_frame (s.cmuEpoch_fr mark) ((FlagsStay.refl s).cmuEpoch mark)

/-- The stop timer leaves the sources and the acting class alone. -/
theorem State.truEpoch_tru (s : State) : s.truEpoch.tru.cond = s.tru.cond ∧ s.truEpoch.tru.acting = s.tru.acting := by
  unfold State.truEpoch
  split
  · exact ⟨(apply_ite Tru.cond _ _ _).trans (ite_self _), (apply_ite Tru.acting _ _ _).trans (ite_self _)⟩
  · exact ⟨rfl, rfl⟩

theorem BlocksWork.truEpoch (s : State) : BlocksWork s s.truEpoch :=
  have f := s.truEpoch_fr
  ⟨s.truEpoch_flu, congrArg Igu.tx f.keeps_igu, congrArg Scu.buffer f.keeps_scu, by rw [s.truEpoch_tru.1],
    congrArg Slu.publish f.keeps_slu, congrArg Slu.committed f.keeps_slu, (FlagsStay.refl s).frame f⟩

/-- A change of another source's condition. -/
theorem BlocksWork.handCondition (s : State) {n : Fin 15} (b : Bool) (h : (10 : Fin 15) ≠ n) :
    BlocksWork s (s.handCondition n b) :=
  have f := s.handCondition_fr n b
  ⟨s.handCondition_flu n b, congrArg Igu.tx f.keeps_igu, congrArg Scu.buffer f.keeps_scu, (s.handStamped_other b _ h).2,
    congrArg Slu.publish f.keeps_slu, congrArg Slu.committed f.keeps_slu, (FlagsStay.refl s).handCondition n b⟩

theorem State.ageWindow_slu (s : State) (i : Fin 8) : (s.ageWindow i).slu.publish = s.slu.publish ∧
    (s.ageWindow i).slu.committed = s.slu.committed ∧ (s.ageWindow i).tru = s.tru := by
  unfold State.ageWindow
  cases s.cfg.slotIn i with
  | none => exact ⟨rfl, rfl, rfl⟩
  | some x =>
    dsimp only
    rw [(State.requestUrgent_fr _ _ _).keeps_slu, (State.notifyIf_fr _ _ _).keeps_slu,
      (State.requestUrgent_fr _ _ _).keeps_tru, (State.notifyIf_fr _ _ _).keeps_tru]
    exact ⟨rfl, rfl, rfl⟩

theorem BlocksWork.sluEpoch (s : State) : BlocksWork s s.sluEpoch := by
  have age : BlocksWork s ((List.finRange 8).foldl State.ageWindow s) := by
    have hu := foldl_keeps State.ageWindow (fun u : State => (u.slu.publish, u.slu.committed, u.tru, u.flu, u.igu, u.scu))
      (List.finRange 8) (fun u i _ => by
        obtain ⟨h1, h2, h3⟩ := u.ageWindow_slu i
        rw [h1, h2, h3, (u.ageWindow_fr i).keeps_flu, (u.ageWindow_fr i).keeps_igu, (u.ageWindow_fr i).keeps_scu]) s
    obtain ⟨h1, h2, h3, h4, h5, h6⟩ : _ ∧ _ ∧ _ ∧ _ ∧ _ ∧ _ := by simpa only [Prod.mk.injEq] using hu
    exact ⟨h4, congrArg Igu.tx h5, congrArg Scu.buffer h6, congrArg (fun x : Tru => x.cond[(10 : Fin 15)]) h3, h1, h2,
      (FlagsStay.refl s).foldl _ (fun u i => (FlagsStay.refl u).ageWindow i) _⟩
  exact age.trans (.ite (.refl _) (.handCondition _ _ (by decide)))

theorem State.streamEpoch_tx (s : State) (i : Fin 4) : (s.streamEpoch i).igu.tx = s.igu.tx := by
  have hend : ∀ x : State, (x.endImage i false).igu.tx = x.igu.tx := by
    intro x
    unfold State.endImage
    split
    · dsimp only
      split
      · rw [State.notify_igu]
        show (State.requestNormal _ _ _).igu.tx = _
        rw [(State.requestNormal_fr _ _ _).keeps_igu]
        rfl
      · rw [(State.requestNormal_fr _ _ _).keeps_igu]
        rfl
    · rfl
  unfold State.streamEpoch
  split
  · dsimp only
    split
    · rw [hend]
      rfl
    · rfl
  · rfl

theorem BlocksWork.iguEpoch (s : State) : BlocksWork s s.iguEpoch :=
  have f := s.iguEpoch_fr
  ⟨s.iguEpoch_flu, foldl_keeps State.streamEpoch (fun u : State => u.igu.tx) _ (fun u i _ => u.streamEpoch_tx i) s,
    congrArg Scu.buffer f.keeps_scu, congrArg (fun x : Tru => x.cond[(10 : Fin 15)]) f.keeps_tru,
    congrArg Slu.publish f.keeps_slu, congrArg Slu.committed f.keeps_slu, (FlagsStay.refl s).iguEpoch⟩

theorem State.sweepEpoch_buffer (s : State) (i : Fin 2) : (s.sweepEpoch i).scu.buffer = s.scu.buffer := by
  unfold State.sweepEpoch
  split
  · split
    · rfl
    · split
      · rw [State.tryFetch_buffer]
        rfl
      · rfl
  · rfl

theorem BlocksWork.scuEpoch (s : State) : BlocksWork s s.scuEpoch :=
  have f := s.scuEpoch_fr
  ⟨s.scuEpoch_flu, congrArg Igu.tx f.keeps_igu, ((s.sweepEpoch 0).sweepEpoch_buffer 1).trans (s.sweepEpoch_buffer 0),
    congrArg (fun x : Tru => x.cond[(10 : Fin 15)]) f.keeps_tru, congrArg Slu.publish f.keeps_slu,
    congrArg Slu.committed f.keeps_slu, (FlagsStay.refl s).scuEpoch⟩

/-! ### Where the ring is lost -/

/-- The sweep may come before the node leaves the ring (R10, R174). -/
theorem State.loseRing_leaves (s : State) (w : Bool) : ∃ u, BlocksWork s u ∧ s.loseRing w = u.leaveRing := by
  cases w with
  | false => exact ⟨s, .refl s, rfl⟩
  | true => exact ⟨s.scuEpoch, .scuEpoch s, rfl⟩

/-- From the line shaft to the Camera Unit and source 11. -/
theorem BlocksWork.middle (s : State) (x : Bool) (hdr : Option HeaderShaft) (mark : Bool) :
    let s3 := ((s.lsuEpoch hdr mark).truEpoch).axuEpoch hdr.isNone mark
    BlocksWork s (if x then s3.handSourceLost.cmuEpoch mark else (s3.cmuEpoch mark).handSourceLost) := by
  intro s3
  have h3 : BlocksWork s s3 := ((BlocksWork.lsuEpoch s hdr mark).trans (.truEpoch _)).trans (.axuEpoch _ _ _)
  exact .ite ((h3.trans (.handCondition _ _ (by decide))).trans (.cmuEpoch _ _))
    ((h3.trans (.cmuEpoch _ _)).trans (.handCondition _ _ (by decide)))

/-- An epoch from the ring loss that comes first, or none, to the one that comes last, or none. -/
def State.epochBody (s : State) (a x : Bool) (hdr : Option HeaderShaft) (mark : Bool) : State :=
  let s2 := if a then s.sluEpoch else s
  let s3 := ((s2.lsuEpoch hdr mark).truEpoch).axuEpoch hdr.isNone mark
  let s4 := if x then s3.handSourceLost.cmuEpoch mark else (s3.cmuEpoch mark).handSourceLost
  if a then s4 else s4.sluEpoch

theorem BlocksWork.epochBody (s : State) (a x : Bool) (hdr : Option HeaderShaft) (mark : Bool) :
    BlocksWork s (s.epochBody a x hdr mark) := by
  have h2 : BlocksWork s (if a then s.sluEpoch else s) := .ite (.sluEpoch s) (.refl s)
  have h4 := h2.trans (BlocksWork.middle _ x hdr mark)
  exact .ite h4 (h4.trans (.sluEpoch _))

/-- An epoch without a ring loss is the blocks' work. -/
theorem State.epochIn_keepsRing (s : State) (l w a x : Bool) (hdr : Option HeaderShaft) (mark : Bool) :
    s.epochIn l w a x hdr mark false = (s.epochBody a x hdr mark).iguEpoch.scuEpoch := rfl

theorem BlocksWork.epochIn (s : State) (l w a x : Bool) (hdr : Option HeaderShaft) (mark : Bool) :
    BlocksWork s (s.epochIn l w a x hdr mark false) := by
  rw [State.epochIn_keepsRing]
  exact ((BlocksWork.epochBody s a x hdr mark).trans (.iguEpoch _)).trans (.scuEpoch _)

/-- At an epoch of a ring loss the node leaves the ring in the course of the blocks' work (R10). -/
theorem State.epochIn_leaves (s : State) (l w a x : Bool) (hdr : Option HeaderShaft) (mark : Bool) :
    ∃ u, BlocksWork s u ∧ BlocksWork u.leaveRing (s.epochIn l w a x hdr mark true) := by
  have tail : ∀ u : State, BlocksWork u (if (true && w) = true then u.iguEpoch else u.iguEpoch.scuEpoch) := fun u =>
    .ite (.iguEpoch u) ((BlocksWork.iguEpoch u).trans (.scuEpoch _))
  cases l with
  | true =>
    obtain ⟨u, hu, e⟩ := s.loseRing_leaves w
    refine ⟨u, hu, ?_⟩
    rw [← e]
    exact (BlocksWork.epochBody (s.loseRing w) a x hdr mark).trans (tail _)
  | false =>
    obtain ⟨u, hu, e⟩ := (s.epochBody a x hdr mark).loseRing_leaves w
    refine ⟨u, (BlocksWork.epochBody s a x hdr mark).trans hu, ?_⟩
    rw [← e]
    exact tail _

/-! ### Ring loss -/

theorem State.leaveRing_slu (s : State) : s.leaveRing.slu = s.slu := (State.leaveRing_fr s).keeps_slu

theorem State.leaveJoined_buffer (s : State) : s.leaveJoined.scu.buffer = [] := by
  unfold State.leaveJoined
  rw [(State.cancelFirings_fr _).keeps_scu]
  rfl

theorem State.leaveRing_buffer (h : s.flu.ring = .joined) : s.leaveRing.scu.buffer = [] := by
  rw [State.leaveRing_eq, if_pos h]
  exact State.leaveJoined_buffer _

/-- A node that was not JOINED keeps its transmit queue. -/
theorem State.leaveRing_tx (h : s.flu.ring ≠ .joined) : s.leaveRing.igu.tx = s.igu.tx := by
  rw [State.leaveRing_eq, if_neg h]
  unfold State.seeks
  rw [if_neg h, State.notify_igu, (State.recompute_fr _).keeps_igu]
  rfl

/-- What a ring loss in the course of an epoch makes of the node (R10). -/
structure LostRing (s t : State) : Prop where
  flu : t.flu = s.flu.left
  flag : t.cnu.flags.getLsbD 1 = true
  joined : s.flu.ring = .joined → t.igu.tx = [] ∧ t.scu.buffer = [] ∧ t.tru.cond[(10 : Fin 15)] = true
  other : s.flu.ring ≠ .joined → t.igu.tx = s.igu.tx
  publish : t.slu.publish = s.slu.publish
  committed : t.slu.committed = s.slu.committed

theorem State.epochWork_loses (s : State) (hdr : Option HeaderShaft) (mark : Bool) :
    LostRing s (s.epochWork hdr mark true) := by
  obtain ⟨u, hu, ht⟩ := State.epochIn_leaves { s with free := s.free + 4 } (Config.takenFirst s.free)
    (Config.takenFirst (s.free + 1)) (Config.takenFirst (s.free + 2)) (Config.takenFirst (s.free + 3)) hdr mark
  have hflu : u.flu = s.flu := hu.flu
  refine ⟨?_, ht.flags 1 u.leaveRing_flag, fun hj => ?_, fun hj => ?_, ?_, ?_⟩
  · exact ht.flu.trans ((State.leaveRing_flu u).trans (by rw [hflu]))
  · have hj' : u.flu.ring = .joined := by rw [hflu]; exact hj
    obtain ⟨htx, hcond⟩ := State.leaveRing_joined hj'
    exact ⟨ht.tx.trans htx, ht.buffer.trans (State.leaveRing_buffer hj'), ht.loss.trans hcond⟩
  · exact ht.tx.trans ((State.leaveRing_tx (by rw [hflu]; exact hj)).trans hu.tx)
  · exact ht.publish.trans ((congrArg Slu.publish u.leaveRing_slu).trans hu.publish)
  · exact ht.committed.trans ((congrArg Slu.committed u.leaveRing_slu).trans hu.committed)

/-! ### The epoch that is due -/

/-- Before a synthesized epoch that is due, no entry is pending: the local cycle timer is taken. -/
theorem State.dueEpoch_synthesizes {dt : Nat} (h : s.SynthesizedEpochDue dt) :
    (s.elapse dt).timerDue = true ∧ (s.elapse dt).takeTimer = (s.elapse dt).synthesize ∧
      (s.elapse dt).dueEpoch = (s.elapse dt).synthesize := by
  have htimer : (s.elapse dt).timerDue = true := by
    unfold State.timerDue
    exact Bool.and_eq_true_iff.2 ⟨h.member, decide_eq_true h.expired⟩
  have hpend : (s.elapse dt).nextPending = false := by
    unfold State.nextPending
    rw [show (s.elapse dt).flu.entries = [] from h.entries]
    rfl
  have htake : (s.elapse dt).takeTimer = (s.elapse dt).synthesize := if_neg (by rw [hpend]; decide)
  refine ⟨htimer, htake, ?_⟩
  unfold State.dueEpoch
  rw [State.entryDue_nil (s := s.elapse dt) h.entries, Bool.and_false, if_neg (by decide), if_pos htimer, htake]

/-- The one entry pending is due: it makes the epoch. -/
theorem State.dueEpoch_takes {dt : Nat} {e : PendingEntry} (h : s.HeaderEpochDue dt e) :
    (s.elapse dt).takeDue 3 = ((s.elapse dt).onFlu fun u => { u with entries := [] }).takeEntry e ∧
      (s.elapse dt).dueEpoch = (s.elapse dt).takeDue 3 := by
  have hdue : (s.elapse dt).entryDue = true := by
    unfold State.entryDue
    rw [show (s.elapse dt).flu.entries = [e] from h.entries]
    exact decide_eq_true h.arrived
  have hold : (s.elapse dt).takeOldest = ((s.elapse dt).onFlu fun u => { u with entries := [] }).takeEntry e := by
    unfold State.takeOldest
    rw [show (s.elapse dt).flu.entries = [e] from h.entries]
  have hnone : (s.elapse dt).takeOldest.flu.entries = [] := by
    rw [State.takeOldest_flu (s.elapse dt) (rest := []) h.entries, if_neg (by exact h.fresh)]
    rfl
  refine ⟨?_, ?_⟩
  · show (if (s.elapse dt).entryDue = true then (s.elapse dt).takeOldest.takeDue 2 else _) = _
    rw [if_pos hdue, State.takeDue_stops (State.entryDue_nil hnone), hold]
  · unfold State.dueEpoch
    rw [hdue, Bool.and_true, if_pos (by exact h.configured)]

/-! ### The end-node condition -/

theorem State.isEndNode_silent (hm : s.isMember = true) (hw : 2 ≤ s.flu.returnWatch) : s.isEndNode = true := by
  simp [State.isEndNode, hm, hw]

theorem State.isEndNode_lit (hd : s.flu.down.state ≠ .dark) (hw : s.flu.returnWatch < 2) : s.isEndNode = false := by
  simp [State.isEndNode, hd, hw]

/-- An epoch that makes the node the end node sets flag 1 (R14). -/
theorem State.watchEpoch_flag (h : s.isEndNode = false) (k : s.watchEpoch.isEndNode = true) :
    s.watchEpoch.cnu.flags.getLsbD 1 = true := by
  have hend : (s.onFlu Flu.watched).isEndNode = true := by
    rw [← k]
    exact (State.isEndNode_congr (by rw [(State.watchEpoch_fr s).keeps_isMember]; rfl)
      (by rw [State.watchEpoch_flu]; rfl) (by rw [State.watchEpoch_flu]; rfl)).symm
  show (State.noticeEnd s (s.onFlu Flu.watched)).cnu.flags.getLsbD 1 = true
  rw [State.noticeEnd_flags, h, hend, if_neg (by decide)]
  exact State.notify_self _ 1

end

/-- Settles O45: `State.epochWork_loses`, and the return watch at the second silent epoch. -/
theorem silentEpochsLoseTheRingOrTheReturn : Obligations.SilentEpochsLoseTheRingOrTheReturn := by
  intro dt s
  refine ⟨fun h hring hmiss hlim => ?_, fun e h hm hd hw hg => ?_⟩
  · obtain ⟨-, -, hdue⟩ := State.dueEpoch_synthesizes h
    have hmin : min 65535 (s.flu.miss + 1) = s.cfg.lossLimit := by omega
    have hloses : (s.elapse dt).losesRing = true := by
      unfold State.losesRing
      exact Bool.and_eq_true_iff.2 ⟨decide_eq_true hring, decide_eq_true hmin⟩
    have hflu := State.synthesize_flu (s.elapse dt)
    rw [if_pos hloses] at hflu
    have hwatch : ((s.elapse dt).onFlu fun u => u.synthesize (s.elapse dt).now).watchEpoch.flu =
        (s.flu.synthesize (s.now + dt)).watched := State.watchEpoch_flu _
    have hlost : LostRing ((s.elapse dt).onFlu fun u => u.synthesize (s.elapse dt).now).watchEpoch (s.elapse dt).synthesize := by
      unfold State.synthesize
      rw [hloses]
      exact State.epochWork_loses _ none false
    obtain ⟨-, hflag, hjoined, hother, hpub, hcom⟩ := hlost
    have hwf := State.watchEpoch_fr ((s.elapse dt).onFlu fun u => u.synthesize (s.elapse dt).now)
    rw [hwatch] at hjoined hother
    rw [hwf.keeps_slu] at hpub hcom
    rw [hwf.keeps_igu] at hother
    refine ⟨_, exec_event (fun u => u.whenOutcome State.dueEpoch leavesRing) ((State.whenOutcome_holds (by
      rw [hdue, leavesRing, hflu]
      exact Bool.and_eq_true_iff.2 ⟨decide_eq_true hring, rfl⟩)).trans hdue), ?_⟩
    have fr : Frame epochParts (s.elapse dt) (s.elapse dt).synthesize := (State.synthesize_fr _).mono
    simp only [State.settle_flu, State.settle_igu, State.settle_scu, State.settle_slu]
    rw [hflu]
    refine ⟨rfl, rfl, rfl, rfl, hmin, (FlagsStay.refl _).settle _ 1 hflag, fun hj => ?_, fun hf => ?_,
      State.settled_only _ fr⟩
    · obtain ⟨htx, hbuf, hcond⟩ := hjoined hj
      refine ⟨?_, htx, hbuf, ?_, hpub, hcom⟩
      · show (s.flu.resyncArmed || decide (s.flu.ring = .joined)) = true
        rw [hj]
        simp
      · rw [State.settle_tru]
        exact hcond
    · refine ⟨?_, hother (show s.flu.ring ≠ .joined by rw [hf]; simp)⟩
      show (s.flu.resyncArmed || decide (s.flu.ring = .joined)) = s.flu.resyncArmed
      rw [hf]
      simp
  · obtain ⟨htake, hdue⟩ := State.dueEpoch_takes h
    have hall := hdue.trans htake
    have hflu : ((s.elapse dt).dueEpoch).flu =
        (Flu.headerEpoch { s.flu with entries := [] } e (s.now + dt)).watched := by
      rw [hall, State.takeEntry_flu, if_neg (by exact h.fresh)]
      rfl
    have hwatch : ((s.elapse dt).dueEpoch).flu.returnWatch = 2 := by
      rw [hflu]
      show (if s.flu.goodReturn = true then s.flu.returnWatch else min 255 (s.flu.returnWatch + 1)) = 2
      rw [hg, hw]
      rfl
    have fr : Frame epochParts (s.elapse dt) (s.elapse dt).dueEpoch := (State.dueEpoch_fr _).mono
    have hm' : (s.elapse dt).dueEpoch.isMember = true := fr.keeps_isMember.trans hm
    have hend := State.isEndNode_silent hm' (by rw [hwatch])
    have hlit := State.isEndNode_lit hd (by rw [hw]; decide)
    have hflag : ((s.elapse dt).dueEpoch).cnu.flags.getLsbD 1 = true := by
      rw [hall]
      unfold State.takeEntry
      rw [if_neg (by exact h.fresh)]
      refine (FlagsStay.refl _).epochWork _ _ _ 1 (State.watchEpoch_flag ?_ ?_)
      · exact State.isEndNode_lit (by rw [State.notifyIf_flu]; exact hd)
          (by rw [State.notifyIf_flu]; show s.flu.returnWatch < 2; rw [hw]; decide)
      · refine State.isEndNode_silent ?_ ?_
        · rw [(State.watchEpoch_fr _).keeps_isMember, (State.notifyIf_fr _ _ _).keeps_isMember]
          exact hm
        · rw [State.watchEpoch_flu, State.notifyIf_flu]
          show 2 ≤ if s.flu.goodReturn = true then s.flu.returnWatch else min 255 (s.flu.returnWatch + 1)
          rw [hg, hw]
          decide
    refine ⟨_, exec_event (fun u => u.whenOutcome State.dueEpoch becomesEnd) (State.whenOutcome_holds (by
      rw [becomesEnd, hend, Bool.and_true]
      exact congrArg (!·) hlit)), ?_, hlit, ?_, (FlagsStay.refl _).settle _ 1 hflag, State.settled_only _ fr⟩
    · exact State.isEndNode_silent ((State.settle_fr _ _).keeps_isMember.trans hm') (by rw [State.settle_flu, hwatch])
    · rw [State.settle_flu]
      exact hwatch

end Sys2Proof.Machine

/-! Proofs, section 20. What an epoch makes of an axis without a command (R68 to R78). -/

namespace Sys2Proof.Machine

set_option Elab.async false

section
variable {a b : Axis} {v : AxisView}

/-! ### Steps 5 and 6 -/

/-- Two axes alike in what the gear step and the slew work on. -/
structure Axis.SameMotion (a b : Axis) : Prop where
  theta : b.theta = a.theta
  rev : b.rev = a.rev
  r : b.r = a.r
  o : b.o = a.o
  n : b.n = a.n
  d : b.d = a.d
  lslew : b.lslew = a.lslew
  ot : b.ot = a.ot

theorem Axis.SameMotion.refl (a : Axis) : a.SameMotion a := ⟨rfl, rfl, rfl, rfl, rfl, rfl, rfl, rfl⟩

theorem Axis.SameMotion.trans {c : Axis} (h : a.SameMotion b) (k : b.SameMotion c) : a.SameMotion c :=
  ⟨k.theta.trans h.theta, k.rev.trans h.rev, k.r.trans h.r, k.o.trans h.o, k.n.trans h.n, k.d.trans h.d,
    k.lslew.trans h.lslew, k.ot.trans h.ot⟩

/-- Steps 5 and 6 at an axis that is not ENGAGED: it stands. -/
theorem Axis.SameMotion.stands (h : a.SameMotion b) (hb : b.state ≠ .engaged) (dA : Int) (v : AxisView) :
    a.Stands ((b.gearStep dA).slew v) b.state b.resyncHold := by
  have e : b.gearStep dA = { b with q := 0 } := if_neg hb
  rw [e]
  obtain ⟨h1, h2, h3, h4, -, -, -, -⟩ := h
  unfold Axis.slew
  simp only [hb, false_and, if_false, decide_false, Bool.false_and]
  exact ⟨rfl, rfl, rfl, h1, h2, h3, h4, rfl, by rw [h1, h4]⟩

/-- Steps 5 and 6 at an ENGAGED axis: it follows its increment. -/
theorem Axis.SameMotion.follows (h : a.SameMotion b) (hb : b.state = .engaged) (hh : b.resyncHold = a.resyncHold)
    (dA : Int) (v : AxisView) : a.Follows ((b.gearStep dA).slew v) v.acting dA := by
  obtain ⟨h1, h2, h3, h4, h5, h6, h7, h8⟩ := h
  unfold Axis.gearStep
  rw [if_pos hb]
  unfold Axis.slew Axis.slewStep Axis.Follows
  rw [h1, h2, h3, h4, h5, h6, h7, h8]
  refine ⟨hb, hh, rfl, fun hd => ?_, rfl, rfl, ?_, ?_, rfl⟩
  · exact Int.toNat_of_nonneg (Int.emod_nonneg _ (by omega))
  · cases v.acting.stops <;> simp [hb]
  · simp [hb]

/-- Steps 5 and 6 leave the source's record alone. -/
theorem Axis.gearSlew_keeps (b : Axis) (dA : Int) (v : AxisView) : let c := (b.gearStep dA).slew v
    c.state = b.state ∧ c.ref = b.ref ∧ c.miss = b.miss ∧ c.delta = b.delta ∧ c.sourceLost = b.sourceLost ∧
      c.extrap = b.extrap := by
  unfold Axis.gearStep
  split <;> exact ⟨rfl, rfl, rfl, rfl, rfl, rfl⟩

/-! ### Step 4 -/

/-- Step 4 concerns the source's record only; the state it can change is that of an ENGAGED axis. -/
theorem Axis.observe_keeps (a : Axis) (v : AxisView) : a.SameMotion (a.observe v).2 ∧
    (a.observe v).2.resyncHold = a.resyncHold ∧ (a.state ≠ .engaged → (a.observe v).2.state = a.state) := by
  have k : ∀ r d m x l, let b := { a with ref := r, delta := d, miss := m, extrap := x, sourceLost := l }
      a.SameMotion b ∧ b.resyncHold = a.resyncHold ∧ (a.state ≠ .engaged → b.state = a.state) := fun _ _ _ _ _ =>
    ⟨⟨rfl, rfl, rfl, rfl, rfl, rfl, rfl, rfl⟩, rfl, fun _ => rfl⟩
  unfold Axis.observe
  split
  · exact k ..
  · split
    · exact k ..
    · exact k ..
    · split
      · exact k ..
      · rename_i he
        split
        · exact k ..
        · exact ⟨⟨rfl, rfl, rfl, rfl, rfl, rfl, rfl, rfl⟩, rfl, fun hn => absurd hn he⟩

theorem Axis.observe_shaft (h : a.source = .shaft) :
    a.observe v = (signedDiff v.shadow (a.ref.getD v.shadow), { a with ref := some v.shadow }) := by
  unfold Axis.observe
  rw [h]

theorem Axis.observe_fresh {k : Fin 128} {f p : Word} (h : a.source = .slot k) (hf : v.fresh[k] = some f)
    (hp : a.ref = some p) : a.observe v = (signedDiff f p,
      { a with delta := signedDiff f p, ref := some f, miss := 0, extrap := false, sourceLost := false }) := by
  unfold Axis.observe
  simp only [h, hf, hp]

theorem Axis.observe_first {k : Fin 128} {f : Word} (h : a.source = .slot k) (hf : v.fresh[k] = some f)
    (hp : a.ref = none) : a.observe v = (0, { a with ref := some f, miss := 0, sourceLost := false }) := by
  unfold Axis.observe
  simp only [h, hf, hp]

theorem Axis.observe_none {k : Fin 128} (h : a.source = .slot k) (hf : v.fresh[k] = none) : a.observe v =
    if a.state ≠ .engaged then (0, a.missed)
    else if a.miss < a.limit then
      (a.delta, { a.missed with ref := a.ref.map (· + BitVec.ofInt 32 a.delta), extrap := true })
    else (0, a.loseSource) := by
  unfold Axis.observe
  simp only [h, hf]

/-! ### Steps 1 and 2 -/

/-- Steps 1 and 2 of an axis. -/
def Axis.reacted (a : Axis) (v : AxisView) : Axis := (a.tripReaction v).resync v

theorem Axis.epoch_off (h : a.state = .off) : (a.epoch v none).2 = a := by
  unfold Axis.epoch
  rw [if_pos h]

theorem Axis.epoch_moves (h : a.state ≠ .off) :
    (a.epoch v none).2 = (((a.reacted v).observe v).2.gearStep ((a.reacted v).observe v).1).slew v := by
  unfold Axis.epoch
  rw [if_neg h]
  rfl

theorem Axis.tripReaction_other (h : ¬ (v.acting = .a ∧ a.state = .engaged)) : a.tripReaction v = a := if_neg h

theorem Axis.resync_slot {k : Fin 128} (h : a.source = .slot k) : a.resync v = a := if_neg (by rw [h]; simp)

theorem Axis.resync_unmarked (h : v.resync = false) : a.resync v = a := if_neg (by simp [h])

/-- The reaction of an axis to class A. -/
theorem Axis.tripReaction_keeps (a : Axis) (v : AxisView) : a.tripReaction v = { a with state := (a.tripReaction v).state } := by
  unfold Axis.tripReaction
  split <;> rfl

/-- Steps 1 and 2 leave the motion and the source alone. -/
theorem Axis.reacted_keeps (a : Axis) (v : AxisView) : a.SameMotion (a.reacted v) ∧ (a.reacted v).source = a.source := by
  unfold Axis.reacted
  rw [a.tripReaction_keeps v]
  unfold Axis.resync
  split
  · split <;> exact ⟨⟨rfl, rfl, rfl, rfl, rfl, rfl, rfl, rfl⟩, rfl⟩
  · exact ⟨⟨rfl, rfl, rfl, rfl, rfl, rfl, rfl, rfl⟩, rfl⟩

/-- Steps 1 and 2 at an axis that step 1 leaves or makes other than ENGAGED. -/
theorem Axis.reacted_idle (h : (a.tripReaction v).state ≠ .engaged) :
    (a.reacted v).state = (a.tripReaction v).state ∧ (a.reacted v).resyncHold = a.resyncHold := by
  have hr : (a.tripReaction v).resyncHold = a.resyncHold := by rw [a.tripReaction_keeps v]
  unfold Axis.reacted Axis.resync
  split
  · exact ⟨rfl, hr⟩
  · exact ⟨rfl, hr⟩

/-- An axis that steps 1 and 2 leave other than ENGAGED stands (R67, R76 to R78). -/
theorem Axis.epoch_stands (ho : a.state ≠ .off) (h : (a.reacted v).state ≠ .engaged) :
    a.Stands (a.epoch v none).2 (a.reacted v).state (a.reacted v).resyncHold := by
  obtain ⟨k1, k2, k3⟩ := (a.reacted v).observe_keeps v
  have hs := k3 h
  rw [Axis.epoch_moves ho, ← hs, ← k2]
  exact ((a.reacted_keeps v).1.trans k1).stands (by rw [hs]; exact h) _ _

/-- An ENGAGED axis that step 4 leaves ENGAGED follows (R69 to R75). -/
theorem Axis.epoch_follows (he : a.state = .engaged) (hr : a.reacted v = a) (ho : (a.observe v).2.state = .engaged) :
    a.Follows (a.epoch v none).2 v.acting (a.observe v).1 := by
  obtain ⟨k1, k2, -⟩ := a.observe_keeps v
  rw [Axis.epoch_moves (by rw [he]; simp), hr]
  exact k1.follows ho k2 _ _

/-- The source's record behind an epoch is the one step 4 leaves. -/
theorem Axis.epoch_record (ho : a.state ≠ .off) : let b := (a.epoch v none).2
    let c := ((a.reacted v).observe v).2
    b.state = c.state ∧ b.ref = c.ref ∧ b.miss = c.miss ∧ b.delta = c.delta ∧ b.sourceLost = c.sourceLost ∧
      b.extrap = c.extrap := by
  rw [Axis.epoch_moves ho]
  exact Axis.gearSlew_keeps ..

/-- An epoch without a command, field by field (R68 to R78). -/
theorem Axis.epoch_advances (a : Axis) (v : AxisView) :
    a.Advances (a.epoch v none).2 v.shadow v.acting v.resync v.fresh where
  off h := Axis.epoch_off h
  standing ho he := by
    have ht : a.tripReaction v = a := Axis.tripReaction_other fun k => he k.2
    obtain ⟨h1, h2⟩ := Axis.reacted_idle (a := a) (v := v) (by rw [ht]; exact he)
    rw [ht] at h1
    rw [← h1, ← h2]
    exact Axis.epoch_stands ho (by rw [h1]; exact he)
  classA he hA := by
    have ht : (a.tripReaction v).state = .hold := by
      unfold Axis.tripReaction
      rw [if_pos ⟨hA, he⟩]
    obtain ⟨h1, h2⟩ := Axis.reacted_idle (a := a) (v := v) (by rw [ht]; simp)
    rw [ht] at h1
    rw [← h1, ← h2]
    exact Axis.epoch_stands (by rw [he]; simp) (by rw [h1]; simp)
  resync he hA hs hm := by
    have hr : a.reacted v = { a with ref := some v.shadow, state := .hold, resyncHold := true } := by
      unfold Axis.reacted
      rw [Axis.tripReaction_other fun k => hA k.1]
      unfold Axis.resync
      rw [if_pos ⟨hm, hs⟩, if_pos he]
    have k := Axis.epoch_stands (a := a) (v := v) (by rw [he]; simp) (by rw [hr]; simp)
    rwa [hr] at k
  shaft he hA hs hm p hp := by
    have hr : a.reacted v = a := by
      unfold Axis.reacted
      rw [Axis.tripReaction_other fun k => hA k.1, Axis.resync_unmarked hm]
    have k := Axis.epoch_follows he hr (by rw [Axis.observe_shaft hs]; exact he)
    rwa [Axis.observe_shaft hs, hp] at k
  shaftRef ho hs := by
    rw [(Axis.epoch_record ho).2.1, Axis.observe_shaft ((a.reacted_keeps v).2.trans hs)]
  slot he hA k f p hs hf hp := by
    have hr : a.reacted v = a := by
      unfold Axis.reacted
      rw [Axis.tripReaction_other fun k => hA k.1, Axis.resync_slot hs]
    have h := Axis.epoch_follows he hr (by rw [Axis.observe_fresh hs hf hp]; exact he)
    rwa [Axis.observe_fresh hs hf hp] at h
  first he hA k f hs hf hp := by
    have hr : a.reacted v = a := by
      unfold Axis.reacted
      rw [Axis.tripReaction_other fun k => hA k.1, Axis.resync_slot hs]
    have h := Axis.epoch_follows he hr (by rw [Axis.observe_first hs hf hp]; exact he)
    obtain ⟨-, -, -, hd, -, -⟩ := Axis.epoch_record (a := a) (v := v) (by rw [he]; simp)
    rw [hr, Axis.observe_first hs hf hp] at hd
    rw [Axis.observe_first hs hf hp] at h
    exact ⟨h, hd⟩
  extrapolated he hA k hs hf hl := by
    have hr : a.reacted v = a := by
      unfold Axis.reacted
      rw [Axis.tripReaction_other fun k => hA k.1, Axis.resync_slot hs]
    have hobs : a.observe v = (a.delta, { a.missed with ref := a.ref.map (· + BitVec.ofInt 32 a.delta), extrap := true }) := by
      rw [Axis.observe_none hs hf, if_neg (not_not.2 he), if_pos hl]
    have h := Axis.epoch_follows he hr (by rw [hobs]; exact he)
    obtain ⟨-, href, hmiss, -, -, hex⟩ := Axis.epoch_record (a := a) (v := v) (by rw [he]; simp)
    rw [hr, hobs] at href hmiss hex
    rw [hobs] at h
    exact ⟨h, href, hmiss, hex⟩
  lost he hA k hs hf hl := by
    have hr : a.reacted v = a := by
      unfold Axis.reacted
      rw [Axis.tripReaction_other fun k => hA k.1, Axis.resync_slot hs]
    have hobs : a.observe v = (0, a.loseSource) := by
      rw [Axis.observe_none hs hf, if_neg (not_not.2 he), if_neg (by omega)]
    obtain ⟨-, -, -, -, hlost, hex⟩ := Axis.epoch_record (a := a) (v := v) (by rw [he]; simp)
    rw [hr, hobs] at hlost hex
    refine ⟨?_, hlost, hex⟩
    rw [Axis.epoch_moves (by rw [he]; simp), hr, hobs]
    exact Axis.SameMotion.stands (a := a) (b := a.loseSource) ⟨rfl, rfl, rfl, rfl, rfl, rfl, rfl, rfl⟩ (by simp [Axis.loseSource]) 0 v
  received ho k f hs hf := by
    have hr : a.reacted v = a.tripReaction v := Axis.resync_slot (by rw [a.tripReaction_keeps v]; exact hs)
    have hsrc : (a.tripReaction v).source = .slot k := by rw [a.tripReaction_keeps v]; exact hs
    have hrefs : (a.tripReaction v).ref = a.ref := by rw [a.tripReaction_keeps v]
    obtain ⟨-, href, hmiss, hdelta, hlost, hex⟩ := Axis.epoch_record (a := a) (v := v) ho
    rw [href, hmiss, hdelta, hlost, hex, hr]
    cases hp : a.ref with
    | none =>
      rw [Axis.observe_first hsrc hf (hrefs.trans hp)]
      exact ⟨rfl, rfl, rfl, fun p h => by cases h⟩
    | some p =>
      rw [Axis.observe_fresh hsrc hf (hrefs.trans hp)]
      exact ⟨rfl, rfl, rfl, fun p h => by cases h; exact ⟨rfl, rfl⟩⟩
  missed h k hs hf := by
    have ho : a.state ≠ .off ∧ a.state ≠ .engaged := by rcases h with h | h <;> rw [h] <;> simp
    have hr : a.reacted v = a := by
      unfold Axis.reacted
      rw [Axis.tripReaction_other fun k => ho.2 k.2, Axis.resync_slot hs]
    have hobs : a.observe v = (0, a.missed) := by rw [Axis.observe_none hs hf, if_pos ho.2]
    obtain ⟨-, href, hmiss, hdelta, -, -⟩ := Axis.epoch_record (a := a) (v := v) ho.1
    rw [hr, hobs] at href hmiss hdelta
    exact ⟨href, hdelta, hmiss⟩

end

end Sys2Proof.Machine

/-! Proofs, section 21. What an epoch makes of a camera channel (R138 to R145). -/

namespace Sys2Proof.Machine

set_option Elab.async false

section

/-! ### The entry ahead of the reference (R141) -/

/-- The search of `seekEntry` over part of the list. -/
theorem seekEntry_fold (list : List Word) (s : Word) (l : List Nat) (b : Nat) :
    let r := l.foldl (fun best p => if ahead list p s < ahead list best s then p else best) b
    ahead list r s ≤ ahead list b s ∧ ∀ p ∈ l, ahead list r s ≤ ahead list p s := by
  induction l generalizing b with
  | nil => exact ⟨Nat.le_refl _, fun p hp => by cases hp⟩
  | cons x l ih =>
    obtain ⟨h1, h2⟩ := ih (if ahead list x s < ahead list b s then x else b)
    have hb : ahead list (if ahead list x s < ahead list b s then x else b) s ≤ ahead list b s ∧
        ahead list (if ahead list x s < ahead list b s then x else b) s ≤ ahead list x s := by
      split <;> constructor <;> omega
    refine ⟨Nat.le_trans h1 hb.1, fun p hp => ?_⟩
    rcases List.mem_cons.1 hp with rfl | hp
    · exact Nat.le_trans h1 hb.2
    · exact h2 p hp

theorem seekEntry_least (list : List Word) (s : Word) (j : Nat) (hj : j < list.length) :
    ahead list (seekEntry list s) s ≤ ahead list j s :=
  (seekEntry_fold list s (List.range list.length) 0).2 j (List.mem_range.2 hj)

/-! ### The crossing test (R142 to R144) -/

/-- Two channels alike but for pointer, laps and skips. -/
structure Channel.SameShot (c d : Channel) : Prop where
  sched : d.sched = c.sched
  count : d.count = c.count
  pulse : d.pulse = c.pulse
  seek : d.seek = c.seek
  latestS : d.latestS = c.latestS
  latestQ : d.latestQ = c.latestQ
  exposure : d.exposure = c.exposure

theorem Channel.SameShot.trans {c d e : Channel} (h : c.SameShot d) (k : d.SameShot e) : c.SameShot e :=
  ⟨k.sched.trans h.sched, k.count.trans h.count, k.pulse.trans h.pulse, k.seek.trans h.seek, k.latestS.trans h.latestS,
    k.latestQ.trans h.latestQ, k.exposure.trans h.exposure⟩

theorem Channel.advance_same (c : Channel) (cam : CamCfg) : c.SameShot (c.advance cam) := by
  unfold Channel.advance
  split <;> exact ⟨rfl, rfl, rfl, rfl, rfl, rfl, rfl⟩

theorem Channel.passEntries_same (cam : CamCfg) (fuel : Nat) (c : Channel) : c.SameShot (Channel.passEntries cam fuel c).1 := by
  induction fuel generalizing c with
  | zero => exact ⟨rfl, rfl, rfl, rfl, rfl, rfl, rfl⟩
  | succ fuel ih =>
    unfold Channel.passEntries
    split
    · obtain ⟨h1, h2, h3, h4, h5, h6, h7⟩ := (c.advance_same cam).trans (ih (c.advance cam))
      exact ⟨h1, h2, h3, h4, h5, h6, h7⟩
    · exact ⟨rfl, rfl, rfl, rfl, rfl, rfl, rfl⟩

/-- No entry behind the crossed one is passed. -/
theorem Channel.passEntries_stops {cam : CamCfg} {fuel : Nat} {c : Channel}
    (h : fuel = 0 ∨ c.latestQ ≤ (ahead cam.list c.pointer c.latestS : Int)) : Channel.passEntries cam fuel c = (c, false) := by
  cases fuel with
  | zero => rfl
  | succ fuel => exact if_neg (by omega)

/-- The first entry passed in an armed lap is skipped (R143). -/
theorem Channel.passEntries_skips {cam : CamCfg} {fuel : Nat} {c : Channel} (hf : fuel ≠ 0)
    (h : (ahead cam.list c.pointer c.latestS : Int) < c.latestQ) (ha : c.lapPhase = 0) :
    (Channel.passEntries cam fuel c).1.skipped = true ∧ (Channel.passEntries cam fuel c).2 = true := by
  have harmed : c.armed = true := decide_eq_true ha
  cases fuel with
  | zero => exact absurd rfl hf
  | succ fuel =>
    unfold Channel.passEntries
    rw [if_pos h, harmed]
    exact ⟨Bool.or_true _, rfl⟩

/-- The pointer behind a crossing at it (R142, R144). -/
theorem Channel.advance_eq (c : Channel) (cam : CamCfg) :
    (c.advance cam).pointer = (if cam.list.length ≤ c.pointer + 1 then 0 else c.pointer + 1) ∧
    (c.advance cam).lapPhase = (if cam.list.length ≤ c.pointer + 1 then (c.lapPhase + 1) % cam.pacing else c.lapPhase) ∧
    (c.advance cam).lapCount = (if cam.list.length ≤ c.pointer + 1 then c.lapCount + 1 else c.lapCount) ∧
    (c.advance cam).skipped = c.skipped := by
  unfold Channel.advance
  split <;> exact ⟨rfl, rfl, rfl, rfl⟩

/-- The channel with the firing of a crossing at its pointer scheduled, in an armed lap (R142, R144). -/
def Channel.crossed (c : Channel) (phase : Nat) : Channel := if c.armed then { c with sched := some phase } else c

theorem Channel.crossed_eq (c : Channel) (phase : Nat) :
    c.crossed phase = { c with sched := if c.lapPhase = 0 then some phase else c.sched } := by
  unfold Channel.crossed Channel.armed
  by_cases h : c.lapPhase = 0 <;> simp [h]

theorem Channel.test_crosses {cam : CamCfg} {c : Channel} (h : (ahead cam.list c.pointer c.latestS : Int) < c.latestQ) :
    c.test cam = Channel.passEntries cam (cam.list.length - 1)
      ((c.crossed (ahead cam.list c.pointer c.latestS * 256 / c.latestQ.toNat)).advance cam) := if_pos h

theorem Channel.test_passes {cam : CamCfg} {c : Channel} (h : c.latestQ ≤ (ahead cam.list c.pointer c.latestS : Int)) :
    c.test cam = (c, false) := if_neg (by omega)

/-- The test at an entry, of a channel whose values are kept and which holds no firing. -/
theorem Channel.testsAt {c : Channel} (cam : CamCfg) (p : Nat) {angle : Word} {q : Int} {flag : Bool} (hs : c.sched = none)
    (hS : c.latestS = angle) (hQ : c.latestQ = q)
    (hflag : (Channel.test cam { c with seek := false, pointer := p }).2 = true → flag = true) :
    c.TestsAt (Channel.test cam { c with seek := false, pointer := p }).1 cam p angle q flag := by
  subst hS hQ
  unfold Channel.TestsAt
  refine ⟨fun h => ?_, fun h => ?_⟩
  · rw [Channel.test_passes (c := { c with seek := false, pointer := p }) h]
  · rw [Channel.test_crosses (c := { c with seek := false, pointer := p }) h, Channel.crossed_eq] at hflag ⊢
    have hsame := Channel.advance_same
      { c with seek := false, pointer := p,
               sched := if c.lapPhase = 0 then some (ahead cam.list p c.latestS * 256 / c.latestQ.toNat) else c.sched } cam
    obtain ⟨hp, hlap, hcount, hskip⟩ := Channel.advance_eq
      { c with seek := false, pointer := p,
               sched := if c.lapPhase = 0 then some (ahead cam.list p c.latestS * 256 / c.latestQ.toNat) else c.sched } cam
    generalize Channel.advance _ cam = y at hsame hp hlap hcount hskip hflag ⊢
    obtain ⟨h1, h2, h3, h4, h5, h6, h7⟩ := hsame.trans (Channel.passEntries_same cam (cam.list.length - 1) y)
    refine ⟨?_, h2, h3, h4, h5, h6, h7, fun hstop => ?_, fun hlen hnext hlap0 => ?_⟩
    · rw [h1, hs]
      rfl
    · have e : Channel.passEntries cam (cam.list.length - 1) y = (y, false) := by
        refine Channel.passEntries_stops (hstop.imp (fun k => by omega) fun k => ?_)
        rw [hp, hsame.latestS, hsame.latestQ]
        exact k
      rw [e]
      exact ⟨hp, hlap, hcount, hskip⟩
    · obtain ⟨k1, k2⟩ := Channel.passEntries_skips (cam := cam) (fuel := cam.list.length - 1) (c := y) (by omega)
        (by rw [hp, hsame.latestS, hsame.latestQ]; exact hnext) (hlap.trans hlap0)
      exact ⟨k1, hflag k2⟩

end

end Sys2Proof.Machine

/-! Proofs, section 22. The Camera Unit at an epoch (R138 to R145). -/

namespace Sys2Proof.Machine

set_option Elab.async false

section
variable {s : State} {mark : Bool} {i : Fin 4} {cam : CamCfg}

/-! ### One channel -/

/-- A channel at an epoch, before its test: a firing still scheduled is made (R139, R145). -/
theorem Channel.fired_eq (c : Channel) (angle : Word) (q : Int) (now interval : Nat) (b : Bool) :
    { (if c.sched.isSome then c.fire now interval else c) with latestS := angle, latestQ := q, seek := b } =
      { c.fired angle q now interval with seek := b } := by
  rcases c with ⟨_, _, _, _, sched, _, _, _, _, _, _, _, _⟩
  cases sched <;> rfl

theorem Channel.fired_seek (c : Channel) (now interval : Nat) :
    (if c.sched.isSome then c.fire now interval else c).seek = c.seek := by
  split <;> rfl

/-- Channel `i` of `s` at an epoch, before its test. -/
def State.firedAt (s : State) (i : Fin 4) (cam : CamCfg) : Channel :=
  (s.cmu.ch[i]).fired (s.reference cam.ref).1 (s.reference cam.ref).2 s.now s.flu.interval

theorem State.channelEpoch_none (h : s.cfg.cams[i] = none) : s.channelEpoch mark i = s := by
  unfold State.channelEpoch
  rw [h]

/-- Channel `i` at an epoch, before its test, as the model forms it. -/
def State.keptAt (s : State) (mark : Bool) (i : Fin 4) (cam : CamCfg) : Channel :=
  let c1 := if (s.cmu.ch[i]).sched.isSome then (s.cmu.ch[i]).fire s.now s.flu.interval else s.cmu.ch[i]
  { c1 with latestS := (s.reference cam.ref).1, latestQ := (s.reference cam.ref).2,
            seek := c1.seek || (mark && decide (cam.ref = CamReference.shaft)) || !s.tests cam (s.reference cam.ref).2 }

/-- Channel `i` will seek, by what it held, by the resync mark, or for want of a test (R140). -/
def State.seeksAt (s : State) (mark : Bool) (i : Fin 4) (cam : CamCfg) : Bool :=
  s.cmu.ch[i].seek || (mark && decide (cam.ref = CamReference.shaft)) || !s.tests cam (s.reference cam.ref).2

theorem State.keptAt_eq (s : State) (mark : Bool) (i : Fin 4) (cam : CamCfg) : s.keptAt mark i cam =
    { s.firedAt i cam with seek := s.seeksAt mark i cam } := by
  unfold State.keptAt State.seeksAt
  dsimp only
  rw [Channel.fired_seek]
  exact Channel.fired_eq ..

/-- The channel that a test starts from: at the entry ahead where it seeks (R141). -/
def Channel.aimed (c : Channel) (cam : CamCfg) (angle : Word) : Channel :=
  if c.seek then { c with pointer := seekEntry cam.list angle, seek := false } else c

theorem State.channelEpoch_some (h : s.cfg.cams[i] = some cam) : s.channelEpoch mark i =
    if s.tests cam (s.reference cam.ref).2 = true then
      let r := ((s.keptAt mark i cam).aimed cam (s.reference cam.ref).1).test cam
      (s.onChannel i fun _ => r.1).notifyIf r.2 13
    else s.onChannel i fun _ => s.keptAt mark i cam := by
  unfold State.channelEpoch
  rw [h]
  rfl

/-- A channel that does not test only keeps its reference's values, and will seek (R140). -/
theorem State.channelEpoch_idle (h : s.cfg.cams[i] = some cam) (ht : s.tests cam (s.reference cam.ref).2 = false) :
    (s.channelEpoch mark i).cmu.ch[i] = { s.firedAt i cam with seek := true } := by
  have hseek : s.seeksAt mark i cam = true := by simp [State.seeksAt, ht]
  rw [State.channelEpoch_some h, ht, if_neg (by decide), State.keptAt_eq, hseek]
  exact modAt_self _ _ _

/-- A channel that tests: at the entry ahead where it seeks, else at its pointer (R140, R141). -/
theorem State.channelEpoch_tests (h : s.cfg.cams[i] = some cam) (ht : s.tests cam (s.reference cam.ref).2 = true) :
    let seeks := s.cmu.ch[i].seek = true ∨ mark = true ∧ cam.ref = .shaft
    ∃ p, (¬ seeks → p = (s.firedAt i cam).pointer) ∧ (seeks → p = seekEntry cam.list (s.reference cam.ref).1) ∧
      (s.channelEpoch mark i).cmu.ch[i] = (Channel.test cam { s.firedAt i cam with seek := false, pointer := p }).1 ∧
      ((Channel.test cam { s.firedAt i cam with seek := false, pointer := p }).2 = true →
        (s.channelEpoch mark i).cnu.flags.getLsbD 13 = true) := by
  intro seeks
  have key : ∀ c3 : Channel, ((s.onChannel i fun _ => (c3.test cam).1).notifyIf (c3.test cam).2 13).cmu.ch[i] = (c3.test cam).1 ∧
      ((c3.test cam).2 = true →
        ((s.onChannel i fun _ => (c3.test cam).1).notifyIf (c3.test cam).2 13).cnu.flags.getLsbD 13 = true) := by
    intro c3
    refine ⟨?_, fun hf => ?_⟩
    · rw [State.notifyIf_cmu]
      exact modAt_self _ _ _
    · rw [hf]
      exact State.notify_self _ 13
  have hbool : s.seeksAt mark i cam = decide seeks := by
    simp only [State.seeksAt, ht, Bool.not_true, Bool.or_false, seeks, Bool.decide_or, Bool.decide_and, Bool.decide_eq_true]
  rw [State.channelEpoch_some h, State.keptAt_eq, ht, if_pos rfl, hbool]
  by_cases hs : seeks
  · rw [decide_eq_true hs]
    exact ⟨_, fun k => absurd hs k, fun _ => rfl, key _⟩
  · rw [decide_eq_false hs]
    exact ⟨_, fun _ => rfl, fun k => absurd k hs, key _⟩

/-! ### The four channels (R139) -/

/-- The work of one channel leaves the others alone. -/
theorem State.channelEpoch_other {j : Fin 4} (s : State) (mark : Bool) (h : j ≠ i) :
    (s.channelEpoch mark j).cmu.ch[i] = s.cmu.ch[i] := by
  unfold State.channelEpoch
  split
  · rfl
  · dsimp only
    split
    · exact (congrArg (fun u : Cmu => u.ch[i]) (State.notifyIf_cmu _ _ _)).trans (modAt_other _ _ h.symm)
    · exact modAt_other _ _ h.symm

/-- Each channel works as if it were alone. -/
theorem State.cmuEpoch_channel (s : State) (mark : Bool) (i : Fin 4) : ∃ v, Frame [.cmu, .flags] s v ∧
    v.cmu.ch[i] = s.cmu.ch[i] ∧ (s.cmuEpoch mark).cmu.ch[i] = (v.channelEpoch mark i).cmu.ch[i] ∧
      FlagsStay (v.channelEpoch mark i) (s.cmuEpoch mark) := by
  obtain ⟨l1, l2, hl⟩ := List.append_of_mem (List.mem_finRange i)
  have hn := List.nodup_finRange 4
  rw [hl, List.nodup_append] at hn
  have hn1 : ∀ j ∈ l1, j ≠ i := fun j hj => hn.2.2 j hj i (List.mem_cons_self ..)
  have hn2 : ∀ j ∈ l2, j ≠ i := fun j hj e => (List.nodup_cons.1 hn.2.1).1 (e ▸ hj)
  refine ⟨l1.foldl (fun s i => s.channelEpoch mark i) s, ?_, ?_, ?_, ?_⟩
  · exact Frame.foldl _ _ (Frame.refl _ _) fun u x _ => u.channelEpoch_fr mark x
  · exact foldl_keeps _ (fun u : State => u.cmu.ch[i]) _ (fun u j hj => u.channelEpoch_other mark (hn1 j hj)) s
  · unfold State.cmuEpoch
    rw [hl, List.foldl_append, List.foldl_cons]
    exact foldl_keeps _ (fun u : State => u.cmu.ch[i]) _ (fun u j hj => u.channelEpoch_other mark (hn2 j hj)) _
  · unfold State.cmuEpoch
    rw [hl, List.foldl_append, List.foldl_cons]
    exact (FlagsStay.refl _).foldl _ (fun u j => (FlagsStay.refl u).channelEpoch mark j) _

/-- The Camera Unit's work at `s`, seen from a state `t` that keeps what it made (R138 to R145). -/
theorem State.cmuEpoch_advances {s0 t : State} (hc : t.cmu = (s.cmuEpoch mark).cmu) (hf : FlagsStay (s.cmuEpoch mark) t)
    (hcfg : s.cfg = s0.cfg) (hcmu : s.cmu = s0.cmu) (hact : s.tru.acting = s0.tru.acting) (hj : s.isJoined = s0.isJoined)
    (hnow : t.now = s.now) (hint : t.flu.interval = s.flu.interval) (href : ∀ r, t.reference r = s.reference r) :
    s0.ChannelsAdvance t mark := by
  refine ⟨fun i hi => ?_, fun i cam hi => ?_⟩
  · obtain ⟨v, fr, hv, he, -⟩ := s.cmuEpoch_channel mark i
    rw [hc, he, State.channelEpoch_none (by rw [fr.keeps_cfg, hcfg]; exact hi), hv, hcmu]
  · obtain ⟨v, fr, hv, he, hfl⟩ := s.cmuEpoch_channel mark i
    have hvcam : v.cfg.cams[i] = some cam := by rw [fr.keeps_cfg, hcfg]; exact hi
    have hvref : ∀ r, v.reference r = t.reference r := by
      intro r
      rw [href]
      unfold State.reference
      rw [fr.keeps_lsu, fr.keeps_axu]
    have hfired : v.firedAt i cam =
        (s0.cmu.ch[i]).fired (t.reference cam.ref).1 (t.reference cam.ref).2 t.now t.flu.interval := by
      unfold State.firedAt
      rw [hv, hcmu, hvref, fr.keeps_now, fr.keeps_flu, hnow, hint]
    have htests : v.tests cam (v.reference cam.ref).2 = decide (0 < (t.reference cam.ref).2 ∧
        (cam.minSpeed : Int) ≤ (t.reference cam.ref).2 ∧ s0.tru.acting.stops = false ∧ s0.isJoined = true) := by
      unfold State.tests
      rw [hvref, fr.keeps_tru, hact, fr.keeps_isJoined (by rw [fr.keeps_flu]), hj]
      simp only [Bool.decide_and, Bool.and_assoc, Bool.decide_eq_true]
      cases s0.tru.acting.stops <;> rfl
    intro r c tests seeks
    refine ⟨fun hn => ?_, fun ht => ?_⟩
    · rw [hc, he, State.channelEpoch_idle hvcam (htests.trans (decide_eq_false hn)), hfired]
    · obtain ⟨p, hp1, hp2, hch, hflag⟩ := State.channelEpoch_tests (mark := mark) hvcam (htests.trans (decide_eq_true ht))
      rw [hv, hcmu] at hp1 hp2
      rw [hfired] at hp1 hch hflag
      refine ⟨p, hp1, fun hs j hjl => ?_, ?_⟩
      · rw [hp2 hs, hvref]
        exact seekEntry_least cam.list _ j hjl
      · rw [hc, he, hch]
        exact Channel.testsAt cam p rfl rfl rfl fun k => hf 13 (hfl 13 (hflag k))

end

end Sys2Proof.Machine

/-! Proofs, section 23. An epoch at which nothing trips (R21 to R23, R58 to R78, R138 to R145). -/

namespace Sys2Proof.Machine

set_option Elab.async false

section
variable {s t : State}

/-! ### Conditions that trip nothing -/

/-- A source of class NONE is never latched: its condition is kept, and nothing else follows (R88, R91). -/
theorem State.handCondition_clear {n : Fin 15} (h : s.cfg.classes[n] = .clear) (b : Bool) :
    s.handCondition n b = s.onTru fun t => { t with cond := setAt t.cond n b } := by
  unfold State.handCondition State.handStamped
  dsimp only
  rw [h, if_neg (by simp)]

/-- Ageing that trips nothing leaves the acting class and the camera channels alone (R121, R122). -/
theorem State.sluEpoch_silent (h : s.StaleTripsNothing) :
    s.sluEpoch.tru.acting = s.tru.acting ∧ s.sluEpoch.cmu = s.cmu := by
  have hfr : Frame [.slu, .flags, .lde] s ((List.finRange 8).foldl State.ageWindow s) :=
    Frame.foldl _ _ (Frame.refl _ _) fun u i _ => u.ageWindow_fr i
  unfold State.sluEpoch State.handStale
  generalize (List.finRange 8).foldl State.ageWindow s = u at hfr
  have hu : u.tru.acting = s.tru.acting ∧ u.cmu = s.cmu := ⟨congrArg Tru.acting hfr.keeps_tru, hfr.keeps_cmu⟩
  rw [State.handCondition_clear (by rw [hfr.keeps_cfg]; exact h)]
  split
  · exact hu
  · exact hu

/-- A lost source that trips nothing leaves the acting class and the camera channels alone (R72). -/
theorem State.handSourceLost_silent (h : s.cfg.classes[(11 : Fin 15)] = .clear) :
    s.handSourceLost.tru.acting = s.tru.acting ∧ s.handSourceLost.cmu = s.cmu := by
  unfold State.handSourceLost
  rw [State.handCondition_clear h]
  exact ⟨rfl, rfl⟩

/-! ### The axes (R68) -/

theorem State.axuEpoch_axes (s : State) (y mark : Bool) (n : Fin 8) : (s.axuEpoch y mark).axu.axes[n] =
    ((s.axu.axes[n]).epoch (s.axisView mark) (s.axisCommand n)).2 := by
  have k : (s.axisSteps mark).axu.axes[n] = ((s.axu.axes[n]).epoch (s.axisView mark) (s.axisCommand n)).2 := by
    simp [State.axisSteps]
  have hs : (s.axuEpoch y mark).axu = (s.axisSteps mark).axu := by
    unfold State.axuEpoch
    dsimp only
    split
    · split
      · exact (State.requestUrgent_fr _ _ _).keeps_axu
      · exact ((State.requestUrgent_fr _ _ _).mono (qs := [.lde, .flags]) |>.comp (State.requestNormal_fr _ _ _)).keeps_axu
    · rfl
  rw [hs, k]

/-- The line shaft takes its own command only. -/
theorem State.lsuEpoch_ptu (s : State) (hdr : Option HeaderShaft) (mark : Bool) :
    (s.lsuEpoch hdr mark).ptu = { s.ptu with shaftPending := false } := by
  have h1 : ∀ x : State, x.ptu = { s.ptu with shaftPending := false } → ∀ r : Option (Window × Word),
      (match r with
        | some (w, word) => x.requestResult (w.word + 3) word
        | none => x).ptu = { s.ptu with shaftPending := false } := by
    intro x hx r
    cases r with
    | none => exact hx
    | some r => rw [← hx]; exact (State.requestResult_fr x _ _).keeps_ptu
  unfold State.lsuEpoch
  refine h1 _ ?_ _
  cases s.cfg.only .shaft with
  | none => rfl
  | some w => rw [(State.requestUrgent_fr _ _ _).keeps_ptu]; rfl

theorem State.axisCommand_congr {n : Fin 8} (hp : t.ptu.axisPending = s.ptu.axisPending) (hs : t.ptu.shadow = s.ptu.shadow)
    (hc : t.cfg = s.cfg) : t.axisCommand n = s.axisCommand n := by
  unfold State.axisCommand State.shadowAt
  rw [hp, hs, hc]

/-! ### The whole epoch -/

/-- The state an epoch reaches with the axes' work, the slots aged first or not. -/
def State.axesDone (s : State) (a : Bool) (hdr : Option HeaderShaft) (mark : Bool) : State :=
  (((if a then s.sluEpoch else s).lsuEpoch hdr mark).truEpoch).axuEpoch hdr.isNone mark

theorem State.axesDone_fr (s : State) (a : Bool) (hdr : Option HeaderShaft) (mark : Bool) :
    Frame [.lsu, .axu, .tru, .slu, .cmu, .flags, .ptu, .lde] s (s.axesDone a hdr mark) :=
  (((Frame.ite (s.sluEpoch_fr.mono) (Frame.refl _ _)).comp (State.lsuEpoch_fr _ _ _)).comp (State.truEpoch_fr _)).comp
    (State.axuEpoch_fr _ _ _)

theorem State.aged_silent (h : s.StaleTripsNothing) (a : Bool) :
    (if a then s.sluEpoch else s).tru.acting = s.tru.acting ∧ (if a then s.sluEpoch else s).cmu = s.cmu := by
  split
  · exact State.sluEpoch_silent h
  · exact ⟨rfl, rfl⟩

/-- The blocks' work up to the axes: shadow and axes as they work alone, the acting class and the channels as they were. -/
theorem State.axesDone_works (h : s.StaleTripsNothing) (a : Bool) (hdr : Option HeaderShaft) (mark : Bool) :
    let t := s.axesDone a hdr mark
    t.lsu.shadow = s.epochShadow hdr mark ∧ t.tru.acting = s.tru.acting ∧ t.cmu = s.cmu ∧
      ∀ n : Fin 8, t.axu.axes[n] = ((s.axu.axes[n]).epoch
        { shadow := t.lsu.shadow.angle, acting := s.tru.acting, resync := mark, fresh := s.axu.fresh,
          subscribed := Vector.ofFn s.cfg.subscribes } (s.axisCommand n)).2 := by
  intro t
  obtain ⟨hact, hcmu⟩ := State.aged_silent h a
  have fr : Frame [.tru, .slu, .cmu, .flags, .lde] s (if a then s.sluEpoch else s) := Frame.ite s.sluEpoch_fr (Frame.refl _ _)
  generalize hx : (if a then s.sluEpoch else s) = x at hact hcmu fr
  have ht : t = ((x.lsuEpoch hdr mark).truEpoch).axuEpoch hdr.isNone mark := by
    rw [← hx]
    rfl
  have hshadow : t.lsu.shadow = s.epochShadow hdr mark := by
    rw [ht, (State.axuEpoch_fr _ _ _).keeps_lsu, (State.truEpoch_fr _).keeps_lsu, State.lsuEpoch_shadow]
    unfold State.epochShadow
    rw [fr.keeps_cfg, fr.keeps_lsu, hact]
  have hturn : ((x.lsuEpoch hdr mark).truEpoch).tru.acting = s.tru.acting := by
    rw [(State.truEpoch_tru _).2, (State.lsuEpoch_fr _ _ _).keeps_tru, hact]
  refine ⟨hshadow, ?_, ?_, fun n => ?_⟩
  · rw [ht, (State.axuEpoch_fr _ _ _).keeps_tru, hturn]
  · rw [ht, (State.axuEpoch_fr _ _ _).keeps_cmu, (State.truEpoch_fr _).keeps_cmu, (State.lsuEpoch_fr _ _ _).keeps_cmu, hcmu]
  · have hlt := (State.lsuEpoch_fr x hdr mark).mono (qs := [.lsu, .tru, .flags, .ptu, .lde]) |>.comp (State.truEpoch_fr _)
    have hptu : ((x.lsuEpoch hdr mark).truEpoch).ptu = { s.ptu with shaftPending := false } := by
      rw [(State.truEpoch_fr _).keeps_ptu, State.lsuEpoch_ptu, fr.keeps_ptu]
    have hview : ((x.lsuEpoch hdr mark).truEpoch).axisView mark =
        { shadow := t.lsu.shadow.angle, acting := s.tru.acting, resync := mark, fresh := s.axu.fresh,
          subscribed := Vector.ofFn s.cfg.subscribes } := by
      unfold State.axisView
      rw [hturn, hlt.keeps_axu, hlt.keeps_cfg, fr.keeps_axu, fr.keeps_cfg, ht, (State.axuEpoch_fr _ _ _).keeps_lsu]
    rw [← hview, ht, State.axuEpoch_axes, hlt.keeps_axu, fr.keeps_axu,
      State.axisCommand_congr (s := s) (by rw [hptu]) (by rw [hptu]) (by rw [hlt.keeps_cfg, fr.keeps_cfg])]

/-- The blocks' work from the axes on leaves line shaft and axes as they are. -/
theorem State.epochWork_tail (s : State) (hdr : Option HeaderShaft) (mark : Bool) : ∃ a x,
    s.epochWork hdr mark false = (({ s with free := s.free + 4 }.epochBody a x hdr mark).iguEpoch).scuEpoch :=
  ⟨_, _, State.epochIn_keepsRing ..⟩

theorem State.epochBody_tail (s : State) (a x : Bool) (hdr : Option HeaderShaft) (mark : Bool) :
    Frame [.tru, .slu, .cmu, .flags, .lde] (s.axesDone a hdr mark) (s.epochBody a x hdr mark) := by
  have h4 : Frame [.tru, .slu, .cmu, .flags, .lde] (s.axesDone a hdr mark)
      (if x then (s.axesDone a hdr mark).handSourceLost.cmuEpoch mark else ((s.axesDone a hdr mark).cmuEpoch mark).handSourceLost) :=
    Frame.ite (((State.handSourceLost_fr _).mono).comp (State.cmuEpoch_fr _ _))
      (((State.cmuEpoch_fr _ _).mono).comp (State.handSourceLost_fr _))
  exact Frame.ite h4 (h4.comp (State.sluEpoch_fr _))

/-- The blocks' work from the Camera Unit on, from the state the axes leave. -/
def State.channelsDone (d : State) (a x mark : Bool) : State :=
  if a then (if x then d.handSourceLost.cmuEpoch mark else (d.cmuEpoch mark).handSourceLost)
  else (if x then d.handSourceLost.cmuEpoch mark else (d.cmuEpoch mark).handSourceLost).sluEpoch

/-- Where neither lost sources nor stale slots trip, the channels end as the Camera Unit's own work makes them. -/
theorem State.epochBody_cmu (h : s.StaleTripsNothing) (h11 : s.cfg.classes[(11 : Fin 15)] = .clear) (a x : Bool)
    (hdr : Option HeaderShaft) (mark : Bool) : ∃ y, Frame [.tru, .cmu, .flags] (s.axesDone a hdr mark) y ∧
      y.tru.acting = (s.axesDone a hdr mark).tru.acting ∧ y.cmu = (s.axesDone a hdr mark).cmu ∧
      (s.epochBody a x hdr mark).cmu = (y.cmuEpoch mark).cmu ∧
      FlagsStay (y.cmuEpoch mark) (s.epochBody a x hdr mark) := by
  have hcfg : (s.axesDone a hdr mark).cfg = s.cfg := (State.axesDone_fr s a hdr mark).keeps_cfg
  have hbody : s.epochBody a x hdr mark = (s.axesDone a hdr mark).channelsDone a x mark := rfl
  rw [hbody]
  generalize s.axesDone a hdr mark = d at hcfg
  have last : ∀ (u v : State), u.cfg = s.cfg → u.cmu = v.cmu → FlagsStay v u →
      (if a then u else u.sluEpoch).cmu = v.cmu ∧ FlagsStay v (if a then u else u.sluEpoch) := by
    intro u v hu hv hf
    split
    · exact ⟨hv, hf⟩
    · exact ⟨(State.sluEpoch_silent (by unfold State.StaleTripsNothing; rw [hu]; exact h)).2.trans hv, hf.sluEpoch⟩
  unfold State.channelsDone
  cases x with
  | true =>
    obtain ⟨h1, h2⟩ := State.handSourceLost_silent (s := d) (by rw [hcfg]; exact h11)
    have hc : (d.handSourceLost.cmuEpoch mark).cfg = s.cfg :=
      ((d.handSourceLost_fr.mono (qs := [.tru, .cmu, .flags])).comp (State.cmuEpoch_fr _ _)).keeps_cfg.trans hcfg
    rw [if_pos (rfl : true = true)]
    obtain ⟨k1, k2⟩ := last (d.handSourceLost.cmuEpoch mark) (d.handSourceLost.cmuEpoch mark) hc rfl (FlagsStay.refl _)
    exact ⟨d.handSourceLost, d.handSourceLost_fr, h1, h2, k1, k2⟩
  | false =>
    have hc : (d.cmuEpoch mark).cfg = s.cfg := (State.cmuEpoch_fr _ _).keeps_cfg.trans hcfg
    obtain ⟨-, h2⟩ := State.handSourceLost_silent (s := d.cmuEpoch mark) (by rw [hc]; exact h11)
    rw [if_neg Bool.false_ne_true]
    obtain ⟨k1, k2⟩ := last (d.cmuEpoch mark).handSourceLost (d.cmuEpoch mark)
      ((State.handSourceLost_fr _).keeps_cfg.trans hc) h2 ((FlagsStay.refl _).handSourceLost)
    exact ⟨d, Frame.refl _ _, rfl, rfl, k1, k2⟩

/-- What an epoch without a ring loss makes of shadow, axes and channels, where stale slots trip nothing. -/
theorem State.epochWork_works (h : s.StaleTripsNothing) (hdr : Option HeaderShaft) (mark : Bool) :
    let t := s.epochWork hdr mark false
    t.lsu.shadow = s.epochShadow hdr mark ∧ s.AxesAdvance t mark ∧
      (s.cfg.classes[(11 : Fin 15)] = .clear → s.ChannelsAdvance t mark) := by
  intro t
  obtain ⟨a, x, ht⟩ := s.epochWork_tail hdr mark
  have hk : ({ s with free := s.free + 4 } : State).StaleTripsNothing := h
  obtain ⟨hshadow, hact, hcmu, haxes⟩ := State.axesDone_works hk a hdr mark
  have hfr := State.axesDone_fr { s with free := s.free + 4 } a hdr mark
  have htail := State.epochBody_tail { s with free := s.free + 4 } a x hdr mark
  have hend := (State.iguEpoch_fr ({ s with free := s.free + 4 }.epochBody a x hdr mark)).mono
    (qs := [.igu, .scu, .flags, .lde]) |>.comp (State.scuEpoch_fr _)
  rw [← ht] at hend
  have hlsu : t.lsu = ({ s with free := s.free + 4 }.axesDone a hdr mark).lsu := hend.keeps_lsu.trans htail.keeps_lsu
  have haxu : t.axu = ({ s with free := s.free + 4 }.axesDone a hdr mark).axu := hend.keeps_axu.trans htail.keeps_axu
  refine ⟨by rw [hlsu]; exact hshadow, fun n hn => ?_, fun h11 => ?_⟩
  · rw [haxu, haxes n, show State.axisCommand { s with free := s.free + 4 } n = none from hn, hlsu]
    exact Axis.epoch_advances _ _
  · obtain ⟨y, hy, hyact, hycmu, hcmu2, hflags⟩ := State.epochBody_cmu hk h11 a x hdr mark
    have hsy := hfr.comp (hy.mono (qs := [.lsu, .axu, .tru, .slu, .cmu, .flags, .ptu, .lde]))
    have hst := State.epochWork_fr s hdr mark false
    refine State.cmuEpoch_advances (s := y) (hend.keeps_cmu.trans hcmu2) ?_ hsy.keeps_cfg (hycmu.trans hcmu)
      (hyact.trans hact) ?_ ?_ ?_ fun r => ?_
    · rw [show t = _ from ht]
      exact hflags.iguEpoch.scuEpoch
    · exact (hsy.keeps_isJoined (by rw [hsy.keeps_flu]))
    · exact hst.keeps_now.trans hsy.keeps_now.symm
    · rw [hsy.keeps_flu, State.epochWork_flu, if_neg (by decide)]
    · unfold State.reference
      rw [hlsu, haxu, hy.keeps_lsu, hy.keeps_axu]

end

end Sys2Proof.Machine

/-! Proofs, section 24. Epochs from headers and synthesized epochs (R20 to R23, R58 to R63). -/

namespace Sys2Proof.Machine

set_option Elab.async false

/-! ### The shadow at a synthesized epoch (R59 to R61) -/

theorem advanceAngle_zero (a : Word) : advanceAngle a 0 = a := by simp [advanceAngle]

theorem advanceRev_zero (a : Word) (r : BitVec 16) : advanceRev a r 0 = r := by
  have h : a.toNat / 2 ^ 32 = 0 := Nat.div_eq_of_lt a.isLt
  unfold advanceRev
  rw [Nat.add_zero, h]
  exact BitVec.add_zero r

section
variable {x : Shadow} {c : NodeCfg}

/-- A coasted shadow outside class A stands still (R61). -/
def Shadow.freed (x : Shadow) : Shadow :=
  if x.state = .coasted ∧ x.localStop = true then { x with state := .standstill, resync := false } else { x with resync := false }

theorem Shadow.freed_of_not (h : ¬ (x.state = .coasted ∧ x.localStop = true)) : x.freed = { x with resync := false } := if_neg h

theorem Shadow.synthesize_a : x.synthesize c .a =
    { x with speed := 0, state := .coasted, localStop := true, ramp := none, resync := false } := by
  unfold Shadow.synthesize
  dsimp only
  rw [if_neg (by simp)]

theorem Shadow.synthesize_runs {cls : TripClass} (h : cls = .clear ∨ cls = .d) :
    x.synthesize c cls = x.freed.stepRamp.integrate := by
  rcases h with rfl | rfl <;> (unfold Shadow.synthesize Shadow.freed; simp)

theorem Shadow.synthesize_stops {cls : TripClass} (h : cls = .b ∨ cls = .c) :
    x.synthesize c cls = ((x.freed.reactStop c cls).stepRamp).integrate := by
  rcases h with rfl | rfl <;> (unfold Shadow.synthesize Shadow.freed; simp)

theorem Shadow.freed_keeps (x : Shadow) : x.freed = { x with state := x.freed.state, resync := false } := by
  unfold Shadow.freed
  split <;> rfl

theorem Shadow.integrate_still (h : x.speed = 0) : x.integrate = x := by
  have ha : advanceAngle x.angle x.speed = x.angle := by rw [h, advanceAngle_zero]
  have hr : advanceRev x.angle x.rev x.speed = x.rev := by rw [h, advanceRev_zero]
  unfold Shadow.integrate
  rw [ha, hr]

theorem Shadow.stepRamp_none (h : x.ramp = none) : x.stepRamp = x := by
  unfold Shadow.stepRamp
  rw [h]

/-- Without a ramp the shadow goes on at its speed (R59). -/
theorem Shadow.synthesize_advances {cls : TripClass} (h : cls = .clear ∨ cls = .d) (hr : x.ramp = none) :
    x.synthesize c cls = { x.advanced x.speed with state := x.freed.state } := by
  rw [Shadow.synthesize_runs h, Shadow.freed_keeps, Shadow.stepRamp_none (by exact hr)]
  rfl

/-- A step of a ramp record (R60). -/
theorem Shadow.stepRamp_some {r : Ramp} (h : x.ramp = some r) :
    x.stepRamp = if ({ r with k := r.k + 1 } : Ramp).speed = 0 then { x with speed := 0, ramp := none, state := .standstill }
      else { x with speed := ({ r with k := r.k + 1 } : Ramp).speed, ramp := some { r with k := r.k + 1 } } := by
  unfold Shadow.stepRamp
  rw [h]

/-- A step of a ramp and its integration: at speed 0 the shadow stands (R60). -/
theorem Shadow.stepIntegrate_some {r : Ramp} (h : x.ramp = some r) (hs : x.resync = false) :
    x.stepRamp.integrate = if ({ r with k := r.k + 1 } : Ramp).speed = 0 then
        { x with speed := 0, ramp := none, state := .standstill }
      else { x.advanced ({ r with k := r.k + 1 } : Ramp).speed with ramp := some { r with k := r.k + 1 } } := by
  rw [Shadow.stepRamp_some h]
  split
  · exact Shadow.integrate_still rfl
  · unfold Shadow.advanced
    rw [← hs]
    rfl

/-- A local stop ramp starts with its first step: from a speed, or where class B meets a ramp of class C (R60). -/
theorem Shadow.reactStop_starts {cls : TripClass}
    (h : x.ramp = none ∧ 0 < x.speed ∨ cls = .b ∧ ∃ r, x.ramp = some r ∧ r.cls = .c) :
    x.reactStop c cls = x.startStop c cls := by
  unfold Shadow.reactStop
  rcases h with ⟨hr, hv⟩ | ⟨rfl, r, hr, hc⟩
  · rw [hr]
    exact if_neg (by omega)
  · rw [hr]
    exact if_pos ⟨hc, rfl⟩

theorem Shadow.reactStop_goes {cls : TripClass} {r : Ramp} (h : x.ramp = some r) (hn : ¬ (cls = .b ∧ r.cls = .c)) :
    x.reactStop c cls = x := by
  unfold Shadow.reactStop
  rw [h]
  dsimp only
  split
  · rename_i k
    exact absurd ⟨k.2, k.1⟩ hn
  · rfl

theorem Shadow.reactStop_stands {cls : TripClass} (h : x.ramp = none) (hv : x.speed = 0) :
    x.reactStop c cls = { x with state := .standstill } := by
  unfold Shadow.reactStop
  rw [h]
  exact if_pos hv

/-- The first step of a local stop ramp (R60). -/
theorem Shadow.synthesize_starts {cls : TripClass} (hcls : cls = .b ∨ cls = .c)
    (h : x.ramp = none ∧ 0 < x.speed ∨ cls = .b ∧ ∃ r, x.ramp = some r ∧ r.cls = .c) :
    let r1 : Ramp := { v0 := x.speed, vt := 0, n := stopLength c x.speed cls, k := 1, cls := cls }
    x.synthesize c cls = if r1.speed = 0 then
        { x with speed := 0, state := .standstill, localStop := true, ramp := none, resync := false }
      else { x.advanced r1.speed with state := .stopping, localStop := true, ramp := some r1 } := by
  intro r1
  rw [Shadow.synthesize_stops hcls, Shadow.freed_keeps, Shadow.reactStop_starts (by exact h)]
  exact Shadow.stepIntegrate_some (x := ({ x with state := x.freed.state, resync := false } : Shadow).startStop c cls)
    (r := stopRamp c x.speed cls) rfl rfl

/-- At speed 0 without a ramp the shadow stands under class B or C (R60). -/
theorem Shadow.synthesize_stands {cls : TripClass} (hcls : cls = .b ∨ cls = .c) (hr : x.ramp = none) (hv : x.speed = 0) :
    x.synthesize c cls = { x with state := .standstill, resync := false } := by
  rw [Shadow.synthesize_stops hcls, Shadow.freed_keeps, Shadow.reactStop_stands (by exact hr) (by exact hv),
    Shadow.stepRamp_none (by exact hr), Shadow.integrate_still (by exact hv)]

/-- A ramp in progress makes its step (R60). -/
theorem Shadow.synthesize_steps {cls : TripClass} {r : Ramp} (h : x.ramp = some r) (hA : cls ≠ .a)
    (hn : ¬ (cls = .b ∧ r.cls = .c)) (hc : ¬ (x.state = .coasted ∧ x.localStop = true)) :
    let r1 := { r with k := r.k + 1 }
    x.synthesize c cls = if r1.speed = 0 then { x with speed := 0, state := .standstill, ramp := none, resync := false }
      else { x.advanced r1.speed with ramp := some r1 } := by
  intro r1
  have k : ({ x with resync := false } : Shadow).stepRamp.integrate = if r1.speed = 0 then
      { x with speed := 0, state := .standstill, ramp := none, resync := false }
      else { x.advanced r1.speed with ramp := some r1 } :=
    Shadow.stepIntegrate_some (x := { x with resync := false }) h rfl
  by_cases hs : cls = .b ∨ cls = .c
  · rw [Shadow.synthesize_stops hs, Shadow.freed_of_not hc, Shadow.reactStop_goes (by exact h) hn, k]
  · have hs' : cls = .clear ∨ cls = .d := by cases cls <;> simp_all
    rw [Shadow.synthesize_runs hs', Shadow.freed_of_not hc, k]

end

section
variable {s t u : State}

/-! ### From the state before the event to the state after it -/

theorem State.AxesAdvance.of_event {ps : List Part} {mark : Bool} (h : u.AxesAdvance t mark) (f : Frame ps s u)
    (m : within ps [.now, .flu, .flags] = true := by rfl) {w : State} (hw : w.axu = t.axu) (hl : w.lsu = t.lsu) :
    s.AxesAdvance w mark := by
  have fr : Frame [.now, .flu, .flags] s u := f.mono (m := m)
  intro n hn
  rw [hw, hl, ← fr.keeps_axu, ← fr.keeps_tru]
  refine h n ?_
  rw [State.axisCommand_congr (s := s) (by rw [fr.keeps_ptu]) (by rw [fr.keeps_ptu]) fr.keeps_cfg]
  exact hn

theorem Channel.TestsAt.of_flag {c d : Channel} {cam : CamCfg} {p : Nat} {angle : Word} {q : Int} {f g : Bool}
    (h : c.TestsAt d cam p angle q f) (k : f = true → g = true) : c.TestsAt d cam p angle q g := by
  unfold Channel.TestsAt at h ⊢
  refine ⟨h.1, fun hq => ?_⟩
  obtain ⟨h1, h2, h3, h4, h5, h6, h7, h8, h9⟩ := h.2 hq
  exact ⟨h1, h2, h3, h4, h5, h6, h7, h8, fun a b c => ⟨(h9 a b c).1, k (h9 a b c).2⟩⟩

theorem State.ChannelsAdvance.of_event {ps : List Part} {mark : Bool} (h : u.ChannelsAdvance t mark) (f : Frame ps s u)
    (hr : u.flu.ring = s.flu.ring) (s0 : State) (m : within ps [.now, .flu, .flags] = true := by rfl) :
    s.ChannelsAdvance (State.settle s0 t) mark := by
  have fr : Frame [.now, .flu, .flags] s u := f.mono (m := m)
  obtain ⟨hnone, hsome⟩ := h
  refine ⟨fun i hi => ?_, fun i cam hi => ?_⟩
  · rw [State.settle_cmu, ← fr.keeps_cmu]
    exact hnone i (by rw [fr.keeps_cfg]; exact hi)
  · have href : (State.settle s0 t).reference cam.ref = t.reference cam.ref := by
      unfold State.reference
      rw [State.settle_lsu, State.settle_axu]
    have k := hsome i cam (by rw [fr.keeps_cfg]; exact hi)
    rw [fr.keeps_cmu, fr.keeps_tru, fr.keeps_isJoined hr] at k
    rw [href, State.settle_cmu, State.settle_now, State.settle_flu]
    refine ⟨k.1, fun ht => ?_⟩
    obtain ⟨p, h1, h2, h3⟩ := k.2 ht
    exact ⟨p, h1, h2, h3.of_flag ((FlagsStay.refl t).settle s0 13)⟩

/-- Synchronized time counts from the epoch (R24). -/
theorem State.phase_epoch (h : s.flu.epochAt = s.now) : s.phase = 0 := by
  unfold State.phase
  rw [h, Nat.sub_self, Nat.zero_mul, Nat.zero_div, Nat.min_zero]
  exact ite_self 0

/-- What an epoch that keeps the ring makes of axes and channels, seen from the state before the event to the one after it. -/
theorem State.epochWork_settled {ps : List Part} {s y : State} {hdr : Option HeaderShaft} {mark : Bool} (hs : s.StaleTripsNothing)
    (f : Frame ps s y) (hr : y.flu.ring = s.flu.ring) (s0 : State) (m : within ps [.now, .flu, .flags] = true := by rfl) :
    let t := State.settle s0 (y.epochWork hdr mark false)
    t.lsu.shadow = s.epochShadow hdr mark ∧ s.AxesAdvance t mark ∧
      (s.cfg.classes[(11 : Fin 15)] = .clear → s.ChannelsAdvance t mark) := by
  intro t
  have fr : Frame [.now, .flu, .flags] s y := f.mono (m := m)
  have hy : y.StaleTripsNothing := by
    unfold State.StaleTripsNothing
    rw [fr.keeps_cfg]
    exact hs
  obtain ⟨h1, h2, h3⟩ := State.epochWork_works hy hdr mark
  refine ⟨?_, h2.of_event fr rfl (State.settle_axu _ _) (State.settle_lsu _ _), fun h11 => ?_⟩
  · rw [State.settle_lsu, h1]
    unfold State.epochShadow
    rw [fr.keeps_cfg, fr.keeps_lsu, fr.keeps_tru]
  · exact (h3 (by rw [fr.keeps_cfg]; exact h11)).of_event fr hr s0

end

end Sys2Proof.Machine

/-! Proofs, section 25. The obligations on epochs from headers and on synthesized epochs (R20 to R23). -/

namespace Sys2Proof.Machine

set_option Elab.async false

section
variable {s : State}

/-! ### Epochs from headers -/

/-- The state in which the work of an epoch from an entry begins (R21, R22). -/
def State.headerWatched (s : State) (e : PendingEntry) : State :=
  ((s.onFlu fun u => u.headerEpoch e s.now).notifyIf e.late 11).watchEpoch

theorem State.takeEntry_works {e : PendingEntry} (h : e.cycle ≠ s.flu.cycle) :
    s.takeEntry e = (s.headerWatched e).epochWork (some e.shaft) s.flu.resyncArmed false := if_neg h

theorem State.headerWatched_fr (s : State) (e : PendingEntry) : Frame [.flu, .flags] s (s.headerWatched e) :=
  (((s.onFlu_fr _).mono).comp (State.notifyIf_fr _ _ _)).comp (State.watchEpoch_fr _)

theorem State.headerWatched_flu (s : State) (e : PendingEntry) :
    (s.headerWatched e).flu = (s.flu.headerEpoch e s.now).watched := by
  unfold State.headerWatched
  rw [State.watchEpoch_flu, State.notifyIf_flu]
  rfl

/-- Apply-late sets flag 11 (R21). -/
theorem State.headerWatched_flag {e : PendingEntry} (h : e.late = true) :
    (s.headerWatched e).cnu.flags.getLsbD 11 = true := by
  unfold State.headerWatched
  rw [h]
  exact (FlagsStay.refl _).watchEpoch 11 (State.notify_self _ 11)

theorem State.applyInstant_row (s : State) (dt : Nat) (h : s.configured = true) :
    (fun u : State => if u.configured then u.takeDue 3 else u) (s.elapse dt) = (s.elapse dt).takeDue 3 := if_pos h

/-! ### Synthesized epochs -/

/-- The state in which the work of a synthesized epoch begins (R22, R23). -/
def State.silentWatched (s : State) : State := (s.onFlu fun u => u.synthesize s.now).watchEpoch

theorem State.silentWatched_fr (s : State) : Frame [.flu, .flags] s s.silentWatched :=
  ((s.onFlu_fr _).mono).comp (State.watchEpoch_fr _)

theorem State.silentWatched_flu (s : State) : s.silentWatched.flu = (s.flu.synthesize s.now).watched := by
  unfold State.silentWatched
  rw [State.watchEpoch_flu]
  rfl

end

/-- Settles O33: `State.takeEntry` on the one entry pending, and `State.epochWork_settled`. -/
theorem epochFromAHeader : Obligations.EpochFromAHeader := by
  intro dt e s
  refine ⟨fun h => ?_, fun h hs => ?_, fun hs hc he hi hcyc => ?_⟩
  · obtain ⟨htake, -⟩ := State.dueEpoch_takes h
    have hfresh : e.cycle ≠ ((s.elapse dt).onFlu fun u => { u with entries := [] }).flu.cycle := h.fresh
    rw [State.takeEntry_works hfresh] at htake
    have hflu : ((s.elapse dt).takeDue 3).flu = (Flu.headerEpoch { s.flu with entries := [] } e (s.now + dt)).watched := by
      rw [htake, State.epochWork_flu, if_neg (by decide), State.headerWatched_flu]
      rfl
    have hfr := State.takeDue_fr (s.elapse dt) 3
    have hshadow := congrArg State.lsu htake
    refine ⟨_, exec_event (fun u => if u.configured then u.takeDue 3 else u) (s.applyInstant_row dt h.configured), ?_⟩
    refine ⟨(State.settle_now _ _).trans hfr.keeps_now, ?_, ?_, fun hl => ?_, ?_, State.settled_only _ hfr⟩
    · rw [State.settle_flu, hflu]
      rfl
    · refine State.phase_epoch ?_
      rw [State.settle_flu, hflu, State.settle_now, hfr.keeps_now]
      rfl
    · refine (FlagsStay.refl _).settle _ 11 ?_
      rw [htake]
      exact (FlagsStay.refl _).epochWork _ _ _ 11 (State.headerWatched_flag hl)
    · rw [State.settle_lsu, hshadow, State.epochWork_shadow_header, (State.headerWatched_fr _ _).keeps_cfg]
      rfl
  · obtain ⟨htake, -⟩ := State.dueEpoch_takes h
    have hfresh : e.cycle ≠ ((s.elapse dt).onFlu fun u => { u with entries := [] }).flu.cycle := h.fresh
    rw [State.takeEntry_works hfresh] at htake
    have hfr := State.takeDue_fr (s.elapse dt) 3
    refine ⟨_, exec_event (fun u => if u.configured then u.takeDue 3 else u) (s.applyInstant_row dt h.configured), ?_⟩
    have only := State.settled_only (s := s) (dt := dt) epochParts hfr
    rw [htake] at only ⊢
    have hw := State.headerWatched_fr ((s.elapse dt).onFlu fun u => { u with entries := [] }) e
    have hf := (((s.elapse_fr dt).mono (qs := [.now, .flu, .flags])).comp
      ((s.elapse dt).onFlu_fr fun u => { u with entries := [] })).comp hw
    obtain ⟨-, haxes, hch⟩ := State.epochWork_settled (hdr := some e.shaft) (mark := s.flu.resyncArmed) hs hf
      (by rw [State.headerWatched_flu]; rfl) (s.elapse dt)
    exact ⟨haxes, hch, only⟩
  · have hdue : (s.elapse dt).entryDue = true := by
      unfold State.entryDue
      rw [show (s.elapse dt).flu.entries = [e] from he]
      exact decide_eq_true hi
    have hold : (s.elapse dt).takeOldest = (s.elapse dt).onFlu fun u => { u with entries := [], miss := 0 } := by
      unfold State.takeOldest
      rw [show (s.elapse dt).flu.entries = [e] from he]
      exact if_pos hcyc
    have htake : (s.elapse dt).takeDue 3 = (s.elapse dt).onFlu fun u => { u with entries := [], miss := 0 } := by
      show (if (s.elapse dt).entryDue = true then (s.elapse dt).takeOldest.takeDue 2 else _) = _
      rw [if_pos hdue, hold]
      exact State.takeDue_stops (State.entryDue_nil rfl)
    refine ⟨_, exec_event (fun u => if u.configured then u.takeDue 3 else u)
      ((s.applyInstant_row dt hc).trans htake), ?_⟩
    rw [State.settle_onFlu hs _ rfl]
    exact ⟨rfl, State.effect_only _ (State.onFlu_fr _ _)⟩

/-- Settles O34: `State.synthesize`, the shadow by the branches of R59 to R61. -/
theorem timerMakesASynthesizedEpoch : Obligations.TimerMakesASynthesizedEpoch := by
  intro dt s hserved
  refine ⟨fun h => ?_, fun h hl hs => ?_, fun hm hx hp => ?_⟩
  · obtain ⟨htimer, htake, -⟩ := State.dueEpoch_synthesizes h
    have hfr := State.synthesize_fr (s.elapse dt)
    have hflu := State.synthesize_flu (s.elapse dt)
    refine ⟨_, exec_event (fun u => if u.timerDue then u.takeTimer else u) ((if_pos htimer).trans htake), ?_⟩
    simp only [State.settle_flu]
    have hsync : ∀ {α : Type} (get : Flu → α), get ((s.elapse dt).flu.synthesize (s.elapse dt).now).watched.left =
        get ((s.elapse dt).flu.synthesize (s.elapse dt).now).watched →
        get (s.elapse dt).synthesize.flu = get ((s.elapse dt).flu.synthesize (s.elapse dt).now).watched := by
      intro α get hg
      rw [hflu]
      split
      · exact hg
      · rfl
    refine ⟨hsync Flu.cycle rfl, hsync Flu.epochAt rfl, ?_, hsync Flu.miss rfl, hsync Flu.applyLate rfl,
      hsync Flu.expected rfl, hsync Flu.interval rfl, fun hl => ?_, State.settled_only _ hfr⟩
    · refine State.phase_epoch ?_
      rw [State.settle_flu, State.settle_now, hfr.keeps_now]
      exact hsync Flu.epochAt rfl
    · rw [hflu, if_neg (by rw [show (s.elapse dt).losesRing = false from hl]; decide)]
      exact ⟨rfl, rfl, rfl⟩
  · intro x coasts
    obtain ⟨htimer, htake, -⟩ := State.dueEpoch_synthesizes h
    have hsyn : (s.elapse dt).synthesize = (s.elapse dt).silentWatched.epochWork none false false := by
      unfold State.synthesize
      rw [show (s.elapse dt).losesRing = false from hl]
      rfl
    refine ⟨_, exec_event (fun u => if u.timerDue then u.takeTimer else u) ((if_pos htimer).trans htake), ?_⟩
    rw [hsyn]
    have hf := ((s.elapse_fr dt).mono (qs := [.now, .flu, .flags])).comp (s.elapse dt).silentWatched_fr
    obtain ⟨hshadow, haxes, hch⟩ := State.epochWork_settled (hdr := none) (mark := false) hs hf
      (by rw [State.silentWatched_flu]; rfl) (s.elapse dt)
    have hsh : ∀ cls, s.tru.acting = cls → s.epochShadow none false = x.synthesize s.cfg cls := by
      intro cls hc
      rw [← hc]
      rfl
    refine ⟨haxes, hch, fun hA => ?_, fun hcls hr => ⟨fun hn => ?_, fun hc => ?_⟩, fun cls hact hcls hst => ?_,
      fun hcls hr hv => ?_, fun r hr hA hn hc => ?_⟩ <;> rw [hshadow]
    · rw [hsh _ hA, Shadow.synthesize_a]
    · rw [hsh _ rfl, Shadow.synthesize_advances hcls hr, Shadow.freed_of_not hn]
      rfl
    · rw [hsh _ rfl, Shadow.synthesize_advances hcls hr]
      unfold Shadow.freed
      rw [if_pos hc]
    · rw [hsh _ hact]
      exact Shadow.synthesize_starts hcls hst
    · rw [hsh _ rfl, Shadow.synthesize_stands hcls hr hv]
    · rw [hsh _ rfl]
      exact Shadow.synthesize_steps hr hA hn hc
  · have htimer : (s.elapse dt).timerDue = true := by
      unfold State.timerDue
      exact Bool.and_eq_true_iff.2 ⟨hm, decide_eq_true hx⟩
    have htake : (s.elapse dt).takeTimer =
        (s.elapse dt).onFlu fun u => { u with expected := u.expected + u.interval } := if_pos hp
    refine ⟨_, exec_event (fun u => if u.timerDue then u.takeTimer else u) ((if_pos htimer).trans htake), ?_⟩
    rw [State.settle_onFlu hserved _ rfl]
    exact ⟨rfl, State.effect_only _ (State.onFlu_fr _ _)⟩

end Sys2Proof.Machine

/-! Proofs, section 26. An origination (R15 to R17, R20, R96, R104). -/

namespace Sys2Proof.Machine

set_option Elab.async false

section
variable {s t : State}

/-! ### The previous frame's cells, and the return judged -/

/-- The FLU but for the out-run passage and the frame it leaves. -/
def Flu.besideOut (u : Flu) : Flu := { u with out := Passage.idle, txDown := TxFrame.started 0 }

/-- What the cells of the previous frame concern (R129, R133). -/
theorem State.finishCells_besideOut (s : State) : s.finishCells.flu.besideOut = s.flu.besideOut := by
  have hcell : ∀ u : State, (u.outCell emptyCell).flu.besideOut = u.flu.besideOut := by
    intro u
    by_cases h : u.flu.out.stage = .cells ∧ u.flu.out.next < 96
    · obtain ⟨b, e⟩ := u.outCell_flu emptyCell h
      rw [e]
      rfl
    · unfold State.outCell
      rw [if_neg h]
  have hend : ∀ u : State, u.endOut.flu.besideOut = u.flu.besideOut := by
    intro u
    rw [State.endOut_flu]
    rfl
  unfold State.finishCells
  split
  · rw [hend]
    exact foldl_keeps _ (fun u : State => u.flu.besideOut) _ (fun u _ _ => hcell u) s
  · rfl

/-- The return-miss count behind the judgement of the previous cycle's return (R17). -/
def Flu.missJudged (u : Flu) : Nat :=
  if u.originated = false then u.returnMiss else if u.returnSeen then 0 else min 255 (u.returnMiss + 1)

/-- The FLU of a master that begins a frame at `now`, its previous return judged (R15 to R17). -/
def Flu.counted (u : Flu) (runUp now : Nat) : Flu :=
  { u with returnMiss := u.missJudged, runUp := runUp, originated := true, origCount := u.origCount + 1, originAt := now,
           nextOrigin := u.nextOrigin + Config.cycleTicks, returnSeen := false }

theorem State.judgeReturn_flu (s : State) : ∃ n, s.judgeReturn.flu = { s.flu with returnMiss := s.flu.missJudged, runUp := n } := by
  unfold State.judgeReturn Flu.missJudged
  split
  · exact ⟨_, rfl⟩
  · split
    · exact ⟨_, rfl⟩
    · exact ⟨_, State.resetRunUp_flu _⟩

/-! ### The trip block (R96, R97, R104) -/

/-- The masks that the master relays (R96). -/
def Tru.relayed (t : Tru) : ClassMasks :=
  match t.relay with
  | some r => r.masks.map fun w => (w &&& r.presence) &&& ~~~1#32
  | none => ClassMasks.empty

/-- The master with a pending reset taken (R104, R105). -/
def State.resetTaken (s : State) : State :=
  if s.tru.resetPending then (s.takeToken (s.tru.known + 1)).onTru fun u => { u with resetPending := false } else s

/-- The trip block of a frame and the master behind it, part by part (R96). -/
theorem State.formTrip_eq (s : State) : s.formTrip =
    let s2 := s.resetTaken.viewing (s.resetTaken.markOwn s.tru.relayed)
    (s2, { masks := s.resetTaken.markOwn s.tru.relayed,
           fault := s2.offer (if s.tru.resetPending then none else s.tru.relay.bind Relay.fault), gen := s2.tru.known,
           presence := 1, ready := 1 }) := by
  have h : (if s.tru.resetPending = true then none else match s.tru.relay with | some r => r.fault | none => none) =
      if s.tru.resetPending = true then none else s.tru.relay.bind Relay.fault := by
    cases s.tru.relay <;> rfl
  exact congrArg (fun f => (s.resetTaken.viewing (s.resetTaken.markOwn s.tru.relayed),
    ({ masks := s.resetTaken.markOwn s.tru.relayed,
       fault := (s.resetTaken.viewing (s.resetTaken.markOwn s.tru.relayed)).offer f,
       gen := (s.resetTaken.viewing (s.resetTaken.markOwn s.tru.relayed)).tru.known, presence := 1, ready := 1 } : TripFields))) h

theorem State.viewing_marks (s : State) (m : ClassMasks) : SameMarks s (s.viewing m) := by
  obtain ⟨_, _, _, _, _, e⟩ := s.viewing_tru m
  exact ⟨(s.viewing_fr m).keeps_cfg, by rw [e], by rw [e], by rw [(s.viewing_fr m).keeps_flu]⟩

/-- What a reset taken makes of generation, latch and conditions (R104, R105). -/
theorem State.resetTaken_tru (s : State) : s.resetTaken.tru.resetPending = false ∧
    s.resetTaken.tru.known = (if s.tru.resetPending then s.tru.known + 1 else s.tru.known) ∧
    s.resetTaken.tru.cond = s.tru.cond ∧
    s.resetTaken.tru.latch = (if s.tru.resetPending then s.tru.cleared else s.tru.latch) := by
  unfold State.resetTaken
  cases h : s.tru.resetPending with
  | false => exact ⟨h, rfl, rfl, rfl⟩
  | true =>
    obtain ⟨_, _, _, _, _, e⟩ := s.takeToken_tru (s.tru.known + 1)
    rw [if_pos rfl, State.onTru_tru, e]
    exact ⟨rfl, rfl, rfl, rfl⟩

/-- The master's own marks are those of the state in which the token alone has been taken. -/
theorem State.resetTaken_marks {u : State} (hc : u.cfg = s.cfg) (hp : u.flu.position = s.flu.position)
    (hl : u.tru.latch = s.tru.latch) (h8 : u.tru.class8 = s.tru.class8) (hcond : u.tru.cond = s.tru.cond) (g : Byte) :
    SameMarks s.resetTaken (if s.tru.resetPending then u.takeToken g else u) := by
  unfold State.resetTaken
  cases h : s.tru.resetPending with
  | false => exact ⟨hc, hl, h8, hp⟩
  | true =>
    obtain ⟨_, _, _, _, _, e⟩ := s.takeToken_tru (s.tru.known + 1)
    obtain ⟨_, _, _, _, _, e1⟩ := u.takeToken_tru g
    rw [if_pos rfl, if_pos rfl]
    refine ⟨?_, ?_, ?_, ?_⟩
    · rw [(u.takeToken_fr g).keeps_cfg, hc, State.onTru_cfg, (s.takeToken_fr _).keeps_cfg]
    · rw [e1, State.onTru_tru, e]
      show u.tru.cleared = s.tru.cleared
      unfold Tru.cleared
      rw [hl, hcond]
    · rw [e1, State.onTru_tru, e]
    · rw [State.takeToken_flu, State.onTru_flu, State.takeToken_flu, hp]

/-! ### Tag block and slots -/

/-- The master's slots leave remote view, generation and the other sources' conditions alone (R113). -/
theorem State.formSlots_tru (s : State) : s.formSlots.1.tru.remote = s.tru.remote ∧ s.formSlots.1.tru.known = s.tru.known ∧
    s.formSlots.1.tru.resetPending = s.tru.resetPending ∧
    s.formSlots.1.tru.latch[(10 : Fin 15)] = s.tru.latch[(10 : Fin 15)] ∧
    s.formSlots.1.tru.cond[(10 : Fin 15)] = s.tru.cond[(10 : Fin 15)] := by
  have k : ∀ (u : State) (b : Bool), u.tru = s.tru → let v := u.handCondition 13 b
      v.tru.remote = s.tru.remote ∧ v.tru.known = s.tru.known ∧ v.tru.resetPending = s.tru.resetPending ∧
      v.tru.latch[(10 : Fin 15)] = s.tru.latch[(10 : Fin 15)] ∧ v.tru.cond[(10 : Fin 15)] = s.tru.cond[(10 : Fin 15)] := by
    intro u b hu v
    obtain ⟨h1, h2⟩ := u.handStamped_other b u.stamp (show (10 : Fin 15) ≠ 13 by decide)
    rw [hu] at h1 h2
    refine ⟨?_, ?_, ?_, h1, h2⟩
    · exact (State.handStamped_remote ..).trans (by rw [hu])
    · exact (State.handStamped_known ..).trans (by rw [hu])
    · exact (State.handStamped_resetPending ..).trans (by rw [hu])
  unfold State.formSlots
  dsimp only
  split
  · unfold State.decideSlots
    dsimp only
    split
    · exact k s false rfl
    · exact k _ true rfl
  · exact ⟨rfl, rfl, rfl, rfl, rfl⟩

theorem State.formSlots_length (s : State) : s.formSlots.2.2.length = 128 := by
  unfold State.formSlots
  dsimp only
  split
  · unfold State.passSlots
    rw [List.length_map, List.length_zip, List.length_finRange, List.length_replicate]
    rfl
  · exact List.length_replicate

theorem State.formSlots_setup (h : s.flu.mstate = .setup) :
    s.formSlots.2 = (sealed (List.replicate 16 0), List.replicate 128 emptySlot) := by
  unfold State.formSlots
  dsimp only
  rw [if_neg (by rw [h]; simp)]

end

end Sys2Proof.Machine

/-! Proofs, section 27. The origination's obligation (R15 to R17, R20, R56, R91, R96, R97, R104). -/

namespace Sys2Proof.Machine

set_option Elab.async false

section
variable {s t : State}

/-- The master with its next frame begun: the return judged, the loss handed over, the frame counted (R15, R17). -/
def State.begun (s : State) : State := ((s.finishCells.judgeReturn).handMasterLoss).countFrame

/-- The frame that leaves downstream, its cells still to be formed (R15). -/
def State.frameSent (b : State) (now : Nat) : TxFrame :=
  { start := some now,
    header := buildHeader b.ownHeader.cycle b.ownHeader.run b.ownHeader.dApply b.flu.lastL b.ownHeader.shaft,
    trip := buildTrip b.formTrip.2, tags := b.formTrip.1.formSlots.2.1, slots := b.formTrip.1.formSlots.2.2, cells := [] }

/-- The FLU of the master that has sent its frame and taken its own header (R15, R20). -/
def Flu.sent (u : Flu) (f : TxFrame) (e : PendingEntry) (now : Nat) : Flu :=
  { u with out := Passage.own now (decide (u.mstate = .run)) u.origCount, txDown := f, entries := u.entries ++ [e] }

theorem State.begun_fr (s : State) : Frame [.flu, .cls, .igu, .scu, .ksc, .flags, .lde, .tru, .cmu] s s.begun :=
  (((s.finishCells_fr.mono).comp (State.judgeReturn_fr _)).comp (State.handMasterLoss_fr _)).comp (State.countFrame_fr _)

theorem State.begun_flu (s : State) : ∃ n, s.begun.flu.besideOut = (s.flu.counted n s.now).besideOut := by
  obtain ⟨n, hj⟩ := s.finishCells.judgeReturn_flu
  have hnow : s.finishCells.judgeReturn.handMasterLoss.now = s.now :=
    (((s.finishCells_fr.mono (qs := [.flu, .cls, .igu, .scu, .ksc, .flags, .lde, .tru, .cmu])).comp
      (State.judgeReturn_fr _)).comp (State.handMasterLoss_fr _)).keeps_now
  have hb : s.begun.flu = s.finishCells.flu.counted n s.now := by
    show State.flu (State.countFrame _) = _
    unfold State.countFrame
    rw [State.onFlu_flu, State.handMasterLoss_flu, hj, hnow]
    rfl
  refine ⟨n, ?_⟩
  rw [hb]
  exact congrArg (fun u : Flu => u.counted n s.now) s.finishCells_besideOut

/-- With fewer than three entries pending an origination sends a frame, and the master's own header joins the list. -/
theorem State.originate_room (h : s.flu.entries.length < 3) : s.originate =
    (s.begun.formTrip.1.formSlots.1.openClaims).onFlu fun u =>
      u.sent (s.begun.frameSent s.now) (entryOf s.begun.ownHeader s.now 0 u.resyncArmed) s.now := by
  obtain ⟨n, hb⟩ := s.begun_flu
  have hent : s.begun.flu.entries = s.flu.entries := (congrArg Flu.entries hb :)
  have e : s.originate = ((s.begun.formTrip.1.formSlots.1.openClaims).onFlu fun u =>
      { u with out := Passage.own s.now (decide (u.mstate = .run)) u.origCount, txDown := s.begun.frameSent s.now }).placeEntry
        (entryOf s.begun.ownHeader s.now 0) := rfl
  have hlen : s.begun.formTrip.1.formSlots.1.openClaims.flu.entries.length < 3 := by
    rw [State.openClaims_flu, State.formSlots_flu, State.formTrip_flu, hent]
    exact h
  rw [e]
  generalize s.begun.formTrip.1.formSlots.1.openClaims = x at hlen
  generalize s.begun.frameSent s.now = f
  generalize entryOf s.begun.ownHeader s.now 0 = g
  rw [State.placeEntry_room g (by exact hlen)]
  rfl

theorem State.takeOrigin_due {dt : Nat} (hm : s.isMaster = true) (hd : s.flu.nextOrigin ≤ s.now + dt) :
    (s.elapse dt).takeOrigin = (s.elapse dt).originate :=
  if_pos (show ((s.elapse dt).originDue) = true from Bool.and_eq_true_iff.2 ⟨hm, decide_eq_true hd⟩)

/-- What an origination touches, with room in the pending list. -/
theorem State.originate_room_fr (h : s.flu.entries.length < 3) :
    Frame [.flu, .tru, .slu, .cls, .cmu, .igu, .scu, .ksc, .flags, .lde] s s.originate := by
  rw [State.originate_room h]
  exact ((((s.begun_fr.mono).comp (State.formTrip_fr _)).comp (State.formSlots_fr _)).comp (State.openClaims_fr _)).comp
    (State.onFlu_fr _ _)

theorem State.originate_tru (h : s.flu.entries.length < 3) : s.originate.tru = s.begun.formTrip.1.formSlots.1.tru := by
  rw [State.originate_room h, State.onFlu_tru, (State.openClaims_fr _).keeps_tru]

/-- The trip state of a master that begins a frame: source 10's condition is handed over (R17, R91). -/
theorem State.begun_tru (s : State) :
    let v := s.handStamped 10 (decide (s.cfg.lossLimit ≤ s.flu.missJudged)) { cycle := s.flu.cycle, phase := 0 }
    s.begun.tru.latch = v.tru.latch ∧ s.begun.tru.cond = v.tru.cond ∧ s.begun.tru.class8 = v.tru.class8 ∧
      s.begun.tru.relay = s.tru.relay ∧ s.begun.tru.resetPending = s.tru.resetPending ∧ s.begun.tru.known = s.tru.known := by
  intro v
  obtain ⟨n, hj⟩ := s.finishCells.judgeReturn_flu
  have hbeside := s.finishCells_besideOut
  have fr := (s.finishCells_fr.mono (qs := [.flu, .cls, .igu, .scu, .ksc, .flags, .lde])).comp (State.judgeReturn_fr _)
  have htru := fr.keeps_tru
  have hcfg := fr.keeps_cfg
  have hmiss : s.finishCells.judgeReturn.flu.returnMiss = s.flu.missJudged := by
    rw [hj]
    exact (congrArg Flu.missJudged hbeside :)
  have hcycle : s.finishCells.judgeReturn.flu.cycle = s.flu.cycle := by
    rw [hj]
    exact (congrArg Flu.cycle hbeside :)
  have hb : s.begun.tru = s.finishCells.judgeReturn.handMasterLoss.tru := (State.countFrame_fr _).keeps_tru
  rw [hb]
  unfold State.handMasterLoss
  rw [hmiss, hcycle, hcfg]
  generalize s.finishCells.judgeReturn = x at htru hcfg
  refine ⟨?_, ?_, ?_, ?_, ?_, ?_⟩
  · rw [State.handStamped_latch, State.handStamped_latch]
    unfold State.latchAfter
    rw [htru, hcfg]
  · rw [State.handStamped_cond, State.handStamped_cond, htru]
  · rw [State.handStamped_class8, State.handStamped_class8, htru]
  · rw [State.handStamped_relay, htru]
  · rw [State.handStamped_resetPending, htru]
  · rw [State.handStamped_known, htru]

/-- The master whose return may be lost, a pending reset taken: its marks and offer are those of the frame (R97, R104). -/
def State.lossTaken (s : State) : State :=
  let u0 := s.handStamped 10 (decide (s.cfg.lossLimit ≤ s.flu.missJudged)) { cycle := s.flu.cycle, phase := 0 }
  if s.tru.resetPending then u0.takeToken (s.tru.known + 1) else u0

/-- Time alone changes none of it. -/
theorem State.lossTaken_elapse (s : State) (dt : Nat) : SameMarks s.lossTaken (s.elapse dt).lossTaken := by
  have hl := s.handStamped_latch 10 (decide (s.cfg.lossLimit ≤ s.flu.missJudged)) { cycle := s.flu.cycle, phase := 0 }
  have h8 := s.handStamped_class8 10 (decide (s.cfg.lossLimit ≤ s.flu.missJudged)) { cycle := s.flu.cycle, phase := 0 }
  have hk := s.handStamped_cond 10 (decide (s.cfg.lossLimit ≤ s.flu.missJudged)) { cycle := s.flu.cycle, phase := 0 }
  unfold State.lossTaken
  dsimp only
  cases hr : s.tru.resetPending with
  | false =>
    rw [if_neg (by simp), if_neg (by rw [show (s.elapse dt).tru.resetPending = false from hr]; simp)]
    exact ⟨by rw [(State.handStamped_fr _ _ _ _).keeps_cfg, (State.handStamped_fr _ _ _ _).keeps_cfg]; rfl,
      by rw [hl, State.handStamped_latch]; rfl, by rw [h8, State.handStamped_class8]; rfl,
      by rw [State.handStamped_flu, State.handStamped_flu]; rfl⟩
  | true =>
    rw [if_pos rfl, if_pos (by exact hr)]
    obtain ⟨_, _, _, _, _, e⟩ := State.takeToken_tru (s.handStamped 10 (decide (s.cfg.lossLimit ≤ s.flu.missJudged))
      { cycle := s.flu.cycle, phase := 0 }) (s.tru.known + 1)
    obtain ⟨_, _, _, _, _, e1⟩ := State.takeToken_tru ((s.elapse dt).handStamped 10
      (decide ((s.elapse dt).cfg.lossLimit ≤ (s.elapse dt).flu.missJudged))
      { cycle := (s.elapse dt).flu.cycle, phase := 0 }) ((s.elapse dt).tru.known + 1)
    refine ⟨?_, ?_, by rw [e, e1], by simp only [State.takeToken_flu, State.handStamped_flu]; rfl⟩
    · rw [(State.takeToken_fr _ _).keeps_cfg, (State.takeToken_fr _ _).keeps_cfg, (State.handStamped_fr _ _ _ _).keeps_cfg,
        (State.handStamped_fr _ _ _ _).keeps_cfg]
      rfl
    · rw [e, e1]
      show Tru.cleared _ = Tru.cleared _
      unfold Tru.cleared
      rw [hl, hk, State.handStamped_latch, State.handStamped_cond]
      rfl

/-- The fields of a trip block as the master sends it: presence and ready bit of position 0 (R96). -/
def originTrip (masks : ClassMasks) (fault : Option FaultRecord) (gen : Byte) : TripFields :=
  { masks := masks, fault := fault, gen := gen, presence := 1, ready := 1 }

/-- The trip block of the frame and the trip state behind the origination (R96, R97, R104). -/
theorem State.originate_trip (h : s.flu.entries.length < 3) :
    let u := s.lossTaken
    let gen := if s.tru.resetPending then s.tru.known + 1 else s.tru.known
    s.originate.tru.remote = u.markOwn s.tru.relayed ∧ s.originate.tru.resetPending = false ∧
      s.originate.tru.known = gen ∧
      s.begun.formTrip.2 = originTrip (u.markOwn s.tru.relayed)
        (u.offer (if s.tru.resetPending then none else s.tru.relay.bind Relay.fault)) gen := by
  intro u gen
  obtain ⟨hlatch, hcond, hclass8, hrelay, hreset, hknown⟩ := s.begun_tru
  obtain ⟨n, hflu⟩ := s.begun_flu
  have hpos : s.begun.flu.position = s.flu.position := (congrArg Flu.position hflu :)
  obtain ⟨kreset, kknown, -, -⟩ := s.begun.resetTaken_tru
  have hmarks := State.resetTaken_marks (s := s.begun)
    (u := s.handStamped 10 (decide (s.cfg.lossLimit ≤ s.flu.missJudged)) { cycle := s.flu.cycle, phase := 0 })
    (by rw [(State.handStamped_fr _ _ _ _).keeps_cfg, s.begun_fr.keeps_cfg]) (by rw [State.handStamped_flu, hpos])
    hlatch.symm hclass8.symm hcond.symm (s.tru.known + 1)
  rw [hreset] at hmarks kknown
  rw [hknown] at kknown
  have hrelayed : s.begun.tru.relayed = s.tru.relayed := by
    unfold Tru.relayed
    rw [hrelay]
  have hform := s.begun.formTrip_eq
  rw [hrelayed, hreset, hrelay] at hform
  have hview := s.begun.resetTaken.viewing_marks (s.begun.resetTaken.markOwn s.tru.relayed)
  obtain ⟨_, _, _, _, _, hv⟩ := s.begun.resetTaken.viewing_tru (s.begun.resetTaken.markOwn s.tru.relayed)
  obtain ⟨hslots1, hslots2, hslots3, -, -⟩ := s.begun.formTrip.1.formSlots_tru
  have htru := State.originate_tru h
  rw [htru, hslots1, hslots2, hslots3, hform]
  have hmask : s.begun.resetTaken.markOwn s.tru.relayed = u.markOwn s.tru.relayed := (hmarks.markOwn _).symm
  refine ⟨?_, ?_, ?_, ?_⟩
  · show (s.begun.resetTaken.viewing _).tru.remote = _
    rw [hv, hmask]
  · show (s.begun.resetTaken.viewing _).tru.resetPending = _
    rw [hv]
    exact kreset
  · show (s.begun.resetTaken.viewing _).tru.known = _
    rw [hv]
    exact kknown
  · show originTrip _ ((s.begun.resetTaken.viewing _).offer _) (s.begun.resetTaken.viewing _).tru.known = _
    rw [hview.offer, ← hmarks.offer, hv, hmask]
    exact congrArg (originTrip _ _) kknown

/-- The shaft values of a header, by the ring's state (R16, R56). -/
theorem Gen.header_eq (g : Gen) (m : MasterState) : g.header (decide (m = .run)) =
    { angle := g.angle, rev := g.rev, speed := if m = .run then g.speed else 0,
      state := if m = .run then g.state else .standstill } := by
  unfold Gen.header
  simp only [decide_eq_true_eq]

/-- The condition of source 10 behind an origination that the loss reaches, and the latch (R17, R91). -/
theorem State.originate_loss (h : s.flu.entries.length < 3) (hl : s.cfg.lossLimit ≤ s.flu.missJudged) :
    s.originate.tru.cond[(10 : Fin 15)] = true ∧
    (s.tru.cond[(10 : Fin 15)] = false → s.cfg.classes[(10 : Fin 15)] ≠ .clear →
      s.originate.tru.latch[(10 : Fin 15)] =
        (s.tru.latch[(10 : Fin 15)]).or (some { cycle := s.flu.cycle, phase := 0 })) := by
  obtain ⟨hlatch, hcond, -, -, -, -⟩ := s.begun_tru
  rw [decide_eq_true hl] at hlatch hcond
  obtain ⟨-, -, kcond, klatch⟩ := s.begun.resetTaken_tru
  obtain ⟨_, _, _, _, _, hv⟩ := s.begun.resetTaken.viewing_tru (s.begun.resetTaken.markOwn s.begun.tru.relayed)
  obtain ⟨-, -, -, hslotsl, hslotsc⟩ := s.begun.formTrip.1.formSlots_tru
  have hform : s.begun.formTrip.1 = s.begun.resetTaken.viewing (s.begun.resetTaken.markOwn s.begun.tru.relayed) := by
    rw [State.formTrip_eq]
  have hpresent : s.begun.tru.cond[(10 : Fin 15)] = true := by
    rw [hcond]
    exact State.handStamped_cond_self ..
  rw [State.originate_tru h, hslotsl, hslotsc, hform, hv]
  refine ⟨?_, fun hc hk => ?_⟩
  · show s.begun.resetTaken.tru.cond[(10 : Fin 15)] = true
    rw [kcond]
    exact hpresent
  · show s.begun.resetTaken.tru.latch[(10 : Fin 15)] = _
    have hkept : s.begun.resetTaken.tru.latch[(10 : Fin 15)] = s.begun.tru.latch[(10 : Fin 15)] := by
      rw [klatch]
      split
      · rw [Tru.cleared_get, if_neg (by rw [hpresent]; decide)]
      · rfl
    rw [hkept, hlatch, State.handStamped_latch]
    exact State.latchAfter_self _ hc hk

end

/-- Settles O44: `State.originate_room` for the frame, `State.originate_trip` for its trip block, `State.originate_loss` for the
loss of the return. -/
theorem originationSendsAFrame : Obligations.OriginationSendsAFrame := by
  intro dt s hm hd he shown
  have hdue := State.takeOrigin_due hm hd
  have hroom := State.originate_room (s := s.elapse dt) he
  have hfr := State.originate_room_fr (s := s.elapse dt) he
  obtain ⟨n, hbegun⟩ := (s.elapse dt).begun_flu
  have hform : (s.elapse dt).originate.flu =
      ((s.elapse dt).begun.flu).sent ((s.elapse dt).begun.frameSent (s.now + dt))
        (entryOf (s.elapse dt).begun.ownHeader (s.now + dt) 0 (s.elapse dt).begun.flu.resyncArmed) (s.now + dt) := by
    rw [hroom, State.onFlu_flu, State.openClaims_flu, State.formSlots_flu, State.formTrip_flu]
    rfl
  have hcount : (s.elapse dt).begun.flu.origCount = s.flu.origCount + 1 := (congrArg Flu.origCount hbegun :)
  have hmstate : (s.elapse dt).begun.flu.mstate = s.flu.mstate := (congrArg Flu.mstate hbegun :)
  have hmiss : (s.elapse dt).begun.flu.returnMiss = s.flu.missJudged := (congrArg Flu.returnMiss hbegun :)
  have hring : (s.elapse dt).begun.flu.ring = s.flu.ring := (congrArg Flu.ring hbegun :)
  have hcfg : (s.elapse dt).begun.cfg = s.cfg := (State.begun_fr _).keeps_cfg
  have hlsu : (s.elapse dt).begun.lsu = s.lsu := (State.begun_fr _).keeps_lsu
  have hown : (s.elapse dt).begun.ownHeader = 
      { cycle := s.flu.origCount + 1, run := decide (s.flu.mstate = .run), hop := 0, dApply := s.cfg.dApply
        l := s.flu.lastL.toNat, shaft := shown } := by
    unfold State.ownHeader
    rw [hcount, hmstate, hcfg, hlsu, show (s.elapse dt).begun.flu.lastL = s.flu.lastL from (congrArg Flu.lastL hbegun :),
      Gen.header_eq]
  refine ⟨?_, fun ho hseen hmissed hlim => ?_⟩
  · obtain ⟨hremote, hreset, hknown, htrip⟩ := State.originate_trip (s := s.elapse dt) he
    have hmarks := s.lossTaken_elapse dt
    rw [hmarks.markOwn] at hremote htrip
    rw [hmarks.offer] at htrip
    refine ⟨_, exec_event State.takeOrigin hdue, ?_⟩
    have only := State.settled_only (s := s) (dt := dt)
      [.now, .flu, .tru, .slu, .cls, .cmu, .igu, .scu, .ksc, .flags, .ptu, .lde] hfr
    have hnow : (s.elapse dt).originate.now = s.now + dt := hfr.keeps_now
    simp -zeta only [State.settle_now, State.settle_flu, State.settle_tru]
    generalize (s.elapse dt).originate = x at hform hremote hreset hknown only hnow ⊢
    rw [hform]
    generalize (s.elapse dt).begun = y at hcount hmstate hmiss hring hcfg hlsu hown htrip hbegun ⊢
    refine ⟨hnow, hcount, (congrArg Flu.originated hbegun :), (congrArg Flu.originAt hbegun :),
      (congrArg Flu.nextOrigin hbegun :), (congrArg Flu.returnSeen hbegun :), hmiss, ?_, rfl, ?_, ?_,
      State.formSlots_length _, rfl, fun hsetup => ?_, ⟨entryOf y.ownHeader (s.now + dt) 0 y.flu.resyncArmed, ?_,
        congrArg HeaderFields.cycle hown, ?_, ?_, (congrArg Flu.resyncArmed hbegun :), congrArg HeaderFields.shaft hown⟩, hring,
      hmstate, (congrArg Flu.meas hbegun :), (congrArg Flu.tf hbegun :), only⟩
    · show Passage.own (s.now + dt) (decide (y.flu.mstate = .run)) y.flu.origCount = _
      rw [hmstate, hcount]
    · show buildHeader y.ownHeader.cycle y.ownHeader.run y.ownHeader.dApply y.flu.lastL y.ownHeader.shaft = _
      rw [hown, show y.flu.lastL = s.flu.lastL from (congrArg Flu.lastL hbegun :)]
    · intro u0 u masks
      have hu : u = s.lossTaken := by
        show (if s.tru.resetPending = true then State.takeToken (s.handStamped 10
          (decide (s.cfg.lossLimit ≤ y.flu.returnMiss)) _) _ else s.handStamped 10 (decide (s.cfg.lossLimit ≤ y.flu.returnMiss)) _) = _
        rw [hmiss]
        rfl
      have hmasks : masks = s.lossTaken.markOwn s.tru.relayed := by rw [← hu]; rfl
      refine ⟨hremote.trans hmasks.symm, hreset, hknown, ?_⟩
      rw [hmasks, hu]
      exact congrArg buildTrip htrip
    · have hset : y.formTrip.1.flu.mstate = .setup := by
        rw [State.formTrip_flu, hmstate]
        exact hsetup
      have hslots := State.formSlots_setup hset
      exact ⟨(congrArg Prod.fst hslots :), (congrArg Prod.snd hslots :)⟩
    · exact congrArg (· ++ [entryOf y.ownHeader (s.now + dt) 0 y.flu.resyncArmed]) (congrArg Flu.entries hbegun :)
    · rw [hown]
      show s.now + dt + (if decide (s.cfg.dApply < 0 + 250) = true then 250 else s.cfg.dApply - 0) = _
      simp only [decide_eq_true_eq]
      split <;> omega
    · rw [hown]
      exact congrArg (fun n => decide (s.cfg.dApply < n)) (Nat.zero_add 250)
  · have hjudged : s.flu.missJudged = s.cfg.lossLimit := by
      unfold Flu.missJudged
      rw [ho, hseen, if_neg (by decide), if_neg (by decide)]
      omega
    obtain ⟨hcond, hlatch⟩ := State.originate_loss (s := s.elapse dt) he
      (show s.cfg.lossLimit ≤ s.flu.missJudged by rw [hjudged])
    have hall : (s.elapse dt).originate.flu.returnMiss = s.cfg.lossLimit := by
      rw [hform]
      exact hmiss.trans hjudged
    refine ⟨_, exec_event (fun u => u.whenOutcome State.takeOrigin losesReturn) ((State.whenOutcome_holds (by
      rw [hdue, losesReturn, hall]
      exact Bool.and_eq_true_iff.2 ⟨decide_eq_true (show s.flu.returnMiss < s.cfg.lossLimit by omega),
        decide_eq_true (Nat.le_refl _)⟩)).trans hdue), ?_⟩
    have only := State.settled_only (s := s) (dt := dt)
      [.now, .flu, .tru, .slu, .cls, .cmu, .igu, .scu, .ksc, .flags, .ptu, .lde] hfr
    rw [State.settle_flu, State.settle_tru, hform]
    exact ⟨hmiss.trans hjudged, hcond, hlatch, hcount, hring, only⟩

end Sys2Proof.Machine

/-! Proofs, section 28. P-port cycles presented (R24 to R28, R34, R44, R86, R194). -/

namespace Sys2Proof.Machine

set_option Elab.async false

section
variable {s t : State}

/-! ### Beats that need no memory (R34, R44) -/

/-- Read beats that need no memory answer their snapshot, and nothing else changes. -/
theorem State.acceptBeats_read (s : State) (c : PCycle) (bs : List PBeat) (h : ∀ b ∈ bs, b.id.reaches false = false) :
    (s.onPtu fun p => { p with cycle := some c }).acceptBeats false bs =
      s.onPtu fun p => { p with cycle := some { c with answers := c.answers ++ bs.map PBeat.ans } } := by
  induction bs generalizing c with
  | nil => rw [List.map_nil, List.append_nil]; rfl
  | cons b bs ih =>
    have hb : (s.onPtu fun p => { p with cycle := some c }).acceptBeat false b =
        s.onPtu fun p => { p with cycle := some { c with answers := c.answers ++ [b.ans] } } := by
      unfold State.acceptBeat State.readWord
      rw [h b (List.mem_cons_self ..)]
      rfl
    have step : (s.onPtu fun p => { p with cycle := some c }).acceptBeats false (b :: bs) =
        ((s.onPtu fun p => { p with cycle := some c }).acceptBeat false b).acceptBeats false bs := rfl
    rw [step, hb, ih _ fun x hx => h x (List.mem_cons_of_mem _ hx)]
    simp

/-- A write beat that reaches no memory is absorbed or enters the latch with flag 4 (R33, R34). -/
theorem State.writeBeat_stays {b : PBeat} (h : b.id.reaches true = false) :
    Frame [.flags, .ptu] s (s.writeBeat b) ∧ (s.writeBeat b).ptu.cycle = s.ptu.cycle ∧
      (s.writeBeat b).ptu.readData = s.ptu.readData := by
  unfold Ident.reaches at h
  unfold State.writeBeat
  cases hc : b.id.wordClass with
  | landed => exact ⟨((s.onPtu_fr _ rfl).mono).comp (State.notify_fr _ _), rfl, rfl⟩
  | substituted => exact ⟨Frame.refl _ _, rfl, rfl⟩
  | outside => rw [hc] at h; cases h
  | ordinary => rw [hc] at h; cases h
  | capture => rw [hc] at h; cases h

theorem State.acceptBeats_write (s : State) (bs : List PBeat) (h : ∀ b ∈ bs, b.id.reaches true = false) :
    Frame [.flags, .ptu] s (s.acceptBeats true bs) ∧ (s.acceptBeats true bs).ptu.cycle = s.ptu.cycle ∧
      (s.acceptBeats true bs).ptu.readData = s.ptu.readData := by
  induction bs generalizing s with
  | nil => exact ⟨Frame.refl _ _, rfl, rfl⟩
  | cons b bs ih =>
    obtain ⟨f1, c1, r1⟩ := State.writeBeat_stays (s := s) (h b (List.mem_cons_self ..))
    obtain ⟨f2, c2, r2⟩ := ih (s.writeBeat b) fun x hx => h x (List.mem_cons_of_mem _ hx)
    exact ⟨f1.comp f2, c2.trans c1, r2.trans r1⟩

/-- The beats before the first that reaches memory. -/
theorem mem_front {w : Bool} {bs : List PBeat} {b : PBeat} (h : b ∈ bs.takeWhile fun x => !x.id.reaches w) :
    b.id.reaches w = false := by
  simpa using List.mem_takeWhile_imp h

theorem State.passBeats_read (s : State) {c : PCycle} (h : c.write = false) :
    (s.onPtu fun p => { p with cycle := some c }).passBeats = s.onPtu fun p =>
      { p with cycle := some { c with beats := c.beats.dropWhile fun x => !x.id.reaches c.write
                                      answers := c.answers ++ (c.beats.takeWhile fun x => !x.id.reaches c.write).map PBeat.ans } } := by
  have e : (s.onPtu fun p => { p with cycle := some c }).passBeats =
      (s.onPtu fun p => { p with cycle := some { c with beats := c.beats.dropWhile fun x => !x.id.reaches c.write } }).acceptBeats
        c.write (c.beats.takeWhile fun x => !x.id.reaches c.write) := rfl
  rw [e, h, State.acceptBeats_read _ _ _ fun b hb => mem_front hb]

theorem State.passBeats_write (s : State) {c : PCycle} (h : c.write = true) :
    let t := (s.onPtu fun p => { p with cycle := some c }).passBeats
    Frame [.flags, .ptu] s t ∧ t.ptu.cycle = some { c with beats := c.beats.dropWhile fun x => !x.id.reaches c.write } ∧
      t.ptu.readData = s.ptu.readData := by
  rcases c with ⟨write, beats, answers, takes, granted⟩
  obtain rfl : write = true := h
  obtain ⟨f, hc, hr⟩ := State.acceptBeats_write (s.onPtu fun p =>
    { p with cycle := some ⟨true, beats.dropWhile fun x => !x.id.reaches true, answers, takes, granted⟩ })
    (beats.takeWhile fun x => !x.id.reaches true) fun b hb => mem_front hb
  exact ⟨((s.onPtu_fr _ rfl).mono).comp f, hc, hr⟩

/-! ### Reads answered at once (R44) -/

/-- A read without a beat that reaches memory returns its snapshot's answers, and nothing else changes. -/
theorem State.answerNow_read (s : State) {c : PCycle} (hw : c.write = false) (ht : c.takes = []) (ha : c.answers = [])
    (h : ∀ b ∈ c.beats, b.id.reaches false = false) :
    s.answerNow c = s.onPtu fun p => { p with readData := c.beats.map PBeat.ans } := by
  have hall : (c.beats.takeWhile fun x => !x.id.reaches c.write) = c.beats :=
    List.takeWhile_eq_self_iff.2 fun b hb => by rw [hw, h b hb]; rfl
  have hend : ∀ d : PCycle, d.takes = [] → d.write = false →
      ((s.onPtu fun p => { p with cycle := some d }).endCycle).onPtu (fun p => { p with cycle := s.ptu.cycle }) =
        s.onPtu fun p => { p with readData := d.answers } := by
    intro d hd hdw
    unfold State.endCycle
    rw [show (s.onPtu fun p => { p with cycle := some d }).ptu.cycle = some d from rfl]
    dsimp only
    rw [hd, hdw]
    rfl
  unfold State.answerNow
  rw [State.passBeats_read s hw]
  refine (hend _ (by exact ht) (by exact hw)).trans ?_
  dsimp only
  rw [hall, ha]
  rfl

theorem State.cycleOf_beats (s : State) (write : Bool) (addr : BitVec 24) (beats : List Beat) :
    (s.cycleOf write addr beats).beats.map PBeat.ans =
      (List.range beats.length).map fun i => s.liveWord (s.identOf ((addr.toNat + i) % 2 ^ 24)) := by
  unfold State.cycleOf
  rw [List.map_map]
  have h : (PBeat.ans ∘ fun b : Beat × Nat => s.classify addr b.2 b.1) =
      (fun i => s.liveWord (s.identOf ((addr.toNat + i) % 2 ^ 24))) ∘ Prod.snd := rfl
  rw [h, ← List.map_map]
  congr 1
  rw [List.zipIdx_map_snd, List.range_eq_range']

theorem pPortCycle_wf {dt : Nat} {write : Bool} {addr : BitVec 24} {beats : List Beat} (h1 : 1 ≤ beats.length)
    (h8 : beats.length ≤ 8) : (Instr.pPortCycle dt write addr beats).wf = true := by
  show (decide _ && decide _) = true
  rw [decide_eq_true h1, decide_eq_true h8]
  rfl

/-- A read that reaches no memory is presented (R34, R44). -/
theorem exec_read {dt : Nat} {addr : BitVec 24} {beats : List Beat} (hs : s.Served) (h1 : 1 ≤ beats.length)
    (h8 : beats.length ≤ 8) (h : ∀ x ∈ ((s.elapse dt).cycleOf false addr beats).beats, x.id.reaches false = false) :
    ∃ t, exec (.pPortCycle dt false addr beats) s = .next t ∧
      t.ptu = { s.ptu with readData := (List.range beats.length).map fun i =>
        (s.elapse dt).liveWord (s.identOf ((addr.toNat + i) % 2 ^ 24)) } ∧ OnlyTouches [.now, .ptu] s t := by
  have hno : ((s.elapse dt).cycleOf false addr beats).beats.any (fun b => b.id.reaches false) = false := by
    rw [List.any_eq_false]
    intro x hx
    rw [h x hx]
    decide
  have hp : (s.elapse dt).present false addr beats = (s.elapse dt).onPtu fun p =>
      { p with readData := ((s.elapse dt).cycleOf false addr beats).beats.map PBeat.ans } := by
    unfold State.present
    dsimp only
    rw [hno, if_neg (by decide)]
    exact State.answerNow_read _ rfl rfl rfl h
  refine ⟨_, exec_checked (fun u => u.present false addr beats) (pPortCycle_wf h1 h8) hp, ?_⟩
  rw [State.settle_id (s := s.elapse dt) (t := (s.elapse dt).onPtu _) (hs.elapse dt) rfl rfl rfl rfl, State.cycleOf_beats]
  exact ⟨rfl, State.effect_only _ (State.onPtu_fr _ _ rfl)⟩

/-! ### Cycles that need the M-port (R42, R44) -/

/-- A cycle with a beat that reaches memory is held. -/
theorem State.present_holds {write : Bool} {addr : BitVec 24} {beats : List Beat}
    (h : ∃ x ∈ (s.cycleOf write addr beats).beats, x.id.reaches write = true) :
    s.present write addr beats = s.holdCycle (s.cycleOf write addr beats) := by
  unfold State.present
  exact if_pos (List.any_eq_true.2 h)

/-- With no landing queued a waiting cycle is granted the free M-port (R42). -/
theorem State.arbitrate_grants (hfree : s.lde.holder = .free) (hu : s.lde.urgent = []) (hn : s.lde.normal = [])
    (hw : s.cycleWaits = true) : s.arbitrate = s.grantCycle := by
  have hstarve : s.starve = s := by
    unfold State.starve State.waitReached
    rw [hn]
    rfl
  unfold State.arbitrate
  rw [if_neg (not_not.2 hfree), hstarve]
  dsimp only
  rw [hu, hn, hw, if_neg (by decide), if_pos (by simp)]

/-- A cycle that waits at a quiet M-port is granted it. -/
theorem State.arbitrate_waiting {c : PCycle} (q : s.Quiet) (hg : c.granted = false) :
    (s.onPtu fun p => { p with cycle := some c }).arbitrate =
      ((s.giveTo .cycle).onPtu fun p => { p with cycle := some { c with granted := true } }).passBeats := by
  obtain ⟨hfree, hu, hn, -, -⟩ := q
  have hwaits : (s.onPtu fun p => { p with cycle := some c }).cycleWaits = true := by
    show (!c.granted) = true
    rw [hg]
    rfl
  rw [State.arbitrate_grants (by exact hfree) (by exact hu) (by exact hn) hwaits]
  rfl

/-- The beats before the first run have been answered when a cycle is granted (R28, R44). -/
theorem State.granted_passes (s : State) {c : PCycle} (ha : c.answers = []) :
    let t := ((s.giveTo .cycle).onPtu fun p => { p with cycle := some { c with granted := true } }).passBeats
    Frame [.flags, .ptu, .lde] s t ∧ t.lde = { s.lde with holder := .cycle } ∧ t.ptu.readData = s.ptu.readData ∧
      t.ptu.cycle = some { c with
        beats := c.beats.dropWhile fun x => !x.id.reaches c.write,
        answers := if c.write then [] else (c.beats.takeWhile fun x => !x.id.reaches c.write).map PBeat.ans,
        granted := true } := by
  rcases c with ⟨write, beats, answers, takes, granted⟩
  obtain rfl : answers = [] := ha
  have hlde : Frame [.flags, .ptu, .lde] s (s.giveTo .cycle) := (State.giveTo_fr s .cycle).mono
  intro t
  cases write with
  | true =>
    obtain ⟨f, hc, hr⟩ := State.passBeats_write (s.giveTo .cycle) (c := ⟨true, beats, [], takes, true⟩) rfl
    exact ⟨hlde.comp f, f.keeps_lde, hr, hc⟩
  | false =>
    have e := State.passBeats_read (s.giveTo .cycle) (c := ⟨false, beats, [], takes, true⟩) rfl
    have ht : t = _ := e
    rw [ht]
    exact ⟨hlde.comp (State.onPtu_fr _ _ rfl), rfl, rfl, rfl⟩

/-! ### Live words (R24, R25, R86, R194) -/

theorem Cnu.noticeWord_eq (c : Cnu) : c.noticeWord = c.mask ++ c.flags := by
  have hf : c.flags.toNat % 2 ^ 16 = c.flags.toNat := Nat.mod_eq_of_lt c.flags.isLt
  have hm : c.mask.toNat % 2 ^ 16 = c.mask.toNat := Nat.mod_eq_of_lt c.mask.isLt
  unfold Cnu.noticeWord packWord pack pack pack
  rw [hf, hm]
  refine BitVec.eq_of_toNat_eq ?_
  have hlt := c.flags.isLt
  have hlt2 := c.mask.isLt
  rw [BitVec.toNat_ofNat, BitVec.toNat_append, ← Nat.shiftLeft_add_eq_or_of_lt c.flags.isLt, Nat.shiftLeft_eq]
  omega

/-- A field alone in its word. -/
theorem packWord_single {v w : Nat} (h : v < 2 ^ w) : packWord [(v, w)] = BitVec.ofNat 32 v := by
  unfold packWord pack pack
  rw [Nat.mod_eq_of_lt h, Nat.mul_zero, Nat.add_zero]

/-- A flag drives NOTICE# unless it is masked; flag 0 always does (R193). -/
theorem State.openFlags_iff (s : State) {n : Nat} (h : n < 16) : s.openFlags.getLsbD n = true ↔
    s.cnu.flags.getLsbD n = true ∧ (n = 0 ∨ s.cnu.mask.getLsbD n = false) := by
  unfold State.openFlags
  rw [BitVec.getLsbD_and, BitVec.getLsbD_or, BitVec.getLsbD_not]
  by_cases h0 : n = 0
  · subst h0
    simp
  · simp [h, h0]

/-- The pending number is the lowest open flag's; 31 with none open (R194). -/
theorem State.pendingNumber_eq (s : State) :
    (∀ n < 16, s.openFlags.getLsbD n = true → (∀ m < n, ¬ s.openFlags.getLsbD m = true) → s.pendingNumber = n) ∧
      ((∀ n < 16, ¬ s.openFlags.getLsbD n = true) → s.pendingNumber = 31) := by
  unfold State.pendingNumber
  refine ⟨fun n hn hp hm => ?_, fun hm => ?_⟩
  · have h : (List.range 16).find? (fun k => s.openFlags.getLsbD k) = some n :=
      List.find?_range_eq_some.2 ⟨hp, List.mem_range.2 hn, fun j hj => by simpa using hm j hj⟩
    rw [h]
    rfl
  · have h : (List.range 16).find? (fun k => s.openFlags.getLsbD k) = none :=
      List.find?_eq_none.2 fun k hk => hm k (List.mem_range.1 hk)
    rw [h]
    rfl

theorem State.pendingNumber_lt (s : State) : s.pendingNumber < 2 ^ 5 := by
  unfold State.pendingNumber
  cases h : (List.range 16).find? (fun k => s.openFlags.getLsbD k) with
  | none => decide
  | some n =>
    have hn := List.mem_range.1 (List.mem_of_find?_eq_some h)
    show n < 32
    omega

theorem State.phase_lt (s : State) : s.phase < 2 ^ 8 := by
  unfold State.phase
  split <;> omega

end

end Sys2Proof.Machine

/-! Proofs, section 29. The obligation on presented cycles (R24 to R28, R34, R44, R86, R194). -/

namespace Sys2Proof.Machine

set_option Elab.async false

section
variable {s : State}

/-- A read of one live word returns it (R34). -/
theorem exec_readLive {dt : Nat} {addr : BitVec 24} {beats : List Beat} (hs : s.Served) (h1 : beats.length = 1)
    (h : (s.identOf addr.toNat).reaches false = false) :
    ∃ t, exec (.pPortCycle dt false addr beats) s = .next t ∧
      t.ptu.readData = [(s.elapse dt).liveWord (s.identOf addr.toNat)] ∧ OnlyTouches [.now, .ptu] s t := by
  have haddr : (addr.toNat + 0) % 2 ^ 24 = addr.toNat := Nat.mod_eq_of_lt addr.isLt
  obtain ⟨b, rfl⟩ := List.length_eq_one_iff.1 h1
  have hno : ∀ x ∈ ((s.elapse dt).cycleOf false addr [b]).beats, x.id.reaches false = false := by
    intro x hx
    obtain rfl : x = (s.elapse dt).classify addr 0 b := by simpa [State.cycleOf] using hx
    show (s.identOf ((addr.toNat + 0) % 2 ^ 24)).reaches false = false
    rw [haddr]
    exact h
  obtain ⟨t, ht, hp, ho⟩ := exec_read (dt := dt) hs (by simp) (by simp) hno
  refine ⟨t, ht, ?_, ho⟩
  rw [hp]
  show [(s.elapse dt).liveWord (s.identOf ((addr.toNat + 0) % 2 ^ 24))] = _
  rw [haddr]

end

/-- Settles O55: `exec_read` for reads answered at once, `State.granted_passes` at a free M-port, `exec_readLive` for the live
words. -/
theorem presentedCyclesAreGrantedOrAnswered : Obligations.PresentedCyclesAreGrantedOrAnswered := by
  intro dt write addr beats s hs h1 h8 c
  have wf : (Instr.pPortCycle dt write addr beats).wf = true := pPortCycle_wf h1 h8
  refine ⟨fun hw hno => ?_, fun hreach q => ?_, fun hreach hbusy => ?_, fun hw hone hconf => ?_⟩
  · subst hw
    exact exec_read hs h1 h8 hno
  · have hq : (s.elapse dt).Quiet := q
    have hp : (s.elapse dt).present write addr beats = (s.elapse dt).onPtu fun p => { p with cycle := some c } :=
      (State.present_holds hreach).trans (State.holdCycle_free c hq.2.2.2.1)
    refine ⟨_, exec_checked (fun u => u.present write addr beats) wf hp, ?_⟩
    have hset : State.settle (s.elapse dt) ((s.elapse dt).onPtu fun p => { p with cycle := some c }) =
        (((s.elapse dt).giveTo .cycle).onPtu fun p => { p with cycle := some { c with granted := true } }).passBeats := by
      unfold State.settle
      rw [State.reportTrip_id (s := s.elapse dt) (t := (s.elapse dt).onPtu _) rfl rfl]
      exact State.arbitrate_waiting hq rfl
    obtain ⟨fr, hlde, hread, hcycle⟩ := (s.elapse dt).granted_passes (c := c) rfl
    rw [hset]
    exact ⟨hlde, hcycle, hread, State.effect_only _ fr⟩
  · have hp : (s.elapse dt).present write addr beats = (s.elapse dt).onPtu fun p => { p with behind := p.behind ++ [c] } :=
      (State.present_holds hreach).trans (State.holdCycle_busy c hbusy)
    refine ⟨_, exec_checked (fun u => u.present write addr beats) wf hp, ?_⟩
    rw [State.settle_id (s := s.elapse dt) (t := (s.elapse dt).onPtu _) (hs.elapse dt) rfl rfl rfl rfl]
    exact ⟨rfl, State.effect_only _ (State.onPtu_fr _ _ rfl)⟩
  · subst hw
    intro phase pends
    have hphase : (s.elapse dt).phase = phase := if_pos hconf
    refine ⟨fun off hid => ?_, fun n hid => ?_⟩
    · obtain ⟨t, ht, hread, honly⟩ := exec_readLive (dt := dt) hs hone (by rw [hid]; rfl)
      rw [hid] at hread
      have hpends : ∀ n < 16, (s.elapse dt).openFlags.getLsbD n = true ↔ pends n := fun n hn => s.openFlags_iff hn
      obtain ⟨hsome, hnone⟩ := (s.elapse dt).pendingNumber_eq
      refine ⟨t, ht, fun h0 => ?_, fun h4 => ?_, fun h20 => ?_, fun h24 => ?_, honly⟩
      · subst h0
        rw [hread, ← Cnu.noticeWord_eq]
        rfl
      · subst h4
        have hword : (s.elapse dt).liveWord (.nodeLive 4) = BitVec.ofNat 32 (s.elapse dt).pendingNumber :=
          packWord_single (State.pendingNumber_lt _)
        rw [hread, hword]
        refine ⟨fun n hn hp hm => ?_, fun hm => ?_⟩
        · rw [hsome n hn ((hpends n hn).2 hp) fun m hlt k => hm m hlt ((hpends m (by omega)).1 k)]
        · rw [hnone fun n hn k => hm n hn ((hpends n hn).1 k)]
          rfl
      · subst h20
        rw [hread]
        rfl
      · subst h24
        have hword : (s.elapse dt).liveWord (.nodeLive 24) = BitVec.ofNat 32 (s.elapse dt).phase :=
          packWord_single (State.phase_lt _)
        rw [hread, hword, hphase]
    · intro a q
      obtain ⟨t, ht, hread, honly⟩ := exec_readLive (dt := dt) hs hone (by rw [hid]; rfl)
      rw [hid] at hread
      refine ⟨t, ht, ?_, honly⟩
      rw [hread]
      show [(s.elapse dt).liveAngle n] = _
      unfold State.liveAngle interpolate
      rw [hphase]
      rfl

end Sys2Proof.Machine

/-! Proofs, section 30. What every command can change, and how every command ends: the arbiter's work, or a pin reset (R26, R38
to R46). -/

namespace Sys2Proof.Machine

set_option Elab.async false

/-! ### The frame of every command -/

/-- Every part but memory and the queue of commands. -/
def nodeParts : List Part := [.now, .free, .cfg, .flu, .lsu, .axu, .tru, .slu, .cls, .cmu, .igu, .scu, .ksc, .cnu, .flags,
  .ptu, .shadow, .lde]

/-- The same, and memory. -/
def burstParts : List Part := .mem :: nodeParts

/-- What a command can change: memory only where it carries an M-port burst to completion (R26, R45; log 5). -/
def commandParts (c : Instr) : List Part := if carriesBurst c then burstParts else nodeParts

/-- The frame of every command, from its row's. -/
theorem exec_fr {s t : State} (c : Instr) (h : exec c s = .next t) : Frame (commandParts c) s t := by
  cases c with
  | pinReset dt => exact (execPinReset_fr dt s h).mono (qs := nodeParts)
  | flashHeaderRead dt bytes => exact (execFlashHeaderRead_fr dt bytes s h).mono (qs := nodeParts)
  | flashBodyRead dt bytes => exact (execFlashBodyRead_fr dt bytes s h).mono (qs := nodeParts)
  | lightDetected dt p => exact (execLightDetected_fr dt p s h).mono (qs := nodeParts)
  | lockIntervalExpiry dt p => exact (execLockIntervalExpiry_fr dt p s h).mono (qs := nodeParts)
  | clockOutOfBand dt p => exact (execClockOutOfBand_fr dt p s h).mono (qs := nodeParts)
  | lightLost dt p => exact (execLightLost_fr dt p s h).mono (qs := nodeParts)
  | startSymbol dt p => exact (execStartSymbol_fr dt p s h).mono (qs := nodeParts)
  | outRunHeader dt b => exact (execOutRunHeader_fr dt b s h).mono (qs := nodeParts)
  | entryIntoJoined dt b => exact (execEntryIntoJoined_fr dt b s h).mono (qs := nodeParts)
  | outRunTripBlock dt b => exact (execOutRunTripBlock_fr dt b s h).mono (qs := nodeParts)
  | insertionDecision dt tags slots => exact (execInsertionDecision_fr dt tags slots s h).mono (qs := nodeParts)
  | cellDecision dt b => exact (execCellDecision_fr dt b s h).mono (qs := nodeParts)
  | claimPassageEnd dt => exact (execClaimPassageEnd_fr dt s h).mono (qs := nodeParts)
  | returnHeader dt src => exact (execReturnHeader_fr dt src s h).mono (qs := nodeParts)
  | returnTripBlock dt src => exact (execReturnTripBlock_fr dt src s h).mono (qs := nodeParts)
  | passageToRun dt b => exact (execPassageToRun_fr dt b s h).mono (qs := nodeParts)
  | slotReception dt n src => exact (execSlotReception_fr dt n src s h).mono (qs := nodeParts)
  | slotAreaEnd dt src => exact (execSlotAreaEnd_fr dt src s h).mono (qs := nodeParts)
  | cellDelivery dt src => exact (execCellDelivery_fr dt src s h).mono (qs := nodeParts)
  | origination dt => exact (execOrigination_fr dt s h).mono (qs := nodeParts)
  | masterRingLoss dt => exact (execMasterRingLoss_fr dt s h).mono (qs := nodeParts)
  | nodeMissing dt b => exact (execNodeMissing_fr dt b s h).mono (qs := nodeParts)
  | applyInstant dt => exact (execApplyInstant_fr dt s h).mono (qs := nodeParts)
  | localCycleTimerExpiry dt => exact (execLocalCycleTimerExpiry_fr dt s h).mono (qs := nodeParts)
  | ringLoss dt => exact (execRingLoss_fr dt s h).mono (qs := nodeParts)
  | endNodeCondition dt => exact (execEndNodeCondition_fr dt s h).mono (qs := nodeParts)
  | rampEnd dt => exact (execRampEnd_fr dt s h).mono (qs := nodeParts)
  | stopRampEnd dt => exact (execStopRampEnd_fr dt s h).mono (qs := nodeParts)
  | localStopEnd dt => exact (execLocalStopEnd_fr dt s h).mono (qs := nodeParts)
  | sourceLost dt n => exact (execSourceLost_fr dt n s h).mono (qs := nodeParts)
  | stopTimeout dt => exact (execStopTimeout_fr dt s h).mono (qs := nodeParts)
  | streamTimeout dt n => exact (execStreamTimeout_fr dt n s h).mono (qs := nodeParts)
  | sweep dt n => exact (execSweep_fr dt n s h).mono (qs := nodeParts)
  | slotStale dt w k => exact (execSlotStale_fr dt w k s h).mono (qs := nodeParts)
  | starvation dt => exact (execStarvation_fr dt s h).mono (qs := nodeParts)
  | tripInputActive dt n level => exact (execTripInputActive_fr dt n level s h).mono (qs := nodeParts)
  | filterExpiry dt n => exact (execFilterExpiry_fr dt n s h).mono (qs := nodeParts)
  | tripInputInactive dt n level => exact (execTripInputInactive_fr dt n level s h).mono (qs := nodeParts)
  | exposureEdge dt n level => exact (execExposureEdge_fr dt n level s h).mono (qs := nodeParts)
  | firing dt n => exact (execFiring_fr dt n s h).mono (qs := nodeParts)
  | pulseTimerExpiry dt n => exact (execPulseTimerExpiry_fr dt n s h).mono (qs := nodeParts)
  | keyRowReading dt cols => exact (execKeyRowReading_fr dt cols s h).mono (qs := nodeParts)
  | pPortCycle dt write addr beats => exact (execPPortCycle_fr dt write addr beats s h).mono (qs := nodeParts)
  | mPortBurstCompletion dt => exact (execMPortBurstCompletion_fr dt s h).mono (qs := burstParts)
  | setTarget dt => exact (execSetTarget_fr dt s h).mono (qs := nodeParts)
  | hold dt => exact (execHold_fr dt s h).mono (qs := nodeParts)
  | engage dt n => exact (execEngage_fr dt n s h).mono (qs := nodeParts)
  | disengage dt n => exact (execDisengage_fr dt n s h).mono (qs := nodeParts)
  | setGear dt n => exact (execSetGear_fr dt n s h).mono (qs := nodeParts)
  | setOffset dt n => exact (execSetOffset_fr dt n s h).mono (qs := nodeParts)
  | setSource dt n => exact (execSetSource_fr dt n s h).mono (qs := nodeParts)
  | undefinedCommandCode dt site =>
    cases site with
    | shaft => exact (State.epochWith_fr h).mono (qs := nodeParts)
    | axis n => exact (State.epochWith_fr h).mono (qs := nodeParts)
    | trip w b => exact (execUndefinedCommandCode_fr dt (.trip w b) s h).mono (qs := burstParts)
    | refresh b => exact (execUndefinedCommandCode_fr dt (.refresh b) s h).mono (qs := burstParts)
  | tripRequest dt b => exact (execTripRequest_fr dt b s h).mono (qs := burstParts)
  | resetRequest dt b => exact (execResetRequest_fr dt b s h).mono (qs := burstParts)
  | enableRequest dt b => exact (execEnableRequest_fr dt b s h).mono (qs := burstParts)
  | noticeMask dt b => exact (execNoticeMask_fr dt b s h).mono (qs := burstParts)
  | noticeClear dt b => exact (execNoticeClear_fr dt b s h).mono (qs := burstParts)
  | screenRefreshCommand dt b => exact (execScreenRefreshCommand_fr dt b s h).mono (qs := burstParts)
  | commit dt addr b => exact (execCommit_fr dt addr b s h).mono (qs := burstParts)
  | withdraw dt addr b => exact (execWithdraw_fr dt addr b s h).mono (qs := burstParts)
  | release dt addr b => exact (execRelease_fr dt addr b s h).mono (qs := burstParts)
  | camOutBeat dt addr b => exact (execCamOutBeat_fr dt addr b s h).mono (qs := burstParts)
  | screenOutBeat dt addr b => exact (execScreenOutBeat_fr dt addr b s h).mono (qs := burstParts)
  | blockedWrite dt addr b => exact (execBlockedWrite_fr dt addr b s h).mono (qs := burstParts)
  | registerWrite dt addr b => exact (execRegisterWrite_fr dt addr b s h).mono (qs := burstParts)

/-- A step is a command or one tick: either keeps a sound state sound. -/
theorem step_sound {s t : State} (hs : s.Sound) (h : step s = .next t) : t.Sound := by
  cases hp : s.pending with
  | nil =>
    rw [step_nil hp] at h
    cases h
    exact (s.elapse_fr 1).sound hs
  | cons c rest =>
    rw [step_cons hp] at h
    exact (exec_fr c h).sound ⟨hs.mem, hs.shadow, hs.mask, hs.lde, hs.tx, hs.keys⟩

/-- Settles O5: `step_sound`. -/
theorem everyStepKeepsTheStateSound : Obligations.EveryStepKeepsTheStateSound := fun _ _ hs h => step_sound hs h

/-- Settles O7: a row that carries no burst has no memory among its parts (`exec_fr`). -/
theorem memoryChangesOnlyByBursts : Obligations.MemoryChangesOnlyByBursts := by
  intro c s t hc h a
  have hmem : Part.mem ∉ commandParts c := by
    rw [commandParts, hc, if_neg (by decide)]
    decide
  rw [(exec_fr c h).keeps_mem hmem]

/-! ### How every command ends (R42, R46) -/

theorem State.checked_arbitrates {s t : State} {ok : Bool} {dt : Nat} {f : State → State}
    (h : s.checked ok dt f = .next t) : ∃ u : State, t = u.arbitrate := by
  unfold State.checked at h
  split at h
  · cases h
    exact ⟨_, rfl⟩
  · cases h

/-- Every command but the pin reset ends with the arbiter's work (log 79). -/
theorem exec_ends {s t : State} (c : Instr) (h : exec c s = .next t) :
    (∃ u : State, t = u.arbitrate) ∨ ∃ u : State, t = u.pinReset := by
  cases c with
  | pinReset dt =>
    cases h
    exact .inr ⟨_, rfl⟩
  | flashBodyRead dt bs =>
    change execFlashBodyRead dt bs s = _ at h
    unfold execFlashBodyRead at h
    split at h
    · cases h
      exact .inl ⟨_, rfl⟩
    · cases h
  | flashHeaderRead | outRunHeader | entryIntoJoined | outRunTripBlock | insertionDecision | cellDecision | returnHeader
  | returnTripBlock | passageToRun | slotReception | slotAreaEnd | cellDelivery | nodeMissing | pPortCycle =>
    exact .inl (State.checked_arbitrates h)
  | undefinedCommandCode dt site =>
    cases site <;> (cases h; exact .inl ⟨_, rfl⟩)
  | _ =>
    cases h
    exact .inl ⟨_, rfl⟩

/-- After a pin reset the M-port is free and nothing is queued (R46). -/
theorem State.pinReset_served (s : State) : s.pinReset.Served := fun _ => ⟨rfl, rfl, rfl⟩

/-- Settles O6: `exec_ends`, and what the arbiter leaves; one tick alone changes nothing the arbiter looks at. -/
theorem everyStepLeavesTheArbiterServed : Obligations.EveryStepLeavesTheArbiterServed := by
  intro s t hs h
  cases hp : s.pending with
  | nil =>
    rw [step_nil hp] at h
    cases h
    exact hs.elapse 1
  | cons c rest =>
    rw [step_cons hp] at h
    obtain ⟨u, rfl⟩ | ⟨u, rfl⟩ := exec_ends c h
    · exact u.arbitrate_served
    · exact u.pinReset_served

/-! ### After reset (R46, R187) -/

/-- After reset every speed is 0 and no ramp runs. -/
theorem State.reset_speeds : State.reset.SpeedsBounded where
  gen := Nat.zero_le _
  genRamp _ h := nomatch h
  stepping _ _ h := nomatch h
  stop _ _ h := nomatch h
  shadow := Nat.zero_le _
  shadowRamp _ h := nomatch h

theorem State.reset_residues : State.reset.ResiduesBounded := by
  intro n
  exact .inl (by simp [State.reset, Axu.reset, Axis.reset])

/-- Settles O4. -/
theorem resetStateIsSound : Obligations.ResetStateIsSound :=
  ⟨State.reset_sound, fun _ => ⟨rfl, rfl, rfl⟩, rfl, State.reset_speeds, State.reset_residues, Flu.reset_bounded⟩

/-! ### Starvation (R42, R43) -/

/-- A held M-port is not granted. -/
theorem State.arbitrate_held {s : State} (h : s.lde.holder ≠ .free) : s.arbitrate = s := if_pos h

/-- A starved NORMAL entry goes ahead of a P-port cycle, and of nothing URGENT (R42). -/
theorem State.arbitrate_starved {s : State} (hf : s.lde.holder = .free) (hu : s.lde.urgent = []) (hn : s.lde.normal ≠ [])
    (hs : s.lde.starved = true) : s.arbitrate = s.giveTo .normal := by
  have hstarve : s.starve = s := by
    unfold State.starve
    split
    · have e : ({ s.lde with starved := true } : Lde) = s.lde := by rw [← hs]
      exact congrArg (fun q => ({ s with lde := q } : State)) e
    · rfl
  have hne : s.lde.normal.isEmpty = false := by simpa using hn
  unfold State.arbitrate
  rw [if_neg (not_not.2 hf), hstarve]
  dsimp only
  rw [hu, hne, hs, if_neg (by decide), if_neg (by simp), if_pos (by decide)]

/-- Settles O57: the row marks the entry at a held M-port; `State.arbitrate_starved`. -/
theorem starvedEntriesGoAheadOfTheProcessor : Obligations.StarvedEntriesGoAheadOfTheProcessor := by
  refine ⟨fun dt e rest s hserved hn hw => ?_, fun s hf hu hn hs => State.arbitrate_starved hf hu hn hs⟩
  have hreached : (s.elapse dt).waitReached = true := by
    unfold State.waitReached
    rw [State.elapse_lde, hn]
    exact decide_eq_true hw
  have hheld : s.lde.holder ≠ .free := fun hf => by
    obtain ⟨-, hempty, -⟩ := hserved hf
    rw [hn] at hempty
    cases hempty
  have hrow : (s.elapse dt).starve = (s.elapse dt).onLde fun q => { q with starved := true } := if_pos hreached
  refine ⟨_, exec_event State.starve hrow, ?_⟩
  have hend : State.settle (s.elapse dt) ((s.elapse dt).onLde fun q => { q with starved := true }) =
      (s.elapse dt).onLde fun q => { q with starved := true } := by
    unfold State.settle
    rw [State.reportTrip_id (s := s.elapse dt) (t := (s.elapse dt).onLde _) rfl rfl]
    exact State.arbitrate_held hheld
  rw [hend]
  exact ⟨rfl, State.effect_only _ (State.onLde_fr _ _ fun k => k)⟩

end Sys2Proof.Machine

/-! Proofs, section 31. Memory: a word written, and a run of words (R26, R38, R45). -/

namespace Sys2Proof.Machine

set_option Elab.async false

section
variable {m : List Host.Cell} {wa a : Nat}

theorem Memory.byte_setByte (h : Memory.wf m = true) (a b : Nat) (v : Byte) :
    Memory.byte (Memory.setByte m a v) b = if b % Memory.size = a % Memory.size then v else Memory.byte m b :=
  Cells.get_set m _ _ v h

/-- The bytes of a word written one after another, those of the list `l` so far (R26). -/
theorem Memory.byte_setBytes (v : Word) (be : BitVec 4) (hwa : wa < 2 ^ 24) (ha : a < Memory.size) (l : List Nat)
    (hl : ∀ i ∈ l, i < 4) (h : Memory.wf m = true) :
    Memory.byte (l.foldl (fun m i => if be.getLsbD i then Memory.setByte m (4 * wa + i) (wordByte v i) else m) m) a =
      if a / 4 = wa ∧ a % 4 ∈ l ∧ be.getLsbD (a % 4) = true then wordByte v (a % 4) else Memory.byte m a := by
  have hsize : Memory.size = 67108864 := rfl
  induction l generalizing m with
  | nil => simp
  | cons i l ih =>
    have hi : i < 4 := hl i (List.mem_cons_self ..)
    have ih' := fun {m} => ih (m := m) fun j hj => hl j (List.mem_cons_of_mem _ hj)
    rw [List.foldl_cons]
    cases hbe : be.getLsbD i with
    | false =>
      rw [if_neg (by decide), ih' h]
      have hiff : (a % 4 ∈ l ∧ be.getLsbD (a % 4) = true) ↔ (a % 4 ∈ i :: l ∧ be.getLsbD (a % 4) = true) := by
        refine ⟨fun k => ⟨List.mem_cons_of_mem _ k.1, k.2⟩, fun k => ⟨(List.mem_cons.1 k.1).resolve_left ?_, k.2⟩⟩
        rintro e
        rw [e, hbe] at k
        exact Bool.false_ne_true k.2
      simp only [hiff]
    | true =>
      rw [if_pos rfl, ih' (Memory.setByte_wf m _ _ h), Memory.byte_setByte h]
      by_cases hat : a = 4 * wa + i
      · have h1 : a / 4 = wa := by omega
        have h2 : a % 4 = i := by omega
        rw [if_pos (congrArg (· % Memory.size) hat), h2]
        simp [h1, hbe]
      · have hne : ¬ a % Memory.size = (4 * wa + i) % Memory.size := by
          rw [hsize] at ha ⊢
          omega
        rw [if_neg hne]
        have hiff : (a / 4 = wa ∧ a % 4 ∈ i :: l ∧ be.getLsbD (a % 4) = true) ↔
            (a / 4 = wa ∧ a % 4 ∈ l ∧ be.getLsbD (a % 4) = true) := by
          refine ⟨fun k => ⟨k.1, (List.mem_cons.1 k.2.1).resolve_left fun e => ?_, k.2.2⟩,
            fun k => ⟨k.1, List.mem_cons_of_mem _ k.2.1, k.2.2⟩⟩
          obtain ⟨k1, -, -⟩ := k
          omega
        simp only [hiff]

/-- A word written: its enabled bytes, and every other byte as before (R26). -/
theorem Memory.byte_setWord (h : Memory.wf m = true) (v : Word) (be : BitVec 4) (hwa : wa < 2 ^ 24) (ha : a < Memory.size) :
    Memory.byte (Memory.setWord m wa v be) a =
      if a / 4 = wa ∧ be.getLsbD (a % 4) = true then wordByte v (a % 4) else Memory.byte m a := by
  have hmem : a % 4 ∈ List.range 4 := List.mem_range.2 (Nat.mod_lt _ (by decide))
  unfold Memory.setWord
  rw [Memory.byte_setBytes v be hwa ha _ (fun i hi => List.mem_range.1 hi) h]
  simp only [hmem, true_and]

/-- Whole words written one after another (R38). -/
theorem Memory.byte_setWords (ws : List Word) (h : Memory.wf m = true) (hwa : wa + ws.length ≤ 2 ^ 24)
    (ha : a < Memory.size) : Memory.byte (Memory.setWords m wa ws) a =
      if wa ≤ a / 4 ∧ a / 4 < wa + ws.length then wordByte (ws.getD (a / 4 - wa) 0) (a % 4) else Memory.byte m a := by
  induction ws generalizing m wa with
  | nil => rw [if_neg (by simp)]; rfl
  | cons w ws ih =>
    rw [List.length_cons] at hwa ⊢
    have hfull : (15 : BitVec 4).getLsbD (a % 4) = true := by
      have hlt : a % 4 < 4 := Nat.mod_lt _ (by decide)
      interval_cases a % 4 <;> rfl
    show Memory.byte (Memory.setWords (Memory.setWord m wa w 15) (wa + 1) ws) a = _
    rw [ih (Memory.setWord_wf m wa w 15 h) (by omega), Memory.byte_setWord h w 15 (by omega) ha, hfull]
    by_cases hat : a / 4 = wa
    · rw [if_neg (by omega), if_pos ⟨hat, rfl⟩, if_pos (by omega), hat, Nat.sub_self]
      rfl
    · rw [if_neg (fun k : a / 4 = wa ∧ _ => hat k.1)]
      by_cases hin : wa + 1 ≤ a / 4 ∧ a / 4 < wa + 1 + ws.length
      · rw [if_pos hin, if_pos (by omega), show a / 4 - wa = a / 4 - (wa + 1) + 1 by omega, List.getD_cons_succ]
      · rw [if_neg hin, if_neg (by omega)]

/-- A word's bytes make it up. -/
theorem wordOf_wordByte (v : Word) : wordOf (wordByte v 0) (wordByte v 1) (wordByte v 2) (wordByte v 3) = v := by
  refine BitVec.eq_of_getLsbD_eq fun i hi => ?_
  unfold wordOf wordByte
  simp only [BitVec.getLsbD_append, BitVec.getLsbD_extractLsb']
  by_cases h1 : i < 8
  · simp [h1]
  · by_cases h2 : i < 16
    · simp [h1, show i - 8 < 8 by omega, show 8 + (i - 8) = i by omega]
    · by_cases h3 : i < 24
      · simp [h1, show ¬ i - 8 < 8 by omega, show i - 8 - 8 < 8 by omega, show 16 + (i - 8 - 8) = i by omega]
      · simp [h1, show ¬ i - 8 < 8 by omega, show ¬ i - 8 - 8 < 8 by omega, show i - 8 - 8 - 8 < 8 by omega,
          show 24 + (i - 8 - 8 - 8) = i by omega]

/-- The words of a run that was written read back (R45). -/
theorem Memory.word_setWords {ws : List Word} (h : Memory.wf m = true) (hwa : wa + ws.length ≤ 2 ^ 24) {i : Nat}
    (hi : i < ws.length) : Memory.word (Memory.setWords m wa ws) (wa + i) = ws[i] := by
  have hsize : Memory.size = 67108864 := rfl
  have hbyte : ∀ j < 4, Memory.byte (Memory.setWords m wa ws) (4 * (wa + i) + j) = wordByte ws[i] j := by
    intro j hj
    rw [Memory.byte_setWords ws h hwa (by omega), if_pos (by omega), show (4 * (wa + i) + j) / 4 - wa = i by omega,
      show (4 * (wa + i) + j) % 4 = j by omega, List.getD_eq_getElem _ _ hi]
  unfold Memory.word
  rw [hbyte 1 (by decide), hbyte 2 (by decide), hbyte 3 (by decide),
    show Memory.byte (Memory.setWords m wa ws) (4 * (wa + i)) = wordByte ws[i] 0 from hbyte 0 (by decide)]
  exact wordOf_wordByte _

end

/-- Settles O10: `Memory.byte_setWord`. -/
theorem memoryReadsBackWhatWasWritten : Obligations.MemoryReadsBackWhatWasWritten := fun m wa v be _ h hwa ha =>
  ⟨Memory.setWord_wf m wa v be h, Memory.byte_setWord h v be hwa ha⟩

end Sys2Proof.Machine

/-! Proofs, section 32. The NORMAL entries queued at an epoch stay queued, pending marks survive the end of an event, and the
course of an epoch that is due from a header (R35, R37, R41, R42). -/

namespace Sys2Proof.Machine

set_option Elab.async false

/-- Every NORMAL entry queued in `s` is queued in `t`, at its place. -/
def NormalStays (s t : State) : Prop := s.lde.normal <+: t.lde.normal

section
variable {s t u : State}

theorem NormalStays.refl (s : State) : NormalStays s s := List.prefix_rfl

theorem NormalStays.trans (h : NormalStays s t) (k : NormalStays t u) : NormalStays s u := List.IsPrefix.trans h k

theorem NormalStays.of_eq (h : t.lde.normal = s.lde.normal) : NormalStays s t := by
  unfold NormalStays
  rw [h]

/-- An operation that does not touch the landing queue. -/
theorem NormalStays.frame {ps : List Part} (f : Frame ps s t) (m : Part.lde ∉ ps := by decide) : NormalStays s t :=
  .of_eq (congrArg Lde.normal (f.keeps_lde m))

theorem NormalStays.ite {c : Prop} [Decidable c] (h : NormalStays s t) (k : NormalStays s u) :
    NormalStays s (if c then t else u) := by
  split
  · exact h
  · exact k

theorem NormalStays.foldl {α : Type} (f : State → α → State) (hf : ∀ u x, NormalStays u (f u x)) (l : List α) (s : State) :
    NormalStays s (l.foldl f s) := by
  induction l generalizing s with
  | nil => exact .refl s
  | cons x l ih => exact (hf s x).trans (ih _)

/-- A result requested stays requested. -/
theorem State.ResultRequested.stays {wa : Nat} {w : Word} (h : s.ResultRequested wa w) (k : NormalStays s t) :
    t.ResultRequested wa w := by
  obtain ⟨e, he, hreq, hrun⟩ := h
  exact ⟨e, k.subset he, hreq, hrun⟩

/-! ### Requests -/

theorem State.requestUrgent_normal (s : State) (src : UrgentSource) (runs : List Run) :
    (s.requestUrgent src runs).lde.normal = s.lde.normal := by
  rw [State.requestUrgent_lde]
  split
  · rfl
  · exact (Lde.requestUrgent_keeps _ _ _).2

theorem NormalStays.requestNormal (s : State) (r : Requester) (l : List Run) : NormalStays s (s.requestNormal r l) :=
  .ite (.of_eq rfl) (List.prefix_append _ _)

theorem State.normalFull_of_room (h : s.lde.normal.length < 20) : s.normalFull = false := by
  unfold State.normalFull
  exact decide_eq_false (Nat.not_le.2 h)

/-- At a queue with room every run of a result is requested (R37). -/
theorem State.requestNormal_result {runs : List Run} {wa : Nat} {w : Word} (h : s.lde.normal.length < 20)
    (hr : ({ addr := wa, words := [w] } : Run) ∈ runs) : (s.requestNormal .result runs).ResultRequested wa w := by
  rw [State.requestNormal_room (State.normalFull_of_room h)]
  exact ⟨_, List.mem_append_right _ (List.mem_singleton.2 rfl), rfl, hr⟩

theorem State.requestNormal_length (s : State) (r : Requester) (l : List Run) :
    (s.requestNormal r l).lde.normal.length ≤ s.lde.normal.length + 1 := by
  unfold State.requestNormal
  split
  · exact Nat.le_succ _
  · simp

/-! ### The blocks' work at an epoch -/

theorem State.ageWindow_normal (s : State) (i : Fin 8) : (s.ageWindow i).lde.normal = s.lde.normal := by
  unfold State.ageWindow
  split
  · dsimp only
    rw [State.requestUrgent_normal, State.notifyIf_lde]
    rfl
  · rfl

theorem State.sluEpoch_normal (s : State) : s.sluEpoch.lde.normal = s.lde.normal := by
  unfold State.sluEpoch
  rw [(State.handStale_fr _ _).keeps_lde]
  exact foldl_keeps State.ageWindow (fun u : State => u.lde.normal) _ (fun u i _ => u.ageWindow_normal i) s

theorem NormalStays.axuEpoch (s : State) (y mark : Bool) : NormalStays s (s.axuEpoch y mark) := by
  have h1 : NormalStays s (s.axisSteps mark) := .of_eq rfl
  unfold State.axuEpoch
  dsimp only
  split
  · rename_i w _
    have h2 := h1.trans (.of_eq (State.requestUrgent_normal (s.axisSteps mark) .axis ((s.axisSteps mark).axisSweep w y)))
    exact .ite h2 (h2.trans (.requestNormal _ _ _))
  · exact h1

theorem NormalStays.endImage (s : State) (i : Fin 4) (c : Bool) : NormalStays s (s.endImage i c) := by
  unfold State.endImage
  dsimp only
  split
  · refine .ite ?_ ?_
    · exact NormalStays.trans (t := State.requestNormal (s.onStream i _) _ _)
        (NormalStays.requestNormal (s.onStream i _) _ _) (.of_eq rfl)
    · exact NormalStays.requestNormal (s.onStream i _) _ _
  · exact .refl s

theorem NormalStays.streamEpoch (s : State) (i : Fin 4) : NormalStays s (s.streamEpoch i) := by
  unfold State.streamEpoch
  dsimp only
  split
  · exact .ite (NormalStays.endImage (s.onStream i _) i false) (.of_eq rfl)
  · exact .refl s

theorem NormalStays.iguEpoch (s : State) : NormalStays s s.iguEpoch := .foldl _ (fun u i => .streamEpoch u i) _ s

theorem NormalStays.fetchTile (s : State) (i : Fin 2) (w : Window) (p : ScreenParams) (k : Nat) :
    NormalStays s (s.fetchTile i w p k) := by
  have h := NormalStays.requestNormal (s.onOut i fun o => { o with dirty := clearDirty o.dirty k, scan := nextTile p k })
    (.tileRead i k) (tileRuns w p k fun _ => List.replicate 8 0)
  exact .ite (h.trans (.of_eq rfl)) (h.trans (.of_eq rfl))

theorem NormalStays.tryFetch (s : State) : NormalStays s s.tryFetch :=
  State.tryFetch_cases (NormalStays s) (.refl s) fun _ i w p k ht => ht.trans (.fetchTile _ i w p k)

theorem NormalStays.sweepEpoch (s : State) (i : Fin 2) : NormalStays s (s.sweepEpoch i) := by
  unfold State.sweepEpoch
  split
  · exact .ite (.refl s) (.ite (NormalStays.tryFetch (s.onOut i _)) (.of_eq rfl))
  · exact .refl s

theorem NormalStays.scuEpoch (s : State) : NormalStays s s.scuEpoch := (NormalStays.sweepEpoch s 0).trans (.sweepEpoch _ 1)

/-! ### The end of every event -/

/-- Beats that need no memory change the cycle's answers and the blocked-write latch only (R33, R34). -/
theorem State.acceptBeats_ptu (s : State) (w : Bool) (bs : List PBeat) (hb : ∀ b ∈ bs, b.id.reaches w = false) :
    ∃ c l, (s.acceptBeats w bs).ptu = { s.ptu with cycle := c, latch := l } := by
  induction bs generalizing s with
  | nil => exact ⟨_, _, rfl⟩
  | cons b bs ih =>
    obtain ⟨c, l, e⟩ := ih (s.acceptBeat w b) fun x hx => hb x (List.mem_cons_of_mem _ hx)
    have h1 : ∃ c1 l1, (s.acceptBeat w b).ptu = { s.ptu with cycle := c1, latch := l1 } := by
      have hr := hb b (List.mem_cons_self ..)
      cases w with
      | false => exact ⟨_, _, rfl⟩
      | true =>
        show ∃ c1 l1, (s.writeBeat b).ptu = _
        unfold State.writeBeat
        unfold Ident.reaches at hr
        cases hc : b.id.wordClass with
        | landed => exact ⟨_, _, rfl⟩
        | substituted => exact ⟨_, _, rfl⟩
        | outside => rw [hc] at hr; cases hr
        | ordinary => rw [hc] at hr; cases hr
        | capture => rw [hc] at hr; cases hr
    obtain ⟨c1, l1, e1⟩ := h1
    exact ⟨c, l, by
      show ((s.acceptBeat w b).acceptBeats w bs).ptu = _
      rw [e, e1]⟩

theorem State.passBeats_ptu (s : State) : ∃ c l, s.passBeats.ptu = { s.ptu with cycle := c, latch := l } := by
  unfold State.passBeats
  split
  · exact State.acceptBeats_ptu _ _ _ fun b hb => by simpa using List.mem_takeWhile_imp hb
  · exact ⟨_, _, rfl⟩

/-- The arbiter changes the P-port's cycle in progress and its latch only. -/
theorem State.arbitrate_ptu (s : State) : ∃ c l, s.arbitrate.ptu = { s.ptu with cycle := c, latch := l } := by
  have hs : s.starve.ptu = s.ptu := s.starve_fr.keeps_ptu
  have same : ∀ x : State, x.ptu = s.starve.ptu → ∃ c l, x.ptu = { s.ptu with cycle := c, latch := l } := fun x hx =>
    ⟨_, _, hx.trans hs⟩
  unfold State.arbitrate
  split
  · exact ⟨_, _, rfl⟩
  · dsimp only
    split
    · exact same _ rfl
    · split
      · obtain ⟨c, l, e⟩ := State.passBeats_ptu ((s.starve.giveTo .cycle).onPtu fun p =>
          { p with cycle := p.cycle.map fun c => { c with granted := true } })
        refine ⟨c, l, e.trans ?_⟩
        show ({ s.starve.ptu with cycle := c, latch := l } : Ptu) = _
        rw [hs]
      · split
        · exact same _ rfl
        · exact same _ rfl

theorem State.settle_ptu (s0 s : State) : ∃ c l, (State.settle s0 s).ptu = { s.ptu with cycle := c, latch := l } := by
  obtain ⟨c, l, e⟩ := (State.reportTrip s0 s).arbitrate_ptu
  exact ⟨c, l, by rw [State.settle, e, (State.reportTrip_fr s0 s).keeps_ptu]⟩

/-- The end of every event leaves the pending marks alone (R35). -/
theorem State.settle_pends (s0 s : State) : (State.settle s0 s).ptu.shaftPending = s.ptu.shaftPending ∧
    (State.settle s0 s).ptu.axisPending = s.ptu.axisPending := by
  obtain ⟨c, l, e⟩ := State.settle_ptu s0 s
  rw [e]
  exact ⟨rfl, rfl⟩

theorem State.arbitrate_lde (s : State) : s.arbitrate.lde.normal = s.lde.normal ∧ s.arbitrate.lde.urgent = s.lde.urgent := by
  have hs : s.starve.lde.normal = s.lde.normal ∧ s.starve.lde.urgent = s.lde.urgent := by
    unfold State.starve
    split <;> exact ⟨rfl, rfl⟩
  unfold State.arbitrate
  split
  · exact ⟨rfl, rfl⟩
  · dsimp only
    split
    · exact hs
    · split
      · have hl : s.starve.grantCycle.lde = (s.starve.giveTo .cycle).lde := (State.passBeats_fr _).keeps_lde
        rw [hl]
        exact hs
      · split
        · exact hs
        · exact hs

theorem State.reportTrip_normal (s0 s : State) : (State.reportTrip s0 s).lde.normal = s.lde.normal := by
  have hland : ∀ u : State, u.landTripRecord.lde.normal = u.lde.normal := by
    intro u
    unfold State.landTripRecord
    split
    · exact State.requestUrgent_normal _ _ _
    · rfl
  unfold State.reportTrip
  split
  · dsimp only
    split
    · rw [hland, State.notifyIf_lde]
    · rw [State.notifyIf_lde]
  · rfl

theorem NormalStays.settle (s0 s : State) : NormalStays s (State.settle s0 s) :=
  .of_eq ((State.arbitrate_lde _).1.trans (State.reportTrip_normal s0 s))

/-! ### An epoch that is due from a header -/

/-- The work of an epoch from the Camera Unit on queues, and takes nothing from the queue. -/
theorem NormalStays.epochTail (s : State) (a x : Bool) (hdr : Option HeaderShaft) (mark : Bool) :
    NormalStays (s.axesDone a hdr mark) ((s.epochBody a x hdr mark).iguEpoch).scuEpoch := by
  have hbody : NormalStays (s.axesDone a hdr mark) (s.epochBody a x hdr mark) := by
    have h4 : NormalStays (s.axesDone a hdr mark)
        (if x then (s.axesDone a hdr mark).handSourceLost.cmuEpoch mark else ((s.axesDone a hdr mark).cmuEpoch mark).handSourceLost) :=
      .ite ((NormalStays.frame (State.handSourceLost_fr _)).trans (.frame (State.cmuEpoch_fr _ _)))
        ((NormalStays.frame (State.cmuEpoch_fr _ _)).trans (.frame (State.handSourceLost_fr _)))
    exact .ite h4 (h4.trans (.of_eq (State.sluEpoch_normal _)))
  exact (hbody.trans (.iguEpoch _)).trans (.scuEpoch _)

/-- The state in which the blocks' work at a due epoch from the entry `e` begins (R21, R22). -/
def State.dueFront (s : State) (dt : Nat) (e : PendingEntry) : State :=
  let y := ((s.elapse dt).onFlu fun u => { u with entries := [] }).headerWatched e
  { y with free := y.free + 4 }

theorem State.dueFront_fr (s : State) (dt : Nat) (e : PendingEntry) : Frame [.now, .free, .flu, .flags] s (s.dueFront dt e) :=
  ((((s.elapse_fr dt).mono).comp (State.onFlu_fr _ _)).comp (State.headerWatched_fr _ e)).comp (State.draw_fr _ _)

/-- The master's state is no matter of an epoch (R16). -/
theorem State.dueFront_mstate (s : State) (dt : Nat) (e : PendingEntry) : (s.dueFront dt e).flu.mstate = s.flu.mstate := by
  show (State.headerWatched _ e).flu.mstate = _
  rw [State.headerWatched_flu]
  rfl

/-- A due epoch from a header: the line shaft and the axes work from `State.dueFront`, and what follows them leaves them as they
are and keeps the NORMAL queue (R21, R22). -/
theorem State.dueEpoch_course {dt : Nat} {e : PendingEntry} (h : s.HeaderEpochDue dt e) : ∃ a,
    let d := (s.dueFront dt e).axesDone a (some e.shaft) s.flu.resyncArmed
    Frame [.tru, .slu, .cmu, .igu, .scu, .flags, .lde] d (s.elapse dt).dueEpoch ∧ NormalStays d (s.elapse dt).dueEpoch := by
  obtain ⟨htake, hdue⟩ := State.dueEpoch_takes h
  rw [State.takeEntry_works (by exact h.fresh)] at htake
  obtain ⟨a, x, hwork⟩ := State.epochWork_tail
    (((s.elapse dt).onFlu fun u => { u with entries := [] }).headerWatched e) (some e.shaft) s.flu.resyncArmed
  rw [hdue, htake]
  refine ⟨a, ?_⟩
  have hall : State.epochWork _ (some e.shaft) s.flu.resyncArmed false =
    (((s.dueFront dt e).epochBody a x (some e.shaft) s.flu.resyncArmed).iguEpoch).scuEpoch := hwork
  refine ⟨?_, ?_⟩
  · refine hall ▸ ?_
    exact (((State.epochBody_tail _ a x _ _).mono).comp (State.iguEpoch_fr _)).comp (State.scuEpoch_fr _)
  · refine hall ▸ ?_
    exact .epochTail _ a x _ _

/-- The frame of an epoch's row (log 4). -/
theorem State.dueEpoch_only (s : State) (dt : Nat) :
    OnlyTouches epochParts s (State.settle (s.elapse dt) (s.elapse dt).dueEpoch) :=
  State.settled_only _ ((State.dueEpoch_fr (s.elapse dt)).mono (qs := epochParts))

end

end Sys2Proof.Machine

/-! Proofs, section 33. The SHAFT commands at an epoch (R36, R48 to R53, R55). -/

namespace Sys2Proof.Machine

set_option Elab.async false

section
variable {s t : State}

/-! ### The line shaft's command -/

/-- Result code and generator of a SHAFT command judged under the class `act`, behind the trip reaction (R48, R51, R52). -/
def State.shaftOutcome (s : State) (act : TripClass) (word : Word) (vt n : Nat) : ResultCode × Gen :=
  (s.onTru fun t => { t with acting := act }).judgeShaft
    (if s.isMaster then s.lsu.gen.react s.cfg act else s.lsu.gen) word vt n

/-- The judgement rests on role, configuration, acting class and master state alone. -/
theorem State.judgeShaft_congr (hm : t.isMaster = s.isMaster) (hc : t.cfg = s.cfg) (hs : t.flu.mstate = s.flu.mstate)
    (ha : t.tru.acting = s.tru.acting) (g : Gen) (w : Word) (vt n : Nat) : t.judgeShaft g w vt n = s.judgeShaft g w vt n := by
  unfold State.judgeShaft
  rw [hm, hc, hs, ha]

theorem State.shaftOutcome_congr {act : TripClass} (hm : t.isMaster = s.isMaster) (hc : t.cfg = s.cfg) (hl : t.lsu = s.lsu)
    (hs : t.flu.mstate = s.flu.mstate) (w : Word) (vt n : Nat) : t.shaftOutcome act w vt n = s.shaftOutcome act w vt n := by
  unfold State.shaftOutcome
  rw [State.judgeShaft_congr (t := t.onTru _) (s := s.onTru fun t => { t with acting := act }) hm hc hs rfl, hm, hc, hl]

/-- The generator's epoch with a command pending (R48). -/
theorem State.generatorEpoch_takes {w : Window} {word : Word} {vt n : Nat} (h : s.shaftCommand = some (w, word, vt, n)) :
    let j := s.shaftOutcome s.tru.acting word vt n
    s.generatorEpoch.1.lsu.gen = (if s.isMaster then j.2.stepSpeed.integrate else j.2) ∧
      s.generatorEpoch.2 = some (w, resultWord (cmdTag word) j.1 0) := by
  unfold State.generatorEpoch
  rw [h]
  exact ⟨rfl, rfl⟩

/-- What the epoch's work on the line shaft makes of the generator, of a result, and of the NORMAL queue's length. -/
theorem State.lsuEpoch_works (s : State) (hdr : Option HeaderShaft) (mark : Bool) :
    (s.lsuEpoch hdr mark).lsu.gen = s.generatorEpoch.1.lsu.gen ∧
      (∀ w word, s.generatorEpoch.2 = some (w, word) → s.lde.normal.length < 20 →
        (s.lsuEpoch hdr mark).ResultRequested (w.word + 3) word) ∧
      (s.lsuEpoch hdr mark).lde.normal.length ≤ s.lde.normal.length + 1 := by
  have h1 : ∀ x : State, x.lsu.gen = s.generatorEpoch.1.lsu.gen → x.lde.normal = s.lde.normal →
      ∀ r : Option (Window × Word), let y := (match r with
        | some (w, word) => x.requestResult (w.word + 3) word
        | none => x)
      y.lsu.gen = s.generatorEpoch.1.lsu.gen ∧
        (∀ w word, r = some (w, word) → s.lde.normal.length < 20 → y.ResultRequested (w.word + 3) word) ∧
        y.lde.normal.length ≤ s.lde.normal.length + 1 := by
    intro x hx hn r
    cases r with
    | none =>
      refine ⟨hx, fun w word h => ?_, ?_⟩
      · cases h
      · exact hn ▸ Nat.le_succ _
    | some r =>
      refine ⟨(congrArg Lsu.gen (State.requestResult_fr x _ _).keeps_lsu).trans hx, fun w word h hlen => ?_, ?_⟩
      · cases h
        exact State.requestNormal_result (by rw [hn]; exact hlen) (List.mem_singleton.2 rfl)
      · exact hn ▸ State.requestNormal_length x _ _
  unfold State.lsuEpoch
  refine h1 _ ?_ ?_ _
  · cases s.cfg.only .shaft with
    | none => rfl
    | some w => rw [(State.requestUrgent_fr _ _ _).keeps_lsu]; rfl
  · cases s.cfg.only .shaft with
    | none => rfl
    | some w => exact State.requestUrgent_normal _ _ _

/-! ### From the line shaft's work to the end of the event -/

/-- The state in which the line shaft works at an epoch, the slots aged first or not. -/
def State.aged (s : State) (a : Bool) : State := if a then s.sluEpoch else s

theorem State.aged_fr (s : State) (a : Bool) : Frame [.tru, .slu, .cmu, .flags, .lde] s (s.aged a) :=
  Frame.ite s.sluEpoch_fr (Frame.refl _ _)

theorem State.aged_normal (s : State) (a : Bool) : (s.aged a).lde.normal = s.lde.normal := by
  unfold State.aged
  split
  · exact s.sluEpoch_normal
  · rfl

theorem State.axesDone_eq (s : State) (a : Bool) (hdr : Option HeaderShaft) (mark : Bool) :
    s.axesDone a hdr mark = (((s.aged a).lsuEpoch hdr mark).truEpoch).axuEpoch hdr.isNone mark := rfl

/-- From the line shaft's work on, generator and its command are left alone, and the NORMAL queue is kept. -/
theorem State.axesDone_shaft (s : State) (a : Bool) (hdr : Option HeaderShaft) (mark : Bool) :
    let y := (s.aged a).lsuEpoch hdr mark
    (s.axesDone a hdr mark).lsu = y.lsu ∧ (s.axesDone a hdr mark).ptu.shaftPending = y.ptu.shaftPending ∧
      NormalStays y (s.axesDone a hdr mark) := by
  rw [State.axesDone_eq]
  intro y
  refine ⟨(State.axuEpoch_fr _ _ _).keeps_lsu.trans (State.truEpoch_fr _).keeps_lsu, ?_,
    (NormalStays.frame (State.truEpoch_fr _)).trans (.axuEpoch _ _ _)⟩
  have hax : (y.truEpoch.axuEpoch hdr.isNone mark).ptu.shaftPending = y.truEpoch.ptu.shaftPending := by
    unfold State.axuEpoch
    dsimp only
    split
    · split
      · rw [(State.requestUrgent_fr _ _ _).keeps_ptu]; rfl
      · rw [(State.requestNormal_fr _ _ _).keeps_ptu, (State.requestUrgent_fr _ _ _).keeps_ptu]; rfl
    · rfl
  rw [hax, (State.truEpoch_fr _).keeps_ptu]

/-- A SHAFT command has been taken with an outcome: the generator, the pending mark, and the result requested (R36, R48). -/
structure ShaftTaken (s t : State) (w : Window) (word : Word) (j : ResultCode × Gen) : Prop where
  gen : t.lsu.gen = if s.isMaster then j.2.stepSpeed.integrate else j.2
  taken : t.ptu.shaftPending = false
  result : t.ResultRequested (w.word + 3) (resultWord (cmdTag word) j.1 0)

theorem ShaftTaken.settle {w : Window} {word : Word} {j : ResultCode × Gen} (h : ShaftTaken s t w word j) (s0 : State) :
    ShaftTaken s (State.settle s0 t) w word j :=
  ⟨by rw [State.settle_lsu]; exact h.gen, (State.settle_pends s0 t).1.trans h.taken, h.result.stays (.settle s0 t)⟩

/-- The SHAFT command pending, from its shadows (R35). -/
theorem State.shaftCommand_eq {w : Window} (hp : s.ptu.shaftPending = true) (hw : s.cfg.only .shaft = some w) :
    s.shaftCommand = some (w, s.shadowAt w.word, (s.shadowAt (w.word + 1)).toNat, (s.shadowAt (w.word + 2)).toNat % 65536) := by
  unfold State.shaftCommand
  rw [hp, hw, if_pos rfl]
  simp [bits]

theorem State.shaftCommand_congr (hp : t.ptu = s.ptu) (hc : t.cfg = s.cfg) : t.shaftCommand = s.shaftCommand := by
  unfold State.shaftCommand State.shadowAt
  rw [hp, hc]

/-- A due epoch from a header takes the SHAFT command, under the class acting after the slots may have aged (R36, R48). -/
theorem State.dueEpoch_shaft {dt : Nat} {e : PendingEntry} {w : Window} {word : Word} {vt n : Nat} (h : s.HeaderEpochDue dt e)
    (hc : s.shaftCommand = some (w, word, vt, n)) (hl : s.lde.normal.length < 20) :
    ∃ act, (s.StaleTripsNothing → act = s.tru.acting) ∧
      ShaftTaken s (s.elapse dt).dueEpoch w word (s.shaftOutcome act word vt n) := by
  obtain ⟨a, hfr, hstay⟩ := State.dueEpoch_course h
  have hf := s.dueFront_fr dt e
  have hx := (s.dueFront dt e).aged_fr a
  have hfx : Frame [.now, .free, .flu, .tru, .slu, .cmu, .flags, .lde] s ((s.dueFront dt e).aged a) := (hf.mono).comp hx
  have hnormal : ((s.dueFront dt e).aged a).lde.normal = s.lde.normal := by rw [State.aged_normal, hf.keeps_lde]
  obtain ⟨hgen, hresult, -⟩ := ((s.dueFront dt e).aged a).lsuEpoch_works (some e.shaft) s.flu.resyncArmed
  obtain ⟨dlsu, dpend, dstay⟩ := (s.dueFront dt e).axesDone_shaft a (some e.shaft) s.flu.resyncArmed
  obtain ⟨jgen, jresult⟩ := State.generatorEpoch_takes (s := (s.dueFront dt e).aged a)
    ((State.shaftCommand_congr hfx.keeps_ptu hfx.keeps_cfg).trans hc)
  have hout : ∀ act, ((s.dueFront dt e).aged a).shaftOutcome act word vt n = s.shaftOutcome act word vt n := fun act =>
    State.shaftOutcome_congr hfx.keeps_isMaster hfx.keeps_cfg hfx.keeps_lsu
      ((congrArg Flu.mstate hx.keeps_flu).trans (s.dueFront_mstate dt e)) word vt n
  rw [hout] at jgen jresult
  refine ⟨((s.dueFront dt e).aged a).tru.acting, fun hs => ?_, ?_, ?_, ?_⟩
  · have hstale : (s.dueFront dt e).StaleTripsNothing := by
      unfold State.StaleTripsNothing
      rw [hf.keeps_cfg]
      exact hs
    exact (State.aged_silent hstale a).1.trans (congrArg Tru.acting hf.keeps_tru)
  · rw [congrArg Lsu.gen hfr.keeps_lsu, congrArg Lsu.gen dlsu, hgen, jgen, hfx.keeps_isMaster]
  · rw [congrArg Ptu.shaftPending hfr.keeps_ptu, dpend, State.lsuEpoch_ptu]
  · exact ((hresult _ _ jresult (by rw [hnormal]; exact hl)).stays dstay).stays hstay

/-- A row of a SHAFT command with a wanted code is the epoch that takes it (log 4). -/
theorem State.takesShaft_holds {dt : Nat} {w : Window} {word : Word} {vt n : Nat} {j : ResultCode × Gen} {code : Nat → Bool}
    (hc : s.shaftCommand = some (w, word, vt, n)) (hcode : code (cmdCode word) = true)
    (h : ShaftTaken s (s.elapse dt).dueEpoch w word j) : takesShaft code (s.elapse dt) (s.elapse dt).dueEpoch = true := by
  unfold takesShaft
  rw [h.taken, show (s.elapse dt).shaftCommand = s.shaftCommand from rfl, hc]
  exact hcode

/-! ### What becomes of the generator -/

/-- A generator that is not COASTED goes on where no class acts but D (R49). -/
theorem Gen.react_runs {g : Gen} {c : NodeCfg} {act : TripClass} (ha : act = .clear ∨ act = .d) (hg : g.state ≠ .coasted) :
    g.react c act = g := by
  rcases ha with rfl | rfl <;> exact if_neg hg

theorem TripClass.stops_none {act : TripClass} (ha : act = .clear ∨ act = .d) : act.stops = false := by
  rcases ha with rfl | rfl <;> rfl

/-- SET-TARGET accepted, and its ramp's first step (R51, R53, R55). -/
theorem Gen.setTarget_steps {g : Gen} {c : NodeCfg} {act : TripClass} {vt n : Nat} (h1 : g.state ≠ .stopping)
    (h2 : g.state ≠ .coasted) (ha : act.stops = false) :
    let r : Ramp := { v0 := g.speed, vt := min vt c.vmax, n := max 1 n, k := 1, cls := .clear }
    let j := g.setTarget c act true vt n
    j.1 = (if c.vmax < vt ∨ n = 0 then .clamped else .accepted) ∧ j.2.stepSpeed.integrate =
      { angle := advanceAngle g.angle r.speed, rev := advanceRev g.angle g.rev r.speed, speed := r.speed,
        state := if r.n = 1 then (if r.vt = 0 then .standstill else .running) else .ramping, ramp := some r } := by
  intro r j
  have hj : j = (if c.vmax < vt ∨ n = 0 then .clamped else .accepted, { g with
      state := .ramping, ramp := some { v0 := g.speed, vt := min vt c.vmax, n := max 1 n, k := 0, cls := .clear } }) := by
    show g.setTarget c act true vt n = _
    unfold Gen.setTarget
    rw [if_neg (by decide), if_neg (by simp [h1, h2, ha])]
  have hlast : (max 1 n ≤ 0 + 1) = (max 1 n = 1) := propext (by omega)
  rw [hj]
  refine ⟨rfl, ?_⟩
  simp only [Gen.stepSpeed, Gen.integrate, hlast]
  rfl

end

/-- Settles O47: `State.dueEpoch_shaft`, the command judged by `Gen.setTarget_steps` or held. -/
theorem shaftCommandsMoveTheGenerator : Obligations.ShaftCommandsMoveTheGenerator := by
  intro dt e w s h hs hm ha hp hw hl g word vt n
  have hc := State.shaftCommand_eq hp hw
  obtain ⟨act, hact, hj⟩ := State.dueEpoch_shaft h hc hl
  rw [hact hs] at hj
  refine ⟨fun hcode hrun h1 h2 => ?_, fun r hcode hramp hr hcls => ?_⟩
  · intro r
    have hout : s.shaftOutcome s.tru.acting word vt n = g.setTarget s.cfg s.tru.acting true vt n := by
      unfold State.shaftOutcome
      rw [if_pos hm, Gen.react_runs ha h2]
      unfold State.judgeShaft
      rw [if_pos hcode, if_pos (by exact hm)]
      show g.setTarget s.cfg s.tru.acting (decide (s.flu.mstate = .run)) vt n = _
      rw [hrun]
      rfl
    obtain ⟨hres, hgen⟩ := Gen.setTarget_steps (c := s.cfg) (vt := vt) (n := n) h1 h2 (TripClass.stops_none ha)
    have hj' : ShaftTaken s (s.elapse dt).dueEpoch w word (g.setTarget s.cfg s.tru.acting true vt n) := hout ▸ hj
    have htakes := State.takesShaft_holds (code := fun c => decide (c = 1)) hc (decide_eq_true hcode) hj'
    have hduegen := hj'.gen
    rw [if_pos hm, hgen] at hduegen
    obtain ⟨tgen, ttaken, tresult⟩ := hj'.settle (s.elapse dt)
    rw [if_pos hm, hgen] at tgen
    rw [hres] at tresult
    refine ⟨_, exec_event (fun u => u.whenOutcome State.dueEpoch (takesShaft fun c => decide (c = 1)))
      (State.whenOutcome_holds htakes), tgen, ttaken, tresult, fun hone => ?_, s.dueEpoch_only dt⟩
    refine exec_event (fun u => u.whenOutcome State.dueEpoch endsRamp) (State.whenOutcome_holds ?_)
    have hended : (s.elapse dt).dueEpoch.lsu.gen.rampEnded = true := by
      rw [hduegen]
      unfold Gen.rampEnded
      have hk : r.n ≤ r.k := hone.le
      rw [if_pos hone]
      refine Bool.and_eq_true_iff.2 ⟨decide_eq_true ?_, ?_⟩
      · split
        · exact .inr rfl
        · exact .inl rfl
      · exact Bool.and_eq_true_iff.2 ⟨rfl, decide_eq_true hk⟩
    unfold endsRamp
    rw [hended, htakes, show (s.elapse dt).isMaster = true from hm, show (s.elapse dt).flu.mstate = .run from hrun]
    simp
  · have h2 : g.state ≠ .coasted := by rw [hramp]; decide
    have hout : s.shaftOutcome s.tru.acting word vt n = (.accepted, { g with state := .held }) := by
      unfold State.shaftOutcome
      rw [if_pos hm, Gen.react_runs ha h2]
      unfold State.judgeShaft
      rw [if_neg (by rw [hcode]; decide), if_pos hcode, if_pos (by exact hm)]
      exact if_pos ⟨hramp, by rw [hr]; exact decide_eq_true hcls⟩
    have hj' : ShaftTaken s (s.elapse dt).dueEpoch w word (.accepted, { g with state := .held }) := hout ▸ hj
    have htakes := State.takesShaft_holds (code := fun c => decide (c = 2)) hc (decide_eq_true hcode) hj'
    obtain ⟨tgen, ttaken, tresult⟩ := hj'.settle (s.elapse dt)
    rw [if_pos hm] at tgen
    exact ⟨_, exec_event (fun u => u.whenOutcome State.dueEpoch (takesShaft fun c => decide (c = 2)))
      (State.whenOutcome_holds htakes), tgen, ttaken, tresult, s.dueEpoch_only dt⟩

end Sys2Proof.Machine

/-! Proofs, section 34. The AXIS commands at an epoch (R36, R68, R79 to R84). -/

namespace Sys2Proof.Machine

set_option Elab.async false

section
variable {a : Axis} {v : AxisView}

/-! ### What steps 1, 2 and 4 to 6 make of an axis (R69 to R78) -/

/-- An axis that is not ENGAGED behind steps 1 and 2: the resync mark gives a SHAFT-sourced one its reference (R78). -/
def Axis.rested (a : Axis) (v : AxisView) : Axis :=
  { a with ref := if v.resync = true ∧ a.source = .shaft then some v.shadow else a.ref }

theorem Axis.reacted_rest (h : a.state ≠ .engaged) : a.reacted v = a.rested v := by
  unfold Axis.reacted Axis.rested
  rw [Axis.tripReaction_other fun k => h k.2]
  unfold Axis.resync
  split <;> rfl

/-- Step 4 leaves the source, and what commands give. -/
theorem Axis.observe_source (a : Axis) (v : AxisView) : (a.observe v).2.source = a.source := by
  unfold Axis.observe
  split
  · rfl
  · split
    · rfl
    · rfl
    · split
      · rfl
      · split <;> rfl

/-- Steps 4 to 6 leave the source, the gear and the offset's values. -/
theorem Axis.move_settings (a : Axis) (v : AxisView) : (a.move v).source = a.source ∧ (a.move v).n = a.n ∧
    (a.move v).d = a.d ∧ (a.move v).ot = a.ot ∧ (a.move v).lslew = a.lslew := by
  obtain ⟨k, -, -⟩ := a.observe_keeps v
  have g : ∀ (b : Axis) (dA : Int), ((b.gearStep dA).slew v).source = b.source ∧ ((b.gearStep dA).slew v).n = b.n ∧
      ((b.gearStep dA).slew v).d = b.d ∧ ((b.gearStep dA).slew v).ot = b.ot ∧ ((b.gearStep dA).slew v).lslew = b.lslew := by
    intro b dA
    unfold Axis.gearStep
    split <;> exact ⟨rfl, rfl, rfl, rfl, rfl⟩
  obtain ⟨g1, g2, g3, g4, g5⟩ := g (a.observe v).2 (a.observe v).1
  exact ⟨g1.trans (a.observe_source v), g2.trans k.n, g3.trans k.d, g4.trans k.ot, g5.trans k.lslew⟩

/-- The source's record behind steps 4 to 6 is the one step 4 leaves. -/
theorem Axis.move_record (a : Axis) (v : AxisView) : (a.move v).state = (a.observe v).2.state ∧
    (a.move v).ref = (a.observe v).2.ref ∧ (a.move v).delta = (a.observe v).2.delta ∧
    (a.move v).sourceLost = (a.observe v).2.sourceLost ∧ (a.move v).extrap = (a.observe v).2.extrap := by
  obtain ⟨h1, h2, -, h4, h5, h6⟩ := Axis.gearSlew_keeps (a.observe v).2 (a.observe v).1 v
  exact ⟨h1, h2, h4, h5, h6⟩

theorem Axis.move_resyncHold (a : Axis) (v : AxisView) : (a.move v).resyncHold = a.resyncHold := by
  obtain ⟨-, hh, -⟩ := a.observe_keeps v
  rw [← hh]
  show (((a.observe v).2.gearStep (a.observe v).1).slew v).resyncHold = _
  unfold Axis.gearStep
  split <;> rfl

/-- Steps 4 to 6 at an axis that is not ENGAGED: it stands (R67, R76). -/
theorem Axis.move_stands (h : a.state ≠ .engaged) (v : AxisView) : a.Stands (a.move v) a.state a.resyncHold := by
  obtain ⟨k1, k2, k3⟩ := a.observe_keeps v
  have hs := k3 h
  have g := k1.stands (by rw [hs]; exact h) (a.observe v).1 v
  rwa [hs, k2] at g

/-- Step 4 clears indications that stand, and sets none at an axis that is not ENGAGED. -/
theorem Axis.observe_indications (hl : a.sourceLost = false) (hx : a.extrap = false) (h : a.state ≠ .engaged) (v : AxisView) :
    (a.observe v).2.sourceLost = false ∧ (a.observe v).2.extrap = false := by
  unfold Axis.observe
  split
  · exact ⟨hl, hx⟩
  · split
    · exact ⟨rfl, rfl⟩
    · exact ⟨rfl, hx⟩
    · rw [if_pos h]
      exact ⟨hl, hx⟩

/-- The gear step of an axis that step 4 leaves ENGAGED (R73, R74). -/
theorem Axis.move_geared (h : (a.observe v).2.state = .engaged) :
    (a.move v).q = (a.r + (a.observe v).1 * a.n) / a.d ∧ (a.move v).r = ((a.r + (a.observe v).1 * a.n) % a.d).toNat ∧
      (a.move v).theta = a.theta + BitVec.ofInt 32 (a.move v).q := by
  obtain ⟨k, -, -⟩ := a.observe_keeps v
  obtain ⟨hth, -, hr, -, hn, hd, -, -⟩ := k
  have e : (a.observe v).2.gearStep (a.observe v).1 = { (a.observe v).2 with
      q := ((a.observe v).2.r + (a.observe v).1 * (a.observe v).2.n) / (a.observe v).2.d
      r := (((a.observe v).2.r + (a.observe v).1 * (a.observe v).2.n) % (a.observe v).2.d).toNat
      theta := BitVec.ofInt 32 ((a.observe v).2.theta.toNat +
        ((a.observe v).2.r + (a.observe v).1 * (a.observe v).2.n) / (a.observe v).2.d)
      rev := (a.observe v).2.rev + BitVec.ofInt 16 (((a.observe v).2.theta.toNat +
        ((a.observe v).2.r + (a.observe v).1 * (a.observe v).2.n) / (a.observe v).2.d) / 2 ^ 32) } := if_pos h
  rw [hth, hr, hn, hd] at e
  unfold Axis.move
  rw [e]
  refine ⟨rfl, rfl, ?_⟩
  show BitVec.ofInt 32 (a.theta.toNat + _) = a.theta + BitVec.ofInt 32 _
  rw [BitVec.ofInt_add, BitVec.ofInt_natCast, BitVec.ofNat_toNat, BitVec.setWidth_eq]
  rfl

/-- The gear step of any other leaves the remainder (R73). -/
theorem Axis.move_ungeared (h : (a.observe v).2.state ≠ .engaged) : (a.move v).r = a.r := by
  obtain ⟨k, -, -⟩ := a.observe_keeps v
  have e : (a.observe v).2.gearStep (a.observe v).1 = { (a.observe v).2 with q := 0 } := if_neg h
  unfold Axis.move
  rw [e]
  exact k.r

/-- The remainder behind an epoch is below the denominator, where it was before (R73). -/
theorem Axis.move_residue (hd : 0 < a.d) (hr : a.r < a.d) : (a.move v).r < a.d := by
  by_cases h : (a.observe v).2.state = .engaged
  · rw [(Axis.move_geared h).2.1]
    have h1 := Int.emod_nonneg (a.r + (a.observe v).1 * a.n) (b := (a.d : Int)) (by omega)
    have h2 := Int.emod_lt_of_pos (a.r + (a.observe v).1 * a.n) (b := (a.d : Int)) (by omega)
    omega
  · rw [Axis.move_ungeared h]
    exact hr

/-- The offset slews at an ENGAGED axis under no class that stops only (R75). -/
theorem Axis.move_offset (h : a.state ≠ .engaged ∨ v.acting.stops = true) : (a.move v).o = a.o := by
  rcases h with h | h
  · exact (Axis.move_stands h v).2.2.2.2.2.2.1
  · obtain ⟨k, -, -⟩ := a.observe_keeps v
    have e : ∀ (b : Axis) (dA : Int), ((b.gearStep dA).slew v).o = b.o := by
      intro b dA
      have hg : (b.gearStep dA).o = b.o := by
        unfold Axis.gearStep
        split <;> rfl
      rw [← hg]
      exact if_neg (by simp [h])
    exact (e _ _).trans k.o

/-! ### ENGAGE (R80) -/

/-- An axis as ENGAGE leaves it, mode 0 or 1. -/
def Axis.engaged (a : Axis) (mode : Nat) : Axis :=
  { (if mode = 0 then { a with r := 0 } else a.phased) with
    state := .engaged, resyncHold := false, sourceLost := false, extrap := false }

theorem Axis.engaged_settings (a : Axis) (mode : Nat) : (a.engaged mode).source = a.source ∧ (a.engaged mode).n = a.n ∧
    (a.engaged mode).d = a.d ∧ (a.engaged mode).ref = a.ref ∧ (a.engaged mode).miss = a.miss ∧
    (a.engaged mode).limit = a.limit := by
  unfold Axis.engaged
  split <;> exact ⟨rfl, rfl, rfl, rfl, rfl, rfl⟩

/-- Where a slot's axis starts from and its source does not fail at once, ENGAGE is accepted. -/
theorem Axis.engage_accepted {mode : Nat} (hm : mode ≤ 1) (hs : a.state ≠ .engaged) (ha : v.acting.stops = false)
    (hsrc : ∀ k, a.source = .slot k → a.ref ≠ none ∧ (a.miss < a.limit ∨ v.fresh[k] ≠ none)) :
    a.engage v mode = (.accepted, a.engaged mode) := by
  have hless : a.sourceless v = false := by
    unfold Axis.sourceless
    split
    · rfl
    · rename_i k hk
      obtain ⟨href, hmiss⟩ := hsrc k hk
      have h1 : a.ref.isNone = false := by simpa [Option.isSome_iff_ne_none] using href
      have h2 : (decide (a.limit ≤ a.miss) && (v.freshFor a.source).isNone) = false := by
        rw [hk]
        rcases hmiss with h | h
        · rw [decide_eq_false (by omega)]
          rfl
        · have hn : (v.freshFor (.slot k)).isNone = false := by
            simpa [AxisView.freshFor, Option.isSome_iff_ne_none] using h
          rw [hn, Bool.and_false]
      rw [h1, h2]
      rfl
  unfold Axis.engage
  rw [if_neg (by omega), if_neg hs, if_neg (by simp [ha]), if_neg (by simp [hless])]
  rfl

/-- An ENGAGED axis stays ENGAGED, without indications, where its source does not fail at once (R71, R72). -/
theorem Axis.observe_engaged (h : a.state = .engaged) (hl : a.sourceLost = false)
    (hsrc : ∀ k, a.source = .slot k → a.miss < a.limit ∨ v.fresh[k] ≠ none) :
    (a.observe v).2.state = .engaged ∧ (a.observe v).2.sourceLost = false := by
  unfold Axis.observe
  split
  · exact ⟨h, hl⟩
  · rename_i k hk
    split
    · exact ⟨h, rfl⟩
    · exact ⟨h, rfl⟩
    · rename_i hf
      have hmiss : a.miss < a.limit := (hsrc k hk).resolve_right fun hn => hn hf
      rw [if_neg (not_not.2 h), if_pos hmiss]
      exact ⟨h, hl⟩

/-! ### Each command as judged -/

section
variable {c : AxisCommand} (ho : a.state ≠ .off)
include ho

theorem Axis.command_engage (h : c.code = 1) : a.command v c = a.engage v c.operand := by
  unfold Axis.command
  rw [if_neg ho, if_pos h]

theorem Axis.command_disengage (h : c.code = 2) : a.command v c = a.disengage := by
  unfold Axis.command
  rw [if_neg ho, if_neg (by omega), if_pos h]

theorem Axis.command_setGear (h : c.code = 3) : a.command v c = a.setGear c.n c.d := by
  unfold Axis.command
  rw [if_neg ho, if_neg (by omega), if_neg (by omega), if_pos h]

theorem Axis.command_setOffset (h : c.code = 4) : a.command v c = a.setOffset c.target c.slew := by
  unfold Axis.command
  rw [if_neg ho, if_neg (by omega), if_neg (by omega), if_neg (by omega), if_pos h]

theorem Axis.command_setSource (h : c.code = 5) : a.command v c = a.setSource v c.operand := by
  unfold Axis.command
  rw [if_neg ho, if_neg (by omega), if_neg (by omega), if_neg (by omega), if_neg (by omega), if_pos h]

theorem Axis.command_undefined (h : c.code = 0 ∨ 5 < c.code) : a.command v c = (.refusedRange, a) := by
  unfold Axis.command
  rw [if_neg ho, if_neg (by omega), if_neg (by omega), if_neg (by omega), if_neg (by omega), if_neg (by omega)]

end

/-- The reference of a source as SET-SOURCE takes it: the shadow's A, and none for a slot (R84). -/
def AxisView.takenRef (v : AxisView) (src : AxisSource) : Option Word :=
  match src with
  | .shaft => some v.shadow
  | .slot _ => none

/-- The reference of that source behind step 4: the shadow's A, or the slot's fresh value (R69, R70). -/
def AxisView.seenRef (v : AxisView) (src : AxisSource) : Option Word :=
  match src with
  | .shaft => some v.shadow
  | .slot k => v.fresh[k]

/-- SET-SOURCE at an axis that is not ENGAGED, to a source the node can take (R84). -/
theorem Axis.setSource_accepted {operand : Nat} {src : AxisSource} (hs : a.state ≠ .engaged)
    (hop : sourceOf operand = some src) (hsub : ∀ k, src = .slot k → v.subscribed[k] = true) :
    a.setSource v operand = (.accepted, a.withSource src (v.takenRef src)) := by
  unfold Axis.setSource
  rw [if_neg hs, hop]
  cases src with
  | shaft => rfl
  | slot k => exact if_pos (hsub k rfl)

/-- The reference of a source just taken, behind step 4 (R69, R70, R84). -/
theorem Axis.withSource_observe (a : Axis) (v : AxisView) (src : AxisSource) (h : a.state ≠ .engaged) :
    let b := ((a.withSource src (v.takenRef src)).observe v).2
    b.ref = v.seenRef src ∧ b.delta = 0 := by
  cases src with
  | shaft => exact ⟨rfl, rfl⟩
  | slot k =>
    have hsrc : (a.withSource (.slot k) none).source = .slot k := rfl
    show (Axis.observe (a.withSource (.slot k) none) v).2.ref = v.fresh[k] ∧
      (Axis.observe (a.withSource (.slot k) none) v).2.delta = 0
    cases hf : v.fresh[k] with
    | some f =>
      rw [Axis.observe_first hsrc hf rfl]
      exact ⟨rfl, rfl⟩
    | none =>
      rw [Axis.observe_none hsrc hf, if_pos (by exact h)]
      exact ⟨rfl, rfl⟩

end

section
variable {s t : State}

/-! ### From the axes' work to the end of the event -/

/-- An AXIS command has been taken: what becomes of the axis, the pending mark, and the result requested (R36, R79). -/
structure AxisTaken (t : State) (n : Fin 8) (w : Window) (tag : Nat) (r : ResultCode) (b : Axis) : Prop where
  axis : t.axu.axes[n] = b
  taken : t.ptu.axisPending[n] = false
  result : t.ResultRequested (w.word + 16 * n.val + 4) (resultWord tag r 0)

theorem AxisTaken.settle {n : Fin 8} {w : Window} {tag : Nat} {r : ResultCode} {b : Axis} (h : AxisTaken t n w tag r b)
    (s0 : State) : AxisTaken (State.settle s0 t) n w tag r b :=
  ⟨by rw [State.settle_axu]; exact h.axis, by rw [(State.settle_pends s0 t).2]; exact h.taken,
    h.result.stays (.settle s0 t)⟩

/-- Steps 1 to 6 of an axis with a command (R68). -/
theorem Axis.epoch_command {a : Axis} {v : AxisView} {c : AxisCommand} (h : a.state ≠ .off) :
    a.epoch v (some c) = (some ((a.reacted v).command v c).1, ((a.reacted v).command v c).2.move v) := by
  unfold Axis.epoch
  rw [if_neg h]
  rfl

/-- The axes' work at an epoch takes the command of an axis (R68, R79). -/
theorem State.axuEpoch_takes {n : Fin 8} {w : Window} {c : AxisCommand} (y mark : Bool) (hw : s.cfg.only .axis = some w)
    (hc : s.axisCommand n = some c) (ho : s.axu.axes[n].state ≠ .off) (hl : s.lde.normal.length < 20) :
    let k := (s.axu.axes[n].reacted (s.axisView mark)).command (s.axisView mark) c
    AxisTaken (s.axuEpoch y mark) n w c.tag k.1 (k.2.move (s.axisView mark)) := by
  intro k
  have he := Axis.epoch_command (v := s.axisView mark) (c := c) ho
  have hrun : ({ addr := w.word + 16 * n.val + 4, words := [resultWord c.tag k.1 0] } : Run) ∈ s.axisResults mark w := by
    unfold State.axisResults
    refine List.mem_filterMap.2 ⟨n, List.mem_finRange n, ?_⟩
    rw [hc]
    dsimp only
    rw [he]
    rfl
  have hne : (s.axisResults mark w).isEmpty = false := by simpa using List.ne_nil_of_mem hrun
  have heq : s.axuEpoch y mark = ((s.axisSteps mark).requestUrgent .axis ((s.axisSteps mark).axisSweep w y)).requestNormal
      .result (s.axisResults mark w) := by
    unfold State.axuEpoch
    dsimp only
    rw [show (s.cfg.only .axis) = some w from hw]
    dsimp only
    rw [if_neg (by simp [hne])]
  refine ⟨?_, ?_, ?_⟩
  · rw [State.axuEpoch_axes, hc, he]
  · rw [heq, (State.requestNormal_fr _ _ _).keeps_ptu, (State.requestUrgent_fr _ _ _).keeps_ptu]
    simp [State.axisSteps]
  · rw [heq]
    exact State.requestNormal_result (by rw [State.requestUrgent_normal]; exact hl) hrun

/-- What the axes see at a due epoch from a header under the class `act` (R68). -/
def State.dueView (s : State) (e : PendingEntry) (act : TripClass) : AxisView :=
  { shadow := e.shaft.angle, acting := act, resync := s.flu.resyncArmed, fresh := s.axu.fresh,
    subscribed := Vector.ofFn s.cfg.subscribes }

/-- A due epoch from a header takes an AXIS command, under the class acting after the slots may have aged (R36, R68). -/
theorem State.dueEpoch_axis {dt : Nat} {e : PendingEntry} {n : Fin 8} {w : Window} {c : AxisCommand} (h : s.HeaderEpochDue dt e)
    (hw : s.cfg.only .axis = some w) (hc : s.axisCommand n = some c) (ho : s.axu.axes[n].state ≠ .off)
    (hl : s.lde.normal.length < 19) :
    ∃ act, (s.StaleTripsNothing → act = s.tru.acting) ∧
      let k := (s.axu.axes[n].reacted (s.dueView e act)).command (s.dueView e act) c
      AxisTaken (s.elapse dt).dueEpoch n w c.tag k.1 (k.2.move (s.dueView e act)) := by
  obtain ⟨a, hfr, hstay⟩ := State.dueEpoch_course h
  have hf := s.dueFront_fr dt e
  have hx := (s.dueFront dt e).aged_fr a
  have hfx : Frame [.now, .free, .flu, .tru, .slu, .cmu, .flags, .lde] s ((s.dueFront dt e).aged a) := (hf.mono).comp hx
  have hnormal : ((s.dueFront dt e).aged a).lde.normal = s.lde.normal := by rw [State.aged_normal, hf.keeps_lde]
  have hact : s.StaleTripsNothing → ((s.dueFront dt e).aged a).tru.acting = s.tru.acting := by
    intro hs
    have hstale : (s.dueFront dt e).StaleTripsNothing := by
      unfold State.StaleTripsNothing
      rw [hf.keeps_cfg]
      exact hs
    exact (State.aged_silent hstale a).1.trans (congrArg Tru.acting hf.keeps_tru)
  rw [State.axesDone_eq] at hfr hstay
  generalize (s.dueFront dt e).aged a = x at hfx hnormal hact hfr hstay
  have hxl := State.lsuEpoch_fr x (some e.shaft) s.flu.resyncArmed
  obtain ⟨-, -, hlen⟩ := State.lsuEpoch_works x (some e.shaft) s.flu.resyncArmed
  rw [hnormal] at hlen
  have hptu : ((x.lsuEpoch (some e.shaft) s.flu.resyncArmed).truEpoch).ptu = { s.ptu with shaftPending := false } := by
    rw [(State.truEpoch_fr _).keeps_ptu, State.lsuEpoch_ptu, hfx.keeps_ptu]
  have hcfg : ((x.lsuEpoch (some e.shaft) s.flu.resyncArmed).truEpoch).cfg = s.cfg := by
    rw [(State.truEpoch_fr _).keeps_cfg, hxl.keeps_cfg, hfx.keeps_cfg]
  have haxu : ((x.lsuEpoch (some e.shaft) s.flu.resyncArmed).truEpoch).axu = s.axu := by
    rw [(State.truEpoch_fr _).keeps_axu, hxl.keeps_axu, hfx.keeps_axu]
  have hview : ((x.lsuEpoch (some e.shaft) s.flu.resyncArmed).truEpoch).axisView s.flu.resyncArmed =
      s.dueView e x.tru.acting := by
    unfold State.axisView
    rw [hcfg, haxu, (State.truEpoch_tru _).2, hxl.keeps_tru, (State.truEpoch_fr _).keeps_lsu, State.lsuEpoch_shadow]
    rfl
  have k := State.axuEpoch_takes (s := (x.lsuEpoch (some e.shaft) s.flu.resyncArmed).truEpoch) (n := n) (w := w) (c := c)
    (some e.shaft).isNone s.flu.resyncArmed (by rw [hcfg]; exact hw)
    ((State.axisCommand_congr (s := s) (by rw [hptu]) (by rw [hptu]) hcfg).trans hc) (by rw [haxu]; exact ho)
    (by rw [(State.truEpoch_fr _).keeps_lde]; omega)
  rw [hview, haxu] at k
  refine ⟨x.tru.acting, hact, ?_, ?_, ?_⟩
  · rw [hfr.keeps_axu]
    exact k.axis
  · rw [hfr.keeps_ptu]
    exact k.taken
  · exact k.result.stays hstay

/-- A row of an AXIS command with a wanted code is the epoch that takes it (log 4). -/
theorem State.takesAxis_holds {dt : Nat} {n : Fin 8} {w : Window} {c : AxisCommand} {r : ResultCode} {b : Axis}
    {code : Nat → Bool} (hc : s.axisCommand n = some c) (hcode : code c.code = true)
    (h : AxisTaken (s.elapse dt).dueEpoch n w c.tag r b) : takesAxis n code (s.elapse dt) (s.elapse dt).dueEpoch = true := by
  unfold takesAxis
  rw [h.taken, show (s.elapse dt).axisCommand n = s.axisCommand n from rfl, hc]
  exact hcode

end

end Sys2Proof.Machine

/-! Proofs, section 35. The obligation on the AXIS commands (R36, R68, R79 to R84). -/

namespace Sys2Proof.Machine

set_option Elab.async false

section
variable {a : Axis} {v : AxisView} {c : AxisCommand}

/-- ENGAGE through the six steps of an epoch (R80). -/
theorem Axis.engage_effect (ho : a.state ≠ .off) (hc : c.code = 1) (hm : c.operand ≤ 1) (hs : a.state ≠ .engaged)
    (ha : v.acting.stops = false)
    (hsrc : ∀ k, a.source = .slot k → a.ref ≠ none ∧ (a.miss < a.limit ∨ v.fresh[k] ≠ none)) :
    let k := (a.reacted v).command v c
    let b := k.2.move v
    k.1 = .accepted ∧ b.state = .engaged ∧ b.resyncHold = false ∧ b.sourceLost = false ∧ b.source = a.source ∧ b.n = a.n ∧
      b.d = a.d ∧
      ∀ p, a.source = .shaft → a.ref = some p → v.resync = false →
        let dA := signedDiff v.shadow p
        let r0 := if c.operand = 0 then 0 else p.toNat * a.n % a.d
        let th0 := if c.operand = 0 then a.theta else BitVec.ofNat 32 (p.toNat * a.n / a.d)
        b.q = (r0 + dA * a.n) / a.d ∧ b.r = ((r0 + dA * a.n) % a.d).toNat ∧ b.theta = th0 + BitVec.ofInt 32 b.q := by
  rw [Axis.reacted_rest hs, Axis.command_engage (by exact ho) hc]
  have hslot : ∀ k, (a.rested v).source = .slot k →
      (a.rested v).ref ≠ none ∧ ((a.rested v).miss < (a.rested v).limit ∨ v.fresh[k] ≠ none) := by
    intro k hk
    have hsame : (a.rested v).ref = a.ref := if_neg fun g => by
      rw [show a.source = .slot k from hk] at g
      cases g.2
    rw [hsame]
    exact hsrc k hk
  rw [Axis.engage_accepted hm (by exact hs) ha hslot]
  obtain ⟨esrc, en, ed, eref, emiss, elim⟩ := (a.rested v).engaged_settings c.operand
  generalize hx : (a.rested v).engaged c.operand = x at esrc en ed eref emiss elim
  obtain ⟨msrc, mn, md, -, -⟩ := x.move_settings v
  obtain ⟨mstate, -, -, mlost, -⟩ := x.move_record v
  obtain ⟨ostate, olost⟩ := Axis.observe_engaged (a := x) (v := v) (by rw [← hx]; rfl) (by rw [← hx]; rfl) fun k hk => by
    rw [emiss, elim]
    exact (hslot k (esrc ▸ hk)).2
  refine ⟨rfl, mstate.trans ostate, (x.move_resyncHold v).trans (by rw [← hx]; rfl), mlost.trans olost, msrc.trans esrc,
    mn.trans en, md.trans ed, fun p hp href hr => ?_⟩
  have hxref : (a.rested v).ref = some p := by
    rw [← href]
    exact if_neg fun g => by rw [hr] at g; cases g.1
  obtain ⟨hq, hrem, hth⟩ := Axis.move_geared (v := v) ostate
  have hd : (x.observe v).1 = signedDiff v.shadow p := by
    rw [Axis.observe_shaft (esrc.trans hp), eref, hxref]
    rfl
  have hstart : x.r = (if c.operand = 0 then 0 else p.toNat * a.n % a.d) ∧
      x.theta = if c.operand = 0 then a.theta else BitVec.ofNat 32 (p.toNat * a.n / a.d) := by
    rw [← hx]
    unfold Axis.engaged
    split
    · exact ⟨rfl, rfl⟩
    · unfold Axis.phased
      rw [hxref]
      exact ⟨rfl, rfl⟩
  have hn : x.n = a.n := en
  have hdd : x.d = a.d := ed
  rw [hd, hstart.1, hn, hdd] at hq hrem
  rw [hstart.2] at hth
  exact ⟨hq, hrem, hth⟩

/-- DISENGAGE through the six steps (R81). -/
theorem Axis.disengage_effect (ho : (a.reacted v).state ≠ .off) (hc : c.code = 2) :
    let k := (a.reacted v).command v c
    let b := k.2.move v
    k.1 = .accepted ∧ b.state = .idle ∧ b.resyncHold = false ∧ b.sourceLost = false ∧ b.extrap = false ∧ b.q = 0 ∧
      b.theta = a.theta ∧ b.r = a.r ∧ b.o = a.o ∧ b.source = a.source := by
  obtain ⟨⟨rth, -, rr, rO, -, -, -, -⟩, rsrc⟩ := a.reacted_keeps v
  rw [Axis.command_disengage ho hc]
  generalize hx : ({ a.reacted v with state := .idle, resyncHold := false, sourceLost := false, extrap := false } : Axis) = x
  have hdis : (a.reacted v).disengage = (.accepted, x) := by rw [← hx]; rfl
  have hidle : x.state ≠ .engaged := by rw [← hx]; simp
  rw [hdis]
  obtain ⟨sstate, shold, sq, sth, -, sr, so, -, -⟩ := Axis.move_stands hidle v
  obtain ⟨-, -, -, mlost, mex⟩ := x.move_record v
  obtain ⟨olost, oex⟩ := Axis.observe_indications (a := x) (by rw [← hx]) (by rw [← hx]) hidle v
  refine ⟨rfl, ?_, ?_, mlost.trans olost, mex.trans oex, sq, ?_, ?_, ?_, ?_⟩
  · exact sstate.trans (by rw [← hx])
  · exact shold.trans (by rw [← hx])
  · exact sth.trans (by rw [← hx]; exact rth)
  · exact sr.trans (by rw [← hx]; exact rr)
  · exact so.trans (by rw [← hx]; exact rO)
  · exact (x.move_settings v).1.trans (by rw [← hx]; exact rsrc)

/-- SET-GEAR through the six steps (R82). -/
theorem Axis.setGear_effect (ho : (a.reacted v).state ≠ .off) (hc : c.code = 3) (hd : c.d ≠ 0) :
    let k := (a.reacted v).command v c
    let b := k.2.move v
    k.1 = .accepted ∧ b.n = c.n ∧ b.d = c.d ∧ b.r < c.d ∧ b.source = a.source ∧ b.ot = a.ot ∧ b.lslew = a.lslew ∧
      (a.state ≠ .engaged → b.state = a.state ∧ b.r = 0 ∧ b.theta = a.theta) := by
  obtain ⟨⟨rth, -, -, -, -, -, rsl, rot⟩, rsrc⟩ := a.reacted_keeps v
  rw [Axis.command_setGear ho hc]
  generalize hx : ({ a.reacted v with n := c.n, d := c.d, r := 0 } : Axis) = x
  have hset : (a.reacted v).setGear c.n c.d = (.accepted, x) := by
    rw [← hx]
    exact if_neg hd
  rw [hset]
  obtain ⟨msrc, mn, md, mot, msl⟩ := x.move_settings v
  have hxd : x.d = c.d := by rw [← hx]
  have hxr : x.r = 0 := by rw [← hx]
  refine ⟨rfl, mn.trans (by rw [← hx]), md.trans hxd, ?_, msrc.trans (by rw [← hx]; exact rsrc),
    mot.trans (by rw [← hx]; exact rot), msl.trans (by rw [← hx]; exact rsl), fun hs => ?_⟩
  · rw [← hxd]
    exact Axis.move_residue (a := x) (by omega) (by omega)
  · have hxs : x.state = a.state := by
      rw [← hx, Axis.reacted_rest hs]
      rfl
    obtain ⟨sstate, -, -, sth, -, sr, -, -, -⟩ := Axis.move_stands (by rw [hxs]; exact hs) v
    exact ⟨sstate.trans hxs, sr.trans hxr, sth.trans (by rw [← hx]; exact rth)⟩

/-- SET-OFFSET through the six steps (R83). -/
theorem Axis.setOffset_effect (ho : (a.reacted v).state ≠ .off) (hc : c.code = 4) :
    let k := (a.reacted v).command v c
    let b := k.2.move v
    k.1 = (if 65535 < c.slew then .clamped else .accepted) ∧ b.ot = c.target ∧ b.lslew = min 65535 c.slew ∧ b.n = a.n ∧
      b.d = a.d ∧ b.source = a.source ∧ (a.state ≠ .engaged ∨ v.acting.stops = true → b.o = a.o) := by
  obtain ⟨⟨-, -, -, rO, rn, rd, -, -⟩, rsrc⟩ := a.reacted_keeps v
  rw [Axis.command_setOffset ho hc]
  generalize hx : ({ a.reacted v with ot := c.target, lslew := min 65535 c.slew } : Axis) = x
  have hset : (a.reacted v).setOffset c.target c.slew = (if 65535 < c.slew then .clamped else .accepted, x) := by
    rw [← hx]
    rfl
  rw [hset]
  obtain ⟨msrc, mn, md, mot, msl⟩ := x.move_settings v
  refine ⟨rfl, mot.trans (by rw [← hx]), msl.trans (by rw [← hx]), mn.trans (by rw [← hx]; exact rn),
    md.trans (by rw [← hx]; exact rd), msrc.trans (by rw [← hx]; exact rsrc), fun hs => ?_⟩
  have hxs : x.state ≠ .engaged ∨ v.acting.stops = true := by
    refine hs.imp (fun h => ?_) id
    rw [← hx, Axis.reacted_rest h]
    exact h
  exact (Axis.move_offset hxs).trans (by rw [← hx]; exact rO)

/-- SET-SOURCE through the six steps (R84). -/
theorem Axis.setSource_effect {src : AxisSource} (ho : a.state ≠ .off) (hc : c.code = 5) (hs : a.state ≠ .engaged)
    (hop : sourceOf c.operand = some src) (hsub : ∀ k, src = .slot k → v.subscribed[k] = true) :
    let k := (a.reacted v).command v c
    let b := k.2.move v
    k.1 = .accepted ∧ b.source = src ∧ b.state = a.state ∧ b.sourceLost = false ∧ b.extrap = false ∧ b.delta = 0 ∧
      b.ref = v.seenRef src ∧ b.theta = a.theta ∧ b.r = a.r ∧
      b.o = a.o ∧ b.n = a.n ∧ b.d = a.d := by
  rw [Axis.reacted_rest hs, Axis.command_setSource (by exact ho) hc, Axis.setSource_accepted (by exact hs) hop hsub]
  obtain ⟨oref, odelta⟩ := (a.rested v).withSource_observe v src hs
  generalize hy : (a.rested v).withSource src (v.takenRef src) = y at oref odelta
  have hys : y.state = a.state := by rw [← hy]; rfl
  obtain ⟨sstate, -, -, sth, -, sr, so, -, -⟩ := Axis.move_stands (by rw [hys]; exact hs) v
  obtain ⟨msrc, mn, md, -, -⟩ := y.move_settings v
  obtain ⟨-, mref, mdelta, mlost, mex⟩ := y.move_record v
  obtain ⟨olost, oex⟩ := Axis.observe_indications (a := y) (by rw [← hy]; rfl) (by rw [← hy]; rfl) (by rw [hys]; exact hs) v
  refine ⟨rfl, msrc.trans (by rw [← hy]; rfl), sstate.trans hys, mlost.trans olost, mex.trans oex, mdelta.trans odelta,
    mref.trans oref, sth.trans ?_, sr.trans ?_, so.trans ?_, mn.trans ?_, md.trans ?_⟩ <;> (rw [← hy]; rfl)

/-- A command of an undefined code changes nothing that commands give (R36). -/
theorem Axis.undefined_effect (ho : (a.reacted v).state ≠ .off) (hc : c.code = 0 ∨ 5 < c.code) :
    let k := (a.reacted v).command v c
    let b := k.2.move v
    k.1 = .refusedRange ∧ b.source = a.source ∧ b.n = a.n ∧ b.d = a.d ∧ b.ot = a.ot ∧ b.lslew = a.lslew := by
  obtain ⟨⟨-, -, -, -, rn, rd, rsl, rot⟩, rsrc⟩ := a.reacted_keeps v
  rw [Axis.command_undefined ho hc]
  obtain ⟨msrc, mn, md, mot, msl⟩ := (a.reacted v).move_settings v
  exact ⟨rfl, msrc.trans rsrc, mn.trans rn, md.trans rd, mot.trans rot, msl.trans rsl⟩

/-- Steps 1 and 2 turn no axis OFF. -/
theorem Axis.reacted_on (ho : a.state ≠ .off) : (a.reacted v).state ≠ .off := by
  unfold Axis.reacted
  have h1 : (a.tripReaction v).state ≠ .off := by
    unfold Axis.tripReaction
    split
    · simp
    · exact ho
  unfold Axis.resync
  split
  · split
    · simp
    · exact h1
  · exact h1

end

/-- Settles O48: `State.dueEpoch_axis`, each command by its effect on the axis. -/
theorem axisCommandsTakeEffect : Obligations.AxisCommandsTakeEffect := by
  intro dt n e w c s h hs hw hc hl ho a done
  obtain ⟨act, hact, hk⟩ := State.dueEpoch_axis h hw hc ho hl
  rw [hact hs] at hk
  have hro : (a.reacted (s.dueView e s.tru.acting)).state ≠ .off := Axis.reacted_on ho
  have row : ∀ (i : Instr) (code : Nat → Bool),
      (exec i s = s.event dt fun u => u.whenOutcome State.dueEpoch (takesAxis n code)) → code c.code = true →
      ∃ t, exec i s = .next t ∧ AxisTaken t n w c.tag ((a.reacted (s.dueView e s.tru.acting)).command
        (s.dueView e s.tru.acting) c).1 (((a.reacted (s.dueView e s.tru.acting)).command
        (s.dueView e s.tru.acting) c).2.move (s.dueView e s.tru.acting)) ∧ OnlyTouches epochParts s t :=
    fun i code hrow hcode => ⟨_, exec_event _ (State.whenOutcome_holds (State.takesAxis_holds hc hcode hk)) hrow,
      hk.settle _, s.dueEpoch_only dt⟩
  refine ⟨fun hcode hmode hst hstop hsrc => ?_, fun hcode => ?_, fun hcode hd => ?_, fun hcode => ?_,
    fun src hcode hst hop hsub => ?_⟩
  · obtain ⟨t, ht, ⟨taxis, ttaken, tres⟩, honly⟩ := row (.engage dt n) _ rfl (decide_eq_true hcode)
    obtain ⟨hr, e1, e2, e3, e4, e5, e6, e7⟩ := Axis.engage_effect (v := s.dueView e s.tru.acting) ho hcode hmode hst hstop hsrc
    rw [hr] at tres
    refine ⟨t, ht, ⟨ttaken, tres, honly⟩, ?_⟩
    rw [taxis]
    exact ⟨e1, e2, e3, e4, e5, e6, e7⟩
  · obtain ⟨t, ht, ⟨taxis, ttaken, tres⟩, honly⟩ := row (.disengage dt n) _ rfl (decide_eq_true hcode)
    obtain ⟨hr, e⟩ := Axis.disengage_effect hro hcode
    rw [hr] at tres
    refine ⟨t, ht, ⟨ttaken, tres, honly⟩, ?_⟩
    rw [taxis]
    exact e
  · obtain ⟨t, ht, ⟨taxis, ttaken, tres⟩, honly⟩ := row (.setGear dt n) _ rfl (decide_eq_true hcode)
    obtain ⟨hr, e⟩ := Axis.setGear_effect hro hcode hd
    rw [hr] at tres
    refine ⟨t, ht, ⟨ttaken, tres, honly⟩, ?_⟩
    rw [taxis]
    exact e
  · obtain ⟨t, ht, ⟨taxis, ttaken, tres⟩, honly⟩ := row (.setOffset dt n) _ rfl (decide_eq_true hcode)
    obtain ⟨hr, e⟩ := Axis.setOffset_effect hro hcode
    rw [hr] at tres
    refine ⟨t, ht, ⟨ttaken, tres, honly⟩, ?_⟩
    rw [taxis]
    exact e
  · obtain ⟨t, ht, ⟨taxis, ttaken, tres⟩, honly⟩ := row (.setSource dt n) _ rfl (decide_eq_true hcode)
    obtain ⟨hr, e⟩ := Axis.setSource_effect (v := s.dueView e s.tru.acting) ho hcode hst hop fun k hk => by
      simpa [State.dueView] using hsub k hk
    rw [hr] at tres
    refine ⟨t, ht, ⟨ttaken, tres, honly⟩, ?_⟩
    rw [taxis]
    exact e

end Sys2Proof.Machine

/-! Proofs, section 36. Single-beat writes at a quiet M-port: words taken at the cycle's completion, registers, words that reach no
memory, and SCREEN-OUT words (R26, R30 to R36, R171, R172; log 5). -/

namespace Sys2Proof.Machine

set_option Elab.async false

section
variable {s : State} {wa : Nat} {id : Ident}

/-! ### A word that can be written -/

theorem State.CanWrite.elapse (h : s.CanWrite wa id) (dt : Nat) : (s.elapse dt).CanWrite wa id :=
  ⟨(s.elapse_fr dt).sound h.sound, h.quiet, h.range, h.names⟩

theorem State.Quiet.served (q : s.Quiet) : s.Served := fun _ => by
  obtain ⟨-, hu, hn, hc, -⟩ := q
  exact ⟨hu, hn, State.cycleWaits_none hc⟩

/-- A word that names anything is in the window table of a configured node (R28). -/
theorem State.CanWrite.configured (h : s.CanWrite wa id) (hid : id ≠ .outside) : s.configured = true := by
  by_contra hc
  refine hid (h.names.symm.trans ?_)
  unfold State.identOf
  exact if_neg hc

/-! ### Memory and shadow take the beat (R26, R30) -/

theorem State.written_fr (s : State) (wa : Nat) (b : Beat) : Frame [.shadow, .mem] s (s.written wa b) :=
  ((s.setWord_fr wa b.data b.be).mono (qs := [.shadow, .mem])).comp (State.setShadow_fr _ wa b.data b.be)

@[simp] theorem State.written_shadowAt (hs : s.Sound) (wa a : Nat) (b : Beat) :
    (s.written wa b).shadowAt a = if a = wa then s.shadowAfter wa b else s.shadowAt a :=
  Cells.get_set _ _ _ _ hs.shadow

theorem State.stores_setWord {t : State} (hs : s.Sound) (hwa : wa < 2 ^ 24) (v : Word) (be : BitVec 4)
    (ht : t.mem = Memory.setWord s.mem wa v be) : StoresWord s t wa v be := fun a ha => by
  rw [ht]
  exact Memory.byte_setWord hs.mem v be hwa ha

/-- A state with memory and shadows as a capture write leaves them (R26, R30). -/
theorem State.captured_of_written {t : State} (hs : s.Sound) (hwa : wa < 2 ^ 24) (b : Beat)
    (hm : t.mem = (s.written wa b).mem) (hsh : t.ptu.shadow = (s.written wa b).ptu.shadow) : Captured s t wa b := by
  refine ⟨State.stores_setWord hs hwa _ _ hm, fun a => ?_⟩
  have h : t.shadowAt a = (s.written wa b).shadowAt a := by
    unfold State.shadowAt
    rw [hsh]
  rw [h, State.written_shadowAt hs]
  rfl

/-! ### Commands taken at the completion of the cycle (R36) -/

/-- A write to the one word of its kind that the row names, of a code that the row wants (log 5). -/
theorem State.writeFixed_one {k : WindowKind} {off : Nat} {code : Nat → Bool} {b : Beat} {w : Window}
    (hw : s.cfg.only k = some w) (h : s.CanWrite (w.word + off) id) (hid : id ≠ .outside)
    (hcode : code (cmdCode (s.shadowAfter (w.word + off) b)) = true) :
    s.writeFixed k off code b = s.writeOne (w.word + off) b := by
  unfold State.writeFixed State.fixedWord
  rw [if_pos (h.configured hid), hw]
  exact if_pos hcode

/-- Such a write is carried to its completion, and its command is taken (R36). -/
theorem State.writeFixed_taken {k : WindowKind} {off : Nat} {code : Nat → Bool} {b : Beat} {w : Window}
    (hw : s.cfg.only k = some w) (h : s.CanWrite (w.word + off) id) (ht : id.isTaken = true)
    (hcode : code (cmdCode (s.shadowAfter (w.word + off) b)) = true) :
    s.writeFixed k off code b = (s.written (w.word + off) b).takeBeat (s.beatAt (w.word + off) b) := by
  rw [State.writeFixed_one hw h (by rintro rfl; cases ht) hcode]
  exact State.writeOne_takes b h.quiet h.range (by rw [h.names]; exact ht)

/-! ### A cycle of one beat ends (R26, R44) -/

/-- The cycle whose one write beat has been taken from it. -/
def spentWrite : PCycle := { write := true, beats := [], answers := [], takes := [], granted := true }

/-- With no beat left, none is passed. -/
theorem State.passBeats_spent {c : PCycle} (h : s.ptu.cycle = some c) (hb : c.beats = []) : s.passBeats = s := by
  have hp : ({ s.ptu with cycle := some { c with beats := [] } } : Ptu) = s.ptu := by
    rw [← hb]
    show ({ s.ptu with cycle := some c } : Ptu) = s.ptu
    rw [← h]
  unfold State.passBeats
  rw [h]
  dsimp only
  rw [hb]
  exact congrArg (fun p => ({ s with ptu := p } : State)) hp

theorem State.endCycle_plain {c : PCycle} (h : s.ptu.cycle = some c) (ht : c.takes = []) : s.endCycle =
    s.onPtu fun p => { p with cycle := none, readData := if c.write then p.readData else c.answers } := by
  unfold State.endCycle
  rw [h]
  dsimp only
  rw [ht]
  rfl

/-- A write of one beat that reaches memory, from what its owner makes of it: the M-port is free again and the cycle over. -/
theorem State.writeOne_ends {x : State} (b : Beat) (q : s.Quiet) (hwa : wa < 2 ^ 24)
    (hr : (s.identOf wa).reaches true = true) (hx : s.busy.writeBeat (s.beatAt wa b) = x) (hc : x.ptu.cycle = some spentWrite)
    (hb : x.ptu.behind = []) : s.writeOne wa b = x.freePort.onPtu fun p => { p with cycle := none } := by
  rw [State.writeOne_reaches b q hwa hr, hx, State.passBeats_spent hc rfl]
  have hspent : x.cycleSpent = true := by
    unfold State.cycleSpent
    rw [hc]
    rfl
  rw [if_pos hspent, State.endCycle_plain (s := x.freePort) hc rfl]
  exact State.nextCycle_none hb

/-! ### Registers (R30, R35) -/

/-- What the owner of a parameter, command or staging word does with a beat: a command is pending (R35). -/
def Ptu.pend (p : Ptu) (id : Ident) : Ptu :=
  match id with
  | .shaftCommand => { p with shaftPending := true }
  | .axisCommand n => { p with axisPending := setAt p.axisPending n true }
  | _ => p

theorem Ptu.pend_withCycle (p : Ptu) (id : Ident) (c : Option PCycle) :
    ({ p with cycle := c } : Ptu).pend id = { p.pend id with cycle := c } := by cases id <;> rfl

@[simp] theorem Ptu.pend_cycle (p : Ptu) (id : Ident) : (p.pend id).cycle = p.cycle := by cases id <;> rfl
@[simp] theorem Ptu.pend_behind (p : Ptu) (id : Ident) : (p.pend id).behind = p.behind := by cases id <;> rfl
@[simp] theorem Ptu.pend_shadow (p : Ptu) (id : Ident) : (p.pend id).shadow = p.shadow := by cases id <;> rfl
@[simp] theorem Ptu.pend_latch (p : Ptu) (id : Ident) : (p.pend id).latch = p.latch := by cases id <;> rfl
@[simp] theorem Ptu.pend_readData (p : Ptu) (id : Ident) : (p.pend id).readData = p.readData := by cases id <;> rfl

theorem Ptu.pend_shaft (p : Ptu) (id : Ident) :
    (p.pend id).shaftPending = (p.shaftPending || decide (id = .shaftCommand)) := by
  cases id <;> simp [Ptu.pend]

theorem Ptu.pend_axis (p : Ptu) (id : Ident) (n : Fin 8) :
    (p.pend id).axisPending[n] = (p.axisPending[n] || decide (id = .axisCommand n)) := by
  cases id with
  | axisCommand m =>
    show (setAt p.axisPending m true)[n] = _
    by_cases h : n = m
    · rw [h, setAt_self]
      simp
    · rw [setAt_other _ _ h]
      simp [Ne.symm h]
  | _ => simp [Ptu.pend]

/-- The owner of a register word does nothing but mark a command. -/
theorem State.ownerBeat_register {x : PBeat} (hr : x.id.isRegister = true) (hc : x.id.wordClass = .capture) (u : State) :
    u.ownerBeat x = u.onPtu fun p => p.pend x.id := by
  unfold State.ownerBeat
  generalize x.id = id at hr hc
  cases id with
  | slotWord n i =>
    have hi : i ≠ 3 := by
      have hlt : i < 3 := of_decide_eq_true hr
      omega
    exact if_neg hi
  | shaftCommand => rfl
  | axisCommand n => rfl
  | shaftParam => rfl
  | axisParam n => rfl
  | nodeLive _ => cases hc
  | axisLive _ => cases hc
  | _ => cases hr

/-- A write to a parameter, command or staging word: memory and shadow take it, and a command is pending. -/
theorem State.writeOne_register (b : Beat) (h : s.CanWrite wa id) (hr : id.isRegister = true) (hc : id.wordClass = .capture) :
    s.writeOne wa b = (s.written wa b).onPtu fun p => p.pend id := by
  obtain ⟨-, q, hwa, hn⟩ := h
  have ⟨qh, _, _, qc, qb⟩ := q
  have hid : (s.beatAt wa b).id = id := hn
  have hshadow : id.hasShadow = true := by
    cases id <;> simp_all [Ident.isRegister, Ident.wordClass, Ident.hasShadow]
  have hreach : (s.identOf wa).reaches true = true := by
    unfold Ident.reaches
    rw [hn, hc]
  have hbusy : s.busy.writeBeat (s.beatAt wa b) = (s.busy.written wa b).onPtu fun p => p.pend id := by
    unfold State.writeBeat
    rw [State.ownerBeat_register (by rw [hid]; exact hr) (by rw [hid]; exact hc), hid, hc]
    dsimp only
    rw [hshadow]
    rfl
  rw [State.writeOne_ends b q hwa hreach hbusy ((Ptu.pend_cycle _ _).trans rfl) ((Ptu.pend_behind _ _).trans qb)]
  have hptu : ({ ({ (s.written wa b).ptu with cycle := some spentWrite } : Ptu).pend id with cycle := none } : Ptu) =
      (s.written wa b).ptu.pend id := by
    have hcycle : ({ (s.written wa b).ptu with cycle := none } : Ptu) = (s.written wa b).ptu := by
      rw [← qc]
      rfl
    rw [← Ptu.pend_withCycle]
    exact congrArg (fun p => Ptu.pend p id) hcycle
  have hlde : ({ s.lde with holder := .free } : Lde) = s.lde := by rw [← qh]
  exact congrArg₂ (fun p q => ({ s.written wa b with ptu := p, lde := q } : State)) hptu hlde

/-! ### A cycle of one beat that reaches no memory (R33, R34) -/

/-- A write of one beat that reaches no memory, from what its owner makes of it: the cycle is over. -/
theorem State.writeOne_alone {x : State} (b : Beat) (q : s.Quiet) (hwa : wa < 2 ^ 24)
    (hr : (s.identOf wa).reaches true = false) (hx : s.alone.writeBeat (s.beatAt wa b) = x)
    (hc : x.ptu.cycle = s.alone.ptu.cycle) (hl : x.lde = s.lde) :
    s.writeOne wa b = x.onPtu fun p => { p with cycle := none } := by
  have hend : x.endCycle.onPtu (fun p => { p with cycle := none }) = x.onPtu fun p => { p with cycle := none } := by
    rw [State.endCycle_plain (s := x) hc rfl]
    rfl
  have hserved : (x.onPtu fun p => { p with cycle := none }).Served := fun _ => by
    obtain ⟨-, hu, hn, -, -⟩ := q
    rw [← hl] at hu hn
    exact ⟨hu, hn, State.cycleWaits_none rfl⟩
  rw [State.writeOne_absorbed b q hwa hr, hx, hend, hserved.arbitrate_eq]
  refine if_neg ?_
  show x.lde.holder ≠ .cycle
  rw [hl, q.1]
  decide

/-- The cycle's end leaves everything else alone. -/
theorem State.onPtu_over (x : State) (h : x.ptu.cycle = none) : (x.onPtu fun p => { p with cycle := none }) = x := by
  have hp : ({ x.ptu with cycle := none } : Ptu) = x.ptu := by rw [← h]
  exact congrArg (fun p => ({ x with ptu := p } : State)) hp

/-- A write to a substituted word is absorbed (R34). -/
theorem State.writeOne_substituted (b : Beat) (h : s.CanWrite wa id) (hc : id.wordClass = .substituted) :
    s.writeOne wa b = s := by
  obtain ⟨-, q, hwa, hn⟩ := h
  have hid : (s.beatAt wa b).id = id := hn
  have hreach : (s.identOf wa).reaches true = false := by
    unfold Ident.reaches
    rw [hn, hc]
  have hx : s.alone.writeBeat (s.beatAt wa b) = s.alone := by
    unfold State.writeBeat
    rw [hid, hc]
  rw [State.writeOne_alone b q hwa hreach hx rfl rfl]
  exact State.onPtu_over s q.2.2.2.1

/-- A write to a landed word is blocked, and recorded (R33). -/
theorem State.writeOne_landed {kind : WindowKind} (b : Beat) (h : s.CanWrite wa (.landed kind)) :
    s.writeOne wa b = s.blockBeat (s.beatAt wa b) := by
  obtain ⟨-, q, hwa, hn⟩ := h
  have hid : (s.beatAt wa b).id = .landed kind := hn
  have hreach : (s.identOf wa).reaches true = false := by
    unfold Ident.reaches
    rw [hn]
    rfl
  have hx : s.alone.writeBeat (s.beatAt wa b) = s.alone.blockBeat (s.beatAt wa b) := by
    unfold State.writeBeat
    rw [hid]
    rfl
  rw [State.writeOne_alone b q hwa hreach hx rfl rfl]
  exact State.onPtu_over (s.blockBeat (s.beatAt wa b)) q.2.2.2.1

/-- A write to a SCREEN-OUT word: memory takes it, then its screen does (R171). -/
theorem State.writeOne_screenOut {n : Fin 2} {off : Nat} (b : Beat) (h : s.CanWrite wa (.screenOut n off)) :
    s.writeOne wa b = (((s.busy.onMem fun m => Memory.setWord m wa b.data b.be).screenBeat n off).freePort.onPtu fun p =>
      { p with cycle := none }) := by
  obtain ⟨-, q, hwa, hn⟩ := h
  have hid : (s.beatAt wa b).id = .screenOut n off := hn
  have hreach : (s.identOf wa).reaches true = true := by
    unfold Ident.reaches
    rw [hn]
    rfl
  have hx : s.busy.writeBeat (s.beatAt wa b) = (s.busy.onMem fun m => Memory.setWord m wa b.data b.be).screenBeat n off := by
    unfold State.writeBeat State.ownerBeat
    rw [hid]
    rfl
  have hp : ((s.busy.onMem fun m => Memory.setWord m wa b.data b.be).screenBeat n off).ptu = s.busy.ptu :=
    (State.screenBeat_fr _ _ _).keeps_ptu
  exact State.writeOne_ends b q hwa hreach hx (by rw [hp]; rfl) (by rw [hp]; exact q.2.2.2.2)

end

end Sys2Proof.Machine

/-! Proofs, section 37. Undefined command codes (O49): at the epochs that take a SHAFT or AXIS command, and at the words taken at
the completion of their cycle (R36). -/

namespace Sys2Proof.Machine

set_option Elab.async false

section
variable {s : State}

/-- A part that is the same after all need not be listed. -/
theorem Frame.drop {t : State} {p : Part} {ps : List Part} (h : Frame (p :: ps) s t) (hp : p.same s t) : Frame ps s t :=
  ⟨fun q hq => by
    by_cases e : q = p
    · exact e ▸ hp
    · exact h.only q fun m => (List.mem_cons.1 m).elim e hq, h.sound⟩

/-- A request at a queue with room touches the queue alone (R41). -/
theorem State.requestNormal_room_fr (h : s.lde.normal.length < 20) (req : Requester) (runs : List Run) :
    Frame [.lde] s (s.requestNormal req runs) := by
  refine (s.requestNormal_fr req runs).drop ?_
  rw [State.requestNormal_room (State.normalFull_of_room h)]
  rfl

/-! ### At the line shaft -/

/-- A SHAFT command of an undefined code moves no generator (R36). -/
theorem State.shaftOutcome_undefined {word : Word} (act : TripClass) (vt n : Nat) (h1 : cmdCode word ≠ 1)
    (h2 : cmdCode word ≠ 2) : s.shaftOutcome act word vt n =
      (.refusedRange, if s.isMaster then s.lsu.gen.react s.cfg act else s.lsu.gen) := by
  unfold State.shaftOutcome State.judgeShaft
  rw [if_neg h1, if_neg h2]

/-- A RUNNING generator keeps its speed (R53). -/
theorem Gen.stepSpeed_running {g : Gen} (h : g.state = .running) : g.stepSpeed = g := by
  unfold Gen.stepSpeed
  rw [h]

/-! ### At the TRIP window -/

/-- The value a TRIP command of an undefined code is answered with (log 48). -/
def State.undefinedTripValue (s : State) (which : Fin 3) : Nat :=
  if which = 0 then 0 else if which = 1 then (Config.undefinedResetValue s.now).toNat
  else (Config.undefinedEnableValue s.now).toNat

theorem State.takeTripCommand_undefined {w : Word} (which : Fin 3) (h : cmdCode w ≠ 1) : s.takeTripCommand which w =
    s.tripResult which (resultWord (cmdTag w) .refusedRange (s.undefinedTripValue which)) := by
  match which with
  | 0 =>
    show s.takeTripRequest w = _
    unfold State.takeTripRequest
    rw [if_neg h]
    rfl
  | 1 =>
    show s.takeReset w = _
    unfold State.takeReset
    rw [if_neg h]
    rfl
  | 2 =>
    show s.takeEnable w = _
    unfold State.takeEnable
    rw [if_neg h]
    rfl

/-- The result of a TRIP command at a queue with room (R37, R108). -/
theorem State.tripResult_room {win : Window} (which : Fin 3) (w : Word) (hw : s.cfg.only .trip = some win)
    (h : s.lde.normal.length < 20) : Frame [.lde] s (s.tripResult which w) ∧
      (s.tripResult which w).ResultRequested (win.word + 4 + which.val) w := by
  have heq : s.tripResult which w =
      s.requestNormal .result [{ addr := win.word + 4 + which.val, words := [w] }] := by
    unfold State.tripResult
    rw [hw]
    rfl
  rw [heq]
  exact ⟨State.requestNormal_room_fr h _ _, State.requestNormal_result h (List.mem_singleton.2 rfl)⟩

/-! ### At the refresh command -/

/-- A refresh command of an undefined code is recorded as refused and refreshes nothing (R36, R176). -/
theorem State.takeRefresh_undefined {w : Word} (h : cmdCode w ≠ 1) : s.takeRefresh w =
    (s.onScu fun u => { u with refresh := some (BitVec.ofNat 8 (cmdTag w), 3) }).notify 5 := by
  unfold State.takeRefresh
  rw [decide_eq_false h]
  rfl

/-! ### The words taken at the completion of their cycle -/

/-- A queue quiet before a capture write has room after it. -/
theorem State.written_room {wa : Nat} {b : Beat} (q : s.Quiet) : (s.written wa b).lde.normal.length < 20 := by
  obtain ⟨-, -, hn, -, -⟩ := q
  show s.lde.normal.length < 20
  rw [hn]
  decide

theorem State.written_shadow (hs : s.Sound) (wa : Nat) (b : Beat) : (s.written wa b).shadowAt wa = s.shadowAfter wa b := by
  rw [State.written_shadowAt hs, if_pos rfl]

theorem State.takeBeat_trip {x : PBeat} {which : Fin 3} (h : x.id = .tripCommand which) :
    s.takeBeat x = s.takeTripCommand which (s.shadowAt x.addr) := by
  unfold State.takeBeat
  rw [h]

theorem State.takeBeat_refresh {x : PBeat} (h : x.id = .refresh) : s.takeBeat x = s.takeRefresh (s.shadowAt x.addr) := by
  unfold State.takeBeat
  rw [h]

theorem definedCode_other {c : Nat} (h : c ≠ 1) : (!definedCode c) = true := by
  unfold definedCode
  rw [decide_eq_false h]
  rfl

/-- A row whose event leaves trip state, position, landing queue and cycle in progress alone, nothing being granted. -/
theorem exec_served {v : State} {c : Instr} {dt : Nat} (f : State → State) (h : f (s.elapse dt) = v) (hs : s.Served)
    (ht : v.tru = s.tru) (hp : v.flu.position = s.flu.position) (hl : v.lde = s.lde) (hc : v.ptu.cycle = s.ptu.cycle)
    (row : exec c s = s.event dt f := by rfl) : exec c s = .next v := by
  rw [exec_event f h row, State.settle_id (s := s.elapse dt) (hs.elapse dt) ht hp hl hc]

/-- A TRIP command of an undefined code, at the completion of its write (R36). -/
theorem State.tripUndefined_takes {which : Fin 3} {b : Beat} {w : Window} (dt : Nat) (hw : s.cfg.only .trip = some w)
    (h : s.CanWrite (w.word + which.val) (.tripCommand which)) (hcode : cmdCode (s.shadowAfter (w.word + which.val) b) ≠ 1) :
    ∃ t, exec (.undefinedCommandCode dt (.trip which b)) s = .next t ∧
      t.ResultRequested (w.word + 4 + which.val) (resultWord (cmdTag (s.shadowAfter (w.word + which.val) b)) .refusedRange
        ((s.elapse dt).undefinedTripValue which)) ∧
      Captured s t (w.word + which.val) b ∧ OnlyTouches [.now, .shadow, .lde, .mem] s t := by
  have h' := h.elapse dt
  have heq := State.writeFixed_taken (s := s.elapse dt) (code := fun c => !definedCode c) hw h' rfl (b := b)
    (definedCode_other hcode)
  generalize hwa : w.word + which.val = wa at h h' heq hcode
  have hsh : ((s.elapse dt).written wa b).shadowAt wa = s.shadowAfter wa b := State.written_shadow h'.sound wa b
  rw [State.takeBeat_trip (show ((s.elapse dt).beatAt wa b).id = .tripCommand which from h'.names),
    show ((s.elapse dt).beatAt wa b).addr = wa from rfl, hsh, State.takeTripCommand_undefined which hcode] at heq
  obtain ⟨hfr, hres⟩ := State.tripResult_room (s := (s.elapse dt).written wa b) which
    (resultWord (cmdTag (s.shadowAfter wa b)) .refusedRange (((s.elapse dt).written wa b).undefinedTripValue which)) hw
    (State.written_room h'.quiet)
  have hall := (((s.elapse dt).written_fr wa b).mono (qs := [.shadow, .lde, .mem])).comp hfr
  obtain ⟨-, -, -, qc, -⟩ := h'.quiet
  obtain ⟨hend, hn⟩ := State.settle_idle (s0 := s.elapse dt) hall.keeps_tru (congrArg Flu.position hall.keeps_flu)
    ((congrArg Ptu.cycle hfr.keeps_ptu).trans qc)
  refine ⟨_, exec_event (fun u => u.writeFixed .trip which.val (fun c => !definedCode c) b) heq, ?_, ?_, ?_⟩
  · exact hres.stays (.of_eq hn)
  · exact State.captured_of_written (s := s.elapse dt) h'.sound h'.range b (hend.keeps_mem.trans hfr.keeps_mem)
      (hend.keeps_shadow.trans hfr.keeps_shadow)
  · exact State.effect_only [.now, .shadow, .lde, .mem] (hall.comp hend)

/-- A refresh command of an undefined code, at the completion of its write (R36, R176). -/
theorem State.refreshUndefined_takes {b : Beat} {w : Window} (dt : Nat) (hw : s.cfg.only .node = some w)
    (h : s.CanWrite (w.word + 4) .refresh) (hcode : cmdCode (s.shadowAfter (w.word + 4) b) ≠ 1) :
    ∃ t, exec (.undefinedCommandCode dt (.refresh b)) s = .next t ∧
      t.scu = { s.scu with refresh := some (BitVec.ofNat 8 (cmdTag (s.shadowAfter (w.word + 4) b)), 3) } ∧
      t.cnu.flags = withFlags s.cnu.flags [5] ∧ Captured s t (w.word + 4) b ∧
      OnlyTouches [.now, .scu, .flags, .shadow, .mem] s t := by
  have h' := h.elapse dt
  have heq := State.writeFixed_taken (s := s.elapse dt) (code := fun c => !definedCode c) hw h' rfl (b := b)
    (definedCode_other hcode)
  generalize w.word + 4 = wa at h h' heq hcode
  have hsh : ((s.elapse dt).written wa b).shadowAt wa = s.shadowAfter wa b := State.written_shadow h'.sound wa b
  rw [State.takeBeat_refresh (show ((s.elapse dt).beatAt wa b).id = .refresh from h'.names),
    show ((s.elapse dt).beatAt wa b).addr = wa from rfl, hsh, State.takeRefresh_undefined hcode] at heq
  have hfr : Frame [.scu, .flags, .shadow, .mem] (s.elapse dt) _ :=
    ((((s.elapse dt).written_fr wa b).mono (qs := [.scu, .flags, .shadow, .mem])).comp (State.onScu_fr _ fun u =>
      { u with refresh := some (BitVec.ofNat 8 (cmdTag (s.shadowAfter wa b)), 3) })).comp (State.notify_fr _ 5)
  exact ⟨_, exec_served (fun u => u.writeFixed .node 4 (fun c => !definedCode c) b) heq (State.Quiet.served h.quiet) rfl rfl
    rfl rfl, rfl, rfl, State.captured_of_written (s := s.elapse dt) h'.sound h'.range b rfl rfl, State.effect_only _ hfr⟩

end

/-- Settles O49: the four taking points one by one. -/
theorem undefinedCodesAreAnsweredOutOfRange : Obligations.UndefinedCodesAreAnsweredOutOfRange := by
  intro dt s
  refine ⟨fun e w h hp hw h1 h2 hl => ?_, fun n e w c h hw hc hcode ho hl => ?_,
    fun which b w hw h hcode => ?_, fun b w hw h hcode => State.refreshUndefined_takes dt hw h hcode⟩
  · have hc := State.shaftCommand_eq hp hw
    obtain ⟨act, hact, hj⟩ := State.dueEpoch_shaft h hc hl
    rw [State.shaftOutcome_undefined act _ _ h1 h2] at hj
    obtain ⟨tgen, ttaken, tresult⟩ := hj.settle (s.elapse dt)
    refine ⟨_, exec_event (fun u => u.whenOutcome State.dueEpoch (takesShaft fun c => decide (c ≠ 1 ∧ c ≠ 2)))
      (State.whenOutcome_holds (State.takesShaft_holds hc (decide_eq_true ⟨h1, h2⟩) hj)), ttaken, tresult,
      fun hm => ?_, fun hm ha hs hg => ?_, s.dueEpoch_only dt⟩
    · rw [tgen, hm]
      rfl
    · rw [tgen, if_pos hm, if_pos hm, hact hs, Gen.react_runs (.inl ha) (by rw [hg]; decide), Gen.stepSpeed_running hg]
  · obtain ⟨act, -, hk⟩ := State.dueEpoch_axis h hw hc ho hl
    obtain ⟨hr, ksrc, kn, kd, kot, ksl⟩ := Axis.undefined_effect (v := s.dueView e act) (Axis.reacted_on ho) hcode
    obtain ⟨taxis, ttaken, tres⟩ := hk.settle (s.elapse dt)
    rw [hr] at tres
    refine ⟨_, exec_event (fun u => u.whenOutcome State.dueEpoch (takesAxis n fun c => decide (c = 0 ∨ 5 < c)))
      (State.whenOutcome_holds (State.takesAxis_holds hc (decide_eq_true hcode) hk)), ttaken, tres, ?_⟩
    rw [taxis]
    exact ⟨ksrc, kn, kd, kot, ksl, s.dueEpoch_only dt⟩
  · exact State.tripUndefined_takes dt hw h hcode

end Sys2Proof.Machine

/-! Proofs, section 38. Write beats to SCREEN-OUT windows, landed words and register words (O54): fetches at a queue with room
(R172), and the three kinds of beat (R33 to R35, R171). -/

namespace Sys2Proof.Machine

set_option Elab.async false

section
variable {s t u : State}

/-! ### Fetches at a queue with room (R172) -/

/-- From `s` to `t` tiles may have gone into flight, and nothing else: no tile is marked, nothing is discarded. -/
structure FetchesOnly (s t : State) : Prop where
  frame : Frame [.scu, .lde] s t
  unmarked : ∀ (i : Fin 2) (v : Nat), t.scu.out[i].dirty.getLsbD v = true → s.scu.out[i].dirty.getLsbD v = true
  landed : t.scu.landed = s.scu.landed
  refresh : t.scu.refresh = s.scu.refresh

theorem FetchesOnly.refl (s : State) : FetchesOnly s s := ⟨Frame.refl _ _, fun _ _ h => h, rfl, rfl⟩

theorem FetchesOnly.trans (h : FetchesOnly s t) (k : FetchesOnly t u) : FetchesOnly s u :=
  ⟨h.frame.comp k.frame, fun i v hv => h.unmarked i v (k.unmarked i v hv), k.landed.trans h.landed,
    k.refresh.trans h.refresh⟩

theorem clearDirty_le {d : BitVec 8192} {k v : Nat} (h : (clearDirty d k).getLsbD v = true) : d.getLsbD v = true := by
  unfold clearDirty at h
  rw [BitVec.getLsbD_and, Bool.and_eq_true] at h
  exact h.1

/-- A fetch at a queue with room. -/
theorem State.fetchTile_room (i : Fin 2) (w : Window) (p : ScreenParams) (k : Nat) (h : s.lde.normal.length < 20) :
    FetchesOnly s (s.fetchTile i w p k) ∧ (s.fetchTile i w p k).lde.normal.length ≤ s.lde.normal.length + 1 := by
  have hfull := State.normalFull_of_room h
  obtain ⟨-, hd, ho, -⟩ := State.fetchTile_scu (s := s) i w p k
  rw [if_neg (by simp [hfull])] at hd
  have heq : s.fetchTile i w p k = ((s.onOut i fun o => { o with dirty := clearDirty o.dirty k, scan := nextTile p k }
      ).requestNormal (.tileRead i k) (tileRuns w p k fun _ => List.replicate 8 0)).onScu fun u =>
        { u with inFlight := u.inFlight ++ [(i, k)], lastFetch := i } := by
    unfold State.fetchTile
    rw [hfull]
    rfl
  generalize hx : (s.onOut i fun o => { o with dirty := clearDirty o.dirty k, scan := nextTile p k }) = x at heq
  have hxl : x.lde = s.lde := by rw [← hx]; rfl
  have hreq := State.requestNormal_room_fr (s := x) (by rw [hxl]; exact h) (.tileRead i k)
    (tileRuns w p k fun _ => List.replicate 8 0)
  refine ⟨⟨(State.fetchTile_fr s i w p k |>.mono (qs := [.flags, .scu, .lde])).drop ?_, fun j v hv => ?_, ?_, ?_⟩, ?_⟩
  · rw [heq]
    show (x.requestNormal _ _).cnu.flags = s.cnu.flags
    rw [hreq.keeps_flags, ← hx]
    rfl
  · by_cases hj : j = i
    · rw [hj] at hv ⊢
      rw [hd] at hv
      exact clearDirty_le hv
    · rw [ho j hj] at hv
      exact hv
  · rw [heq]
    show (x.requestNormal _ _).scu.landed = _
    rw [hreq.keeps_scu, ← hx]
    rfl
  · rw [heq]
    show (x.requestNormal _ _).scu.refresh = _
    rw [hreq.keeps_scu, ← hx]
    rfl
  · rw [heq, ← hxl]
    exact State.requestNormal_length x _ _

/-- The two fetches of one event, at a queue with room for both. -/
theorem State.tryFetch_room (h : s.lde.normal.length < 19) : FetchesOnly s s.tryFetch := by
  have once : ∀ {a b : State}, a.lde.normal.length < 20 → a.fetchOnce = some b →
      FetchesOnly a b ∧ b.lde.normal.length ≤ a.lde.normal.length + 1 := by
    intro a b ha hb
    obtain ⟨i, w, p, k, rfl⟩ := State.fetchOnce_cases hb
    exact State.fetchTile_room i w p k ha
  unfold State.tryFetch
  split
  · exact .refl s
  · next a ha =>
    obtain ⟨hfa, hla⟩ := once (by omega) ha
    split
    · exact hfa
    · split
      · exact hfa
      · next b hb => exact hfa.trans (once (by omega) hb).1

/-! ### A SCREEN-OUT beat (R171) -/

/-- The screen's part in a beat to a tile, at a queue with room: the tile is dirty or its fetch is in flight. -/
theorem State.screenBeat_room {n : Fin 2} {off k : Nat} {w : Window} {p : ScreenParams} (hw : s.cfg.screenOut n = some (w, p))
    (hk : p.tileAt off = some k) (hlt : k < 8192) (h : s.lde.normal.length < 19) :
    (s.screenBeat n off).TileMarked n k ∧
      (∀ v, (s.screenBeat n off).scu.out[n].dirty.getLsbD v = true → v = k ∨ s.scu.out[n].dirty.getLsbD v = true) ∧
      (s.screenBeat n off).scu.landed = s.scu.landed ∧ (s.screenBeat n off).scu.refresh = s.scu.refresh ∧
      Frame [.scu, .lde] s (s.screenBeat n off) := by
  have heq : s.screenBeat n off = (s.markTile n k).tryFetch := by
    unfold State.screenBeat
    rw [hw]
    dsimp only
    rw [hk]
  have hdirty : (s.markTile n k).scu.out[n].dirty = setDirty s.scu.out[n].dirty k := by
    show (modAt s.scu.out n _)[n].dirty = _
    rw [modAt_self]
  have hf := State.tryFetch_room (s := s.markTile n k) h
  rw [heq]
  refine ⟨State.tryFetch_marked (.inl ?_), fun v hv => ?_, hf.landed, hf.refresh,
    ((State.markTile_fr s n k).mono (qs := [.scu, .lde])).comp hf.frame⟩
  · rw [hdirty, setDirty_get _ hlt]
    simp
  · have hm := hf.unmarked n v hv
    rw [hdirty, setDirty_get _ (BitVec.lt_of_getLsbD hv)] at hm
    rcases Bool.or_eq_true_iff.1 hm with hd | hd
    · exact .inr hd
    · exact .inl (of_decide_eq_true hd).symm

theorem State.busy_fr (s : State) : Frame [.ptu, .lde] s s.busy :=
  ((s.onPtu_fr (fun p => { p with cycle := some spentWrite }) rfl).mono (qs := [.ptu, .lde])).comp (State.giveTo_fr _ .cycle)

/-- A beat to a SCREEN-OUT window, at the completion of its cycle (R26, R171). -/
theorem State.screenOut_takes {wa : Nat} {n : Fin 2} {off k : Nat} {w : Window} {p : ScreenParams} (b : Beat)
    (h : s.CanWrite wa (.screenOut n off)) (hw : s.cfg.screenOut n = some (w, p)) (hk : p.tileAt off = some k)
    (hlt : k < 8192) :
    let t := s.writeOne wa b
    t.TileMarked n k ∧ (∀ v, t.scu.out[n].dirty.getLsbD v = true → v = k ∨ s.scu.out[n].dirty.getLsbD v = true) ∧
      t.scu.landed = s.scu.landed ∧ t.scu.refresh = s.scu.refresh ∧ t.mem = Memory.setWord s.mem wa b.data b.be ∧
      t.ptu = s.ptu ∧ Frame [.scu, .lde, .mem] s t := by
  intro t
  have ht : t = _ := State.writeOne_screenOut b h
  obtain ⟨-, qu, qn, qc, qb⟩ := h.quiet
  have hstart : Frame [.ptu, .scu, .lde, .mem] s (s.busy.onMem fun m => Memory.setWord m wa b.data b.be) :=
    (s.busy_fr.mono).comp (State.setWord_fr _ wa b.data b.be)
  generalize hx : (s.busy.onMem fun m => Memory.setWord m wa b.data b.be) = x at ht hstart
  have hroom : x.lde.normal.length < 19 := by
    rw [← hx]
    show s.lde.normal.length < 19
    rw [qn]
    decide
  obtain ⟨hmark, hdirty, hlanded, hrefresh, hfr⟩ := State.screenBeat_room (s := x) (by rw [← hx]; exact hw) hk hlt hroom
  have hscu : x.scu = s.scu := by rw [← hx]; rfl
  rw [hscu] at hdirty hlanded hrefresh
  have hptu : t.ptu = s.ptu := by
    rw [ht]
    show ({ (x.screenBeat n off).ptu with cycle := none } : Ptu) = s.ptu
    rw [hfr.keeps_ptu, ← hx]
    show ({ s.ptu with cycle := none } : Ptu) = s.ptu
    rw [← qc]
  have hall : Frame [.ptu, .scu, .lde, .mem] s t := by
    rw [ht]
    exact ((hstart.comp hfr).comp (State.giveTo_fr _ .free)).comp (State.onPtu_fr _ _ rfl)
  refine ⟨by rw [ht]; exact hmark, by rw [ht]; exact hdirty, by rw [ht]; exact hlanded, by rw [ht]; exact hrefresh,
    ?_, hptu, hall.drop ?_⟩
  · rw [ht]
    show (x.screenBeat n off).mem = _
    rw [hfr.keeps_mem, ← hx]
    rfl
  · show ({ t.ptu with shadow := [] } : Ptu) = { s.ptu with shadow := [] }
    rw [hptu]

/-- A register word is substituted, or captured. -/
theorem Ident.register_class {id : Ident} (h : id.isRegister = true) :
    id.wordClass = .substituted ∨ id.wordClass = .capture := by
  cases id with
  | nodeLive _ => exact .inl rfl
  | axisLive _ => exact .inl rfl
  | outside => cases h
  | ordinary => cases h
  | landed _ => cases h
  | _ => exact .inr rfl

end

/-- Settles O54: a SCREEN-OUT beat by `State.screenOut_takes`, a landed word's by `State.blockBeat`, a register's by
`Ptu.pend`. -/
theorem otherWriteBeatsTakeEffect : Obligations.OtherWriteBeatsTakeEffect := by
  intro dt addr b s
  have row : ∀ {id : Ident} {p : Ident → Bool}, s.CanWrite addr.toNat id → p id = true →
      (s.elapse dt).writeIf p addr b = (s.elapse dt).writeOne addr.toNat b := by
    intro id p h hp
    refine if_pos ?_
    rw [show (s.elapse dt).identOf addr.toNat = id from h.names]
    exact hp
  refine ⟨fun n off u w p h hw hk hlt => ?_, fun kind h => ?_, fun id h hr => ?_⟩
  · obtain ⟨hmark, hdirty, hlanded, hrefresh, hmem, hptu, hfr⟩ := State.screenOut_takes b (h.elapse dt) hw hk hlt
    obtain ⟨-, -, -, qc, -⟩ := h.quiet
    have hrow := row (p := Ident.isScreenOut) h rfl
    generalize (s.elapse dt).writeOne addr.toNat b = x at *
    obtain ⟨hend, -⟩ := State.settle_idle (s0 := s.elapse dt) hfr.keeps_tru (congrArg Flu.position hfr.keeps_flu)
      ((congrArg Ptu.cycle hptu).trans qc)
    refine ⟨_, exec_event (fun u => u.writeIf Ident.isScreenOut addr b) hrow, ?_, ?_, ?_, ?_, ?_, ?_⟩
    · exact State.stores_setWord h.sound h.range _ _ (hend.keeps_mem.trans hmem)
    · rw [hend.keeps_scu]
      exact hmark
    · rw [hend.keeps_scu]
      exact hdirty
    · rw [hend.keeps_scu]
      exact hlanded
    · rw [hend.keeps_scu]
      exact hrefresh
    · exact State.effect_only _ (hfr.comp hend)
  · have hrow := (row (p := Ident.isLanded) h rfl).trans (State.writeOne_landed b (h.elapse dt))
    have hkind : ((s.elapse dt).beatAt addr.toNat b).id.landedKind = kind := by
      rw [show ((s.elapse dt).beatAt addr.toNat b).id = .landed kind from h.names]
      rfl
    refine ⟨_, exec_served (fun u => u.writeIf Ident.isLanded addr b) hrow (State.Quiet.served h.quiet) rfl rfl rfl rfl,
      fun hl => ?_, fun l hl => ?_, rfl, State.effect_only [.now, .flags, .ptu] (State.blockBeat_fr _ _)⟩
    · show ({ s.ptu with latch := _ } : Ptu) = _
      rw [show (s.elapse dt).ptu.latch = none from hl]
      dsimp only
      rw [hkind]
      rfl
    · show ({ s.ptu with latch := _ } : Ptu) = _
      rw [show (s.elapse dt).ptu.latch = some l from hl]
  · obtain hc | hc := Ident.register_class hr
    · have hrow := (row (p := Ident.isRegister) h hr).trans (State.writeOne_substituted b (h.elapse dt) hc)
      exact ⟨_, exec_served (fun u => u.writeIf Ident.isRegister addr b) hrow (State.Quiet.served h.quiet) rfl rfl rfl rfl,
        fun _ => State.effect_only _ (Frame.refl [] _), fun k => WordClass.noConfusion (hc.symm.trans k)⟩
    · have hrow := (row (p := Ident.isRegister) h hr).trans (State.writeOne_register b (h.elapse dt) hr hc)
      obtain ⟨-, -, -, qc, -⟩ := h.quiet
      refine ⟨_, exec_served (fun u => u.writeIf Ident.isRegister addr b) hrow (State.Quiet.served h.quiet) rfl rfl rfl
        (Ptu.pend_cycle _ _), fun k => WordClass.noConfusion (hc.symm.trans k), fun _ => ⟨Ptu.pend_shaft _ id,
        fun n => Ptu.pend_axis _ id n, Ptu.pend_latch _ id, (Ptu.pend_cycle _ id).trans qc, Ptu.pend_readData _ id,
        State.captured_of_written (s := s.elapse dt) (h.elapse dt).sound h.range b rfl (Ptu.pend_shadow _ id), ?_⟩⟩
      exact State.effect_only _ ((((s.elapse dt).written_fr addr.toNat b).mono (qs := [.ptu, .shadow, .mem])).comp
        (State.onPtu_fr _ _ (Ptu.pend_shadow _ id)))

end Sys2Proof.Machine

/-! Proofs, section 39. The completion of an M-port burst: landings, tile reads and P-port cycles, and what the arbiter makes of the
free port (R26, R37, R42 to R45, R166, R173). -/

namespace Sys2Proof.Machine

set_option Elab.async false

section
variable {s t v : State} {dt : Nat}

/-! ### The event (R42) -/

/-- A burst completes, and the arbiter follows: nothing of the trip state changes. -/
theorem exec_burst (h : (s.elapse dt).burstDone = v) (ht : v.tru = s.tru) (hp : v.flu.position = s.flu.position) :
    exec (.mPortBurstCompletion dt) s = .next v.arbitrate := by
  rw [exec_event State.burstDone h, State.settle, State.reportTrip_id (s := s.elapse dt) ht hp]

theorem State.burstDone_urgent (h : s.lde.holder = .urgent) : s.burstDone = s.freePort.urgentBurst := by
  unfold State.burstDone
  rw [h]

theorem State.burstDone_normal (h : s.lde.holder = .normal) : s.burstDone = s.freePort.normalBurst := by
  unfold State.burstDone
  rw [h]

theorem State.burstDone_cycle (h : s.lde.holder = .cycle) : s.burstDone = s.cycleBurst := by
  unfold State.burstDone
  rw [h]

/-! ### A landing burst's words (R45) -/

/-- Memory after a burst: its words are there, and every other byte is as before. -/
theorem State.lands_setWords {r : Run} (hs : s.Sound) (hr : r.addr + r.words.length ≤ 2 ^ 24)
    (hm : t.mem = Memory.setWords s.mem r.addr r.words) :
    (∀ i (h : i < r.words.length), Memory.word t.mem (r.addr + i) = r.words[i]) ∧
      ∀ a, a < Memory.size → a / 4 < r.addr ∨ r.addr + r.words.length ≤ a / 4 →
        Memory.byte t.mem a = Memory.byte s.mem a := by
  rw [hm]
  refine ⟨fun i hi => Memory.word_setWords hs.mem hr hi, fun a ha hout => ?_⟩
  rw [Memory.byte_setWords r.words hs.mem hr ha, if_neg (by omega)]

/-! ### URGENT entries (R40, R42) -/

theorem State.urgentBurst_more {e : UrgentEntry} {rest : List UrgentEntry} {r : Run} (h : s.lde.urgent = e :: rest)
    (hr : (burstsOf e.runs)[e.done]? = some r) (hmore : e.done + 1 < (burstsOf e.runs).length) :
    s.urgentBurst = (s.writeRun r).onLde fun q => { q with urgent := { e with done := e.done + 1 } :: rest } := by
  unfold State.urgentBurst
  rw [h]
  dsimp only
  rw [hr, if_neg (by omega)]

theorem State.urgentBurst_last {e : UrgentEntry} {rest : List UrgentEntry} {r : Run} (h : s.lde.urgent = e :: rest)
    (hr : (burstsOf e.runs)[e.done]? = some r) (hlast : (burstsOf e.runs).length ≤ e.done + 1) :
    s.urgentBurst = (s.writeRun r).onLde fun q => { q with urgent := rest }.takeFollow e.src := by
  unfold State.urgentBurst
  rw [h]
  dsimp only
  rw [hr, if_pos hlast]

/-- A source without a follow-on record enters nothing (R40). -/
theorem Lde.takeFollow_none {q : Lde} {src : UrgentSource} (h : ∀ f ∈ q.follow, f.1 ≠ src) : q.takeFollow src = q := by
  have hfind : q.follow.find? (fun f => decide (f.1 = src)) = none :=
    List.find?_eq_none.2 fun f hf => by simpa using h f hf
  unfold Lde.takeFollow
  rw [hfind]

theorem Lde.takeFollow_normal (q : Lde) (src : UrgentSource) : (q.takeFollow src).normal = q.normal := by
  unfold Lde.takeFollow
  split <;> rfl

/-- A burst of the oldest URGENT entry: its words, and the NORMAL queue left alone. -/
theorem State.urgentBurst_lands {e : UrgentEntry} {rest : List UrgentEntry} {r : Run} (h : s.lde.urgent = e :: rest)
    (hr : (burstsOf e.runs)[e.done]? = some r) : s.urgentBurst.mem = Memory.setWords s.mem r.addr r.words ∧
      s.urgentBurst.lde.normal = s.lde.normal := by
  rcases Nat.lt_or_ge (e.done + 1) (burstsOf e.runs).length with hmore | hlast
  · rw [State.urgentBurst_more h hr hmore]
    exact ⟨rfl, rfl⟩
  · rw [State.urgentBurst_last h hr hlast]
    exact ⟨rfl, Lde.takeFollow_normal _ _⟩

/-! ### NORMAL entries (R37, R42, R43, R45) -/

theorem State.normalBurst_more {e : NormalEntry} {rest : List NormalEntry} {r : Run} (h : s.lde.normal = e :: rest)
    (hq : e.req.isRead = false) (hr : (burstsOf e.runs)[e.done]? = some r) (hmore : e.done + 1 < (burstsOf e.runs).length) :
    s.normalBurst = (s.writeRun r).onLde fun q => { q with normal := { e with done := e.done + 1 } :: rest } := by
  unfold State.normalBurst
  rw [h]
  dsimp only
  rw [hq, List.getD_eq_getElem?_getD, hr, if_neg (by omega)]
  rfl

theorem State.normalBurst_last {e : NormalEntry} {rest : List NormalEntry} {r : Run} (h : s.lde.normal = e :: rest)
    (hq : e.req.isRead = false) (hr : (burstsOf e.runs)[e.done]? = some r)
    (hlast : (burstsOf e.runs).length ≤ e.done + 1) : s.normalBurst =
      ((s.writeRun r).onLde fun q => { q with normal := rest, starved := false }).entryDone e.req e.got := by
  unfold State.normalBurst
  rw [h]
  dsimp only
  rw [hq, List.getD_eq_getElem?_getD, hr, if_pos hlast]
  rfl

/-- The last burst of a tile read hands the words over (R173). -/
theorem State.normalBurst_read {e : NormalEntry} {rest : List NormalEntry} {r : Run} {i : Fin 2} {u : Nat}
    (h : s.lde.normal = e :: rest) (hq : e.req = .tileRead i u) (hr : (burstsOf e.runs)[e.done]? = some r)
    (hlast : (burstsOf e.runs).length ≤ e.done + 1) : s.normalBurst =
      (s.onLde fun q => { q with normal := rest, starved := false }).fetchDone i u
        (e.got ++ Memory.words s.mem r.addr r.words.length) := by
  unfold State.normalBurst
  rw [h]
  dsimp only
  rw [hq, List.getD_eq_getElem?_getD, hr, if_pos hlast]
  rfl

theorem State.normalBurst_read_fr {e : NormalEntry} {rest : List NormalEntry} {r : Run} {i : Fin 2} {u : Nat}
    (h : s.lde.normal = e :: rest) (hq : e.req = .tileRead i u) (hr : (burstsOf e.runs)[e.done]? = some r)
    (hlast : (burstsOf e.runs).length ≤ e.done + 1) : Frame [.scu, .flags, .lde] s s.normalBurst := by
  have hfr := State.fetchDone_fr (s.onLde fun q => { q with normal := rest, starved := false }) i u
    (e.got ++ Memory.words s.mem r.addr r.words.length)
  have heq := State.normalBurst_read h hq hr hlast
  refine ((s.normalBurst_fr.mono (qs := [.mem, .igu, .scu, .flags, .lde])).drop ?_).drop ?_
  · rw [heq]
    exact hfr.keeps_mem
  · rw [heq]
    exact hfr.keeps_igu

/-- A requester that lands words leaves queue and memory alone when it learns of the completion. -/
theorem State.entryDone_lands {req : Requester} (h : req.isRead = false) (got : List Word) :
    Frame [.igu, .scu, .flags] s (s.entryDone req got) := by
  cases req with
  | result => exact (s.notify_fr 5).mono
  | fragment => exact Frame.refl _ _
  | descriptor st buf complete => exact (State.descriptorLanded_fr s st buf complete).mono
  | emptyDescriptor => exact Frame.refl _ _
  | tileRead i t => cases h
  | tileLand i => exact (State.tileLanded_fr s i).mono
  | keys => exact (s.notify_fr 9).mono

/-- A burst of the oldest NORMAL entry that lands words: its words, and the URGENT queue left alone. -/
theorem State.normalBurst_lands {e : NormalEntry} {rest : List NormalEntry} {r : Run} (h : s.lde.normal = e :: rest)
    (hq : e.req.isRead = false) (hr : (burstsOf e.runs)[e.done]? = some r) :
    s.normalBurst.mem = Memory.setWords s.mem r.addr r.words ∧ s.normalBurst.lde.urgent = s.lde.urgent := by
  rcases Nat.lt_or_ge (e.done + 1) (burstsOf e.runs).length with hmore | hlast
  · rw [State.normalBurst_more h hq hr hmore]
    exact ⟨rfl, rfl⟩
  · have hfr := State.entryDone_lands (s := (s.writeRun r).onLde fun q => { q with normal := rest, starved := false }) hq e.got
    rw [State.normalBurst_last h hq hr hlast, hfr.keeps_mem, hfr.keeps_lde]
    exact ⟨rfl, rfl⟩

/-- What the requester of a NORMAL landing learns: flags 5 and 9, or the buffer handed over with flag 6 or 7 (R37, R166,
R184). -/
theorem State.entryDone_learns (req : Requester) (got : List Word) :
    (req = .result → (s.entryDone req got).cnu.flags.getLsbD 5 = true) ∧
      (req = .keys → (s.entryDone req got).cnu.flags.getLsbD 9 = true) ∧
      ∀ st buf complete, req = .descriptor st buf complete → (s.entryDone req got).igu.streams[st].own[buf] = .processor ∧
        (s.entryDone req got).cnu.flags.getLsbD (if complete then 6 else 7) = true := by
  refine ⟨fun h => ?_, fun h => ?_, fun st buf complete h => ?_⟩
  · rw [h]
    exact s.notify_self 5
  · rw [h]
    exact s.notify_self 9
  · rw [h]
    refine ⟨?_, State.notify_self _ _ (by cases complete <;> decide)⟩
    show (modAt s.igu.streams st _)[st].own[buf] = _
    rw [modAt_self]
    exact setAt_self _ _ _

/-- The words of a tile read join the send buffer of a JOINED node (R173). -/
theorem State.fetchDone_buffer {i : Fin 2} {u : Nat} {w : Window} {p : ScreenParams} (words : List Word)
    (hj : s.isJoined = true) (hw : s.cfg.screenOut i = some (w, p)) : (s.fetchDone i u words).scu.buffer =
      s.scu.buffer ++ [{ screen := i, dest := p.pos, number := p.number, tile := u, bytes := bytesOfWords words }] := by
  unfold State.fetchDone
  dsimp only
  rw [State.tryFetch_buffer, if_pos hj, hw]
  rfl

/-! ### P-port cycles (R26, R44) -/

/-- Read beats that reach memory return its words. -/
theorem State.acceptBeats_memory (s : State) (c : PCycle) (bs : List PBeat) (h : ∀ x ∈ bs, x.id.reaches false = true) :
    (s.onPtu fun p => { p with cycle := some c }).acceptBeats false bs = s.onPtu fun p =>
      { p with cycle := some { c with answers := c.answers ++ bs.map fun x => Memory.word s.mem x.addr } } := by
  induction bs generalizing c with
  | nil => rw [List.map_nil, List.append_nil]; rfl
  | cons x bs ih =>
    have hx : (s.onPtu fun p => { p with cycle := some c }).acceptBeat false x =
        s.onPtu fun p => { p with cycle := some { c with answers := c.answers ++ [Memory.word s.mem x.addr] } } := by
      unfold State.acceptBeat State.readWord
      rw [h x (List.mem_cons_self ..)]
      rfl
    have step : (s.onPtu fun p => { p with cycle := some c }).acceptBeats false (x :: bs) =
        ((s.onPtu fun p => { p with cycle := some c }).acceptBeat false x).acceptBeats false bs := rfl
    rw [step, hx, ih _ fun y hy => h y (List.mem_cons_of_mem _ hy)]
    simp

/-- A run that takes every beat left of the cycle (R28). -/
theorem State.passRun_all {c : PCycle} (h : s.ptu.cycle = some c) (hall : ∀ x ∈ c.beats, x.id.reaches c.write = true) :
    s.passRun = ((s.onPtu fun p => { p with cycle := some { c with beats := [] } }).acceptBeats c.write c.beats).passBeats := by
  have hgo : c.beats.takeWhile (fun x => x.id.reaches c.write) = c.beats := List.takeWhile_eq_self_iff.2 hall
  have hrest : c.beats.dropWhile (fun x => x.id.reaches c.write) = [] := List.dropWhile_eq_nil_iff.2 hall
  unfold State.passRun
  rw [h]
  dsimp only
  rw [hgo, hrest]

/-- A cycle whose last beat has been taken completes, and the cycle held behind it is the next. -/
theorem State.cycleBurst_ends {c : PCycle} (h : s.passRun.ptu.cycle = some c) (hb : c.beats = []) (ht : c.takes = []) :
    s.cycleBurst = (s.passRun.freePort.onPtu fun p =>
      { p with cycle := none, readData := if c.write then p.readData else c.answers }).nextCycle := by
  have hspent : s.passRun.cycleSpent = true := by
    unfold State.cycleSpent
    rw [h, Option.any_some, hb]
    rfl
  unfold State.cycleBurst
  dsimp only
  rw [if_pos hspent, State.endCycle_plain (s := s.passRun.freePort) h ht]

/-- A read of memory words alone, at its burst's completion. -/
theorem State.cycleBurst_read {c : PCycle} (h : s.ptu.cycle = some c) (ht : c.takes = []) (hw : c.write = false)
    (hall : ∀ x ∈ c.beats, x.id.reaches false = true) : s.cycleBurst = (s.freePort.onPtu fun p =>
      { p with cycle := none, readData := c.answers ++ c.beats.map fun x => Memory.word s.mem x.addr }).nextCycle := by
  rcases c with ⟨write, beats, answers, takes, granted⟩
  obtain rfl : write = false := hw
  have hrun : s.passRun = s.onPtu fun p => { p with cycle := some (⟨false, [], answers ++ beats.map fun x => Memory.word s.mem x.addr,
      takes, granted⟩ : PCycle) } := by
    rw [State.passRun_all h hall, State.acceptBeats_memory s _ _ hall]
    exact State.passBeats_spent rfl rfl
  rw [State.cycleBurst_ends (congrArg (fun u : State => u.ptu.cycle) hrun) rfl (by exact ht), hrun]
  rfl

/-- A write of one word to memory alone, at its burst's completion. -/
theorem State.cycleBurst_write {c : PCycle} {x : PBeat} (h : s.ptu.cycle = some c) (ht : c.takes = []) (hw : c.write = true)
    (hb : c.beats = [x]) (hx : x.id = .outside ∨ x.id = .ordinary) : s.cycleBurst =
      ((s.freePort.onMem fun m => Memory.setWord m x.addr x.data x.be).onPtu fun p => { p with cycle := none }).nextCycle := by
  have hreach : x.id.reaches true = true := by rcases hx with e | e <;> rw [e] <;> rfl
  have hbeat : ∀ u : State, u.acceptBeats true [x] = u.onMem fun m => Memory.setWord m x.addr x.data x.be := by
    intro u
    show u.writeBeat x = _
    unfold State.writeBeat
    rcases hx with e | e <;> rw [e] <;> rfl
  have hrun : s.passRun = (s.onPtu fun p => { p with cycle := some { c with beats := [] } }).onMem fun m =>
      Memory.setWord m x.addr x.data x.be := by
    rw [State.passRun_all h (by rw [hb, hw]; simpa using hreach), hb, hw, hbeat,
      State.passBeats_spent (c := { c with beats := [] }) (by rw [hw]; rfl) rfl]
  rw [State.cycleBurst_ends (c := { c with beats := [] }) (by rw [hrun]; rfl) rfl ht, hrun]
  dsimp only
  rw [hw]
  rfl

/-! ### The arbiter at a cycle that waits (R42 to R44) -/

theorem State.arbitrate_urgentFirst (hf : s.lde.holder = .free) (hu : s.lde.urgent ≠ []) :
    s.arbitrate.lde.holder = .urgent ∧ s.arbitrate.ptu = s.ptu := by
  have hs := s.starve_fr
  have hstarve : s.starve.lde.urgent = s.lde.urgent := by
    unfold State.starve
    split <;> rfl
  unfold State.arbitrate
  rw [if_neg (not_not.2 hf)]
  dsimp only
  rw [if_pos (by rw [hstarve]; simpa using hu)]
  exact ⟨rfl, hs.keeps_ptu⟩

/-- With no URGENT entry, and no NORMAL entry starved, the waiting cycle is granted. -/
theorem State.arbitrate_cycleNext (hf : s.lde.holder = .free) (hu : s.lde.urgent = [])
    (hn : s.lde.normal = [] ∨ s.lde.starved = false ∧ s.waitReached = false) (hw : s.cycleWaits = true) :
    s.arbitrate = s.grantCycle := by
  have hstarve : s.starve = s := by
    unfold State.starve
    refine if_neg ?_
    rcases hn with h | ⟨-, h⟩
    · unfold State.waitReached
      rw [h]
      exact Bool.false_ne_true
    · rw [h]
      exact Bool.false_ne_true
  have hfirst : (s.lde.starved && !s.lde.normal.isEmpty) = false := by
    rcases hn with h | ⟨h, -⟩
    · rw [h]
      exact Bool.and_false _
    · rw [h]
      rfl
  unfold State.arbitrate
  rw [if_neg (not_not.2 hf), hstarve]
  dsimp only
  rw [hu, hfirst, hw, if_neg (by decide)]
  exact if_pos rfl

/-- The beats before the first run leave the cycle in progress, and nothing else of it but its answers changes (R44). -/
theorem State.passBeats_cycle (s : State) (c : PCycle) :
    ∃ d, (s.onPtu fun p => { p with cycle := some c }).passBeats.ptu.cycle = some d ∧ d.granted = c.granted ∧
      d.write = c.write ∧ d.beats = c.beats.dropWhile fun x => !x.id.reaches c.write := by
  cases hw : c.write with
  | true => exact ⟨_, (State.passBeats_write s hw).2.1, rfl, hw, by rw [hw]⟩
  | false => exact ⟨_, congrArg (fun u : State => u.ptu.cycle) (State.passBeats_read s hw), rfl, hw, by rw [hw]⟩

/-- The cycle granted, its beats before the first run accepted (R44). -/
theorem State.grantCycle_cycle {c : PCycle} (h : s.ptu.cycle = some c) : s.grantCycle.lde.holder = .cycle ∧
    ∃ d, s.grantCycle.ptu.cycle = some d ∧ d.granted = true ∧ d.write = c.write ∧
      d.beats = c.beats.dropWhile fun x => !x.id.reaches c.write := by
  have hg : s.grantCycle =
      ((s.giveTo .cycle).onPtu fun p => { p with cycle := some { c with granted := true } }).passBeats := by
    have hp : ({ s.ptu with cycle := s.ptu.cycle.map fun c => { c with granted := true } } : Ptu) =
        { s.ptu with cycle := some { c with granted := true } } := by
      rw [h]
      rfl
    exact congrArg (fun p => State.passBeats { s.giveTo .cycle with ptu := p }) hp
  refine ⟨congrArg Lde.holder (State.passBeats_fr _).keeps_lde, ?_⟩
  rw [hg]
  exact State.passBeats_cycle (s.giveTo .cycle) { c with granted := true }

end

end Sys2Proof.Machine

/-! Proofs, section 40. The obligation on completed bursts (R26, R37, R42 to R45, R166, R173, R184), one case for each holder of the
M-port. -/

namespace Sys2Proof.Machine

set_option Elab.async false

section
variable {s : State}

theorem State.arbitrate_mem (s : State) : s.arbitrate.mem = s.mem := s.arbitrate_fr.keeps_mem

/-- A cycle over, and none held behind it: the arbiter touches the landing queue alone (R42). -/
theorem State.arbitrate_over {v : State} {dt : Nat} {ps : List Part} (qs : List Part) (hf : Frame ps (s.elapse dt) v)
    (hc : v.ptu.cycle = none) (m : within ps qs = true := by rfl) (m1 : within [.now] qs = true := by rfl)
    (m2 : within [.lde] qs = true := by rfl) :
    v.arbitrate.ptu = v.ptu ∧ v.arbitrate.mem = v.mem ∧ OnlyTouches qs s v.arbitrate := by
  obtain ⟨ha, -⟩ := State.arbitrate_idle hc
  exact ⟨ha.keeps_ptu, ha.keeps_mem, State.effect_only qs ((hf.mono (m := m)).comp ha m2) (within_refl qs) m1⟩

/-- The read of memory words that is complete, before the next cycle. -/
def State.readOver (s : State) (c : PCycle) : State :=
  s.freePort.onPtu fun p =>
    { p with cycle := none, readData := c.answers ++ c.beats.map fun x => Memory.word s.mem x.addr }

theorem State.readOver_fr (s : State) (c : PCycle) : Frame [.ptu, .lde] s (s.readOver c) :=
  ((s.freePort_fr).mono (qs := [.ptu, .lde])).comp (State.onPtu_fr _ _ rfl)

/-- The write of one memory word that is complete, before the next cycle. -/
def State.writeOver (s : State) (x : PBeat) : State :=
  (s.freePort.onMem fun m => Memory.setWord m x.addr x.data x.be).onPtu fun p => { p with cycle := none }

theorem State.writeOver_fr (s : State) (x : PBeat) : Frame [.ptu, .lde, .mem] s (s.writeOver x) :=
  (((s.freePort_fr).mono (qs := [.ptu, .lde, .mem])).comp (State.setWord_fr _ x.addr x.data x.be)).comp
    (State.onPtu_fr _ _ rfl)

/-- The oldest NORMAL entry has not waited to the limit (R43). -/
theorem State.waitReached_not (h : ∀ e ∈ s.lde.normal.head?, s.now - e.entered < s.cfg.starveUs * 125) :
    s.waitReached = false := by
  unfold State.waitReached
  split
  · rfl
  · next e rest hn =>
    rw [hn] at h
    exact decide_eq_false (Nat.not_le.2 (h e rfl))

/-- A read is complete and another cycle waits: an URGENT entry goes first, else the cycle unless a NORMAL entry is starved
(R42 to R44). -/
theorem State.readOver_next {c c2 : PCycle} {rest : List PCycle} (hb : s.ptu.behind = c2 :: rest) (hg : c2.granted = false) :
    let t := (s.readOver c).nextCycle.arbitrate
    t.ptu.readData = c.answers ++ (c.beats.map fun x => Memory.word s.mem x.addr) ∧ t.ptu.behind = rest ∧
      (s.lde.urgent ≠ [] → t.ptu.cycle = some c2 ∧ t.lde.holder = .urgent) ∧
      (s.lde.urgent = [] → s.lde.normal = [] ∨ s.lde.starved = false ∧ s.waitReached = false →
        t.lde.holder = .cycle ∧ ∃ c3, t.ptu.cycle = some c3 ∧ c3.granted = true ∧ c3.write = c2.write ∧
          c3.beats = c2.beats.dropWhile fun x => !x.id.reaches c2.write) ∧
      t.lde.urgent = s.lde.urgent ∧ t.lde.normal = s.lde.normal ∧ Frame [.flags, .ptu, .lde] s t := by
  have hnext : (s.readOver c).nextCycle = (s.readOver c).onPtu fun p => { p with cycle := some c2, behind := rest } :=
    State.nextCycle_some hb
  have hfr : Frame [.flags, .ptu, .lde] s (s.readOver c).nextCycle :=
    ((s.readOver_fr c).mono (qs := [.flags, .ptu, .lde])).comp (State.nextCycle_fr _)
  rw [hnext] at hfr ⊢
  generalize hx : ((s.readOver c).onPtu fun p => { p with cycle := some c2, behind := rest }) = x at hfr
  have hlde : x.lde = { s.lde with holder := .free } := by rw [← hx]; rfl
  have hcycle : x.ptu.cycle = some c2 := by rw [← hx]; rfl
  have hread : x.ptu.readData = c.answers ++ c.beats.map fun y => Memory.word s.mem y.addr := by rw [← hx]; rfl
  have hbehind : x.ptu.behind = rest := by rw [← hx]; rfl
  have hwait : x.waitReached = s.waitReached := by rw [← hx]; rfl
  have hfree : x.lde.holder = .free := by rw [hlde]
  have hwaits : x.cycleWaits = true := by
    unfold State.cycleWaits
    rw [hcycle, Option.any_some, hg]
    rfl
  obtain ⟨d, l, hptu⟩ := x.arbitrate_ptu
  obtain ⟨hnormal, hurgent⟩ := x.arbitrate_lde
  intro t
  refine ⟨(congrArg Ptu.readData hptu).trans hread, (congrArg Ptu.behind hptu).trans hbehind, fun hu => ?_,
    fun hu hn => ?_, hurgent.trans (by rw [hlde]), hnormal.trans (by rw [hlde]), hfr.comp (State.arbitrate_fr x)⟩
  · obtain ⟨hholder, hkeep⟩ := State.arbitrate_urgentFirst hfree (by rw [hlde]; exact hu)
    exact ⟨(congrArg Ptu.cycle hkeep).trans hcycle, hholder⟩
  · have ht : t = x.grantCycle := State.arbitrate_cycleNext hfree (by rw [hlde]; exact hu)
      (by rw [hlde, hwait]; exact hn) hwaits
    rw [ht]
    exact State.grantCycle_cycle hcycle

end

/-- Settles O56: what each holder's burst makes of the node, then the arbiter at the free port. -/
theorem completedBurstsReachMemory : Obligations.CompletedBurstsReachMemory := by
  intro dt s hs landed
  refine ⟨fun e rest r hh hu hr hlen => ?_, fun e rest r hh hn hq hr hlen => ?_,
    fun e rest r i u w p hh hn hq hr hlast hj hw => ?_, fun c hh hc ht hb => ⟨fun hw hall => ?_, fun x hw hx hid hlt => ?_⟩,
    fun c c2 rest hh hc ht hb hg hw hall => ?_⟩
  · obtain ⟨hmem, hnormal⟩ := State.urgentBurst_lands (s := (s.elapse dt).freePort) hu hr
    have hfr := (((s.elapse dt).freePort_fr).mono (qs := [.lde, .mem])).comp (State.urgentBurst_fr _)
    obtain ⟨an, au⟩ := (s.elapse dt).freePort.urgentBurst.arbitrate_lde
    refine ⟨_, exec_burst (State.burstDone_urgent hh) hfr.keeps_tru (congrArg Flu.position hfr.keeps_flu),
      State.lands_setWords hs hlen ((State.arbitrate_mem _).trans hmem), fun hmore => au.trans ?_,
      fun hlast hfollow => au.trans ?_, an.trans hnormal, ?_⟩
    · rw [State.urgentBurst_more (s := (s.elapse dt).freePort) hu hr hmore]
      rfl
    · rw [State.urgentBurst_last (s := (s.elapse dt).freePort) hu hr hlast.le]
      exact congrArg Lde.urgent (Lde.takeFollow_none (q := { (s.elapse dt).freePort.lde with urgent := rest }) hfollow)
    · exact State.effect_only _ ((hfr.mono (qs := [.flags, .ptu, .lde, .mem])).comp (State.arbitrate_fr _))
  · obtain ⟨hmem, hurgent⟩ := State.normalBurst_lands (s := (s.elapse dt).freePort) hn hq hr
    have hfr := (((s.elapse dt).freePort_fr).mono (qs := [.igu, .scu, .flags, .lde, .mem])).comp (State.normalBurst_fr _)
    have hend := State.arbitrate_fr (s.elapse dt).freePort.normalBurst
    have hstay : FlagsStay (s.elapse dt).freePort.normalBurst (s.elapse dt).freePort.normalBurst.arbitrate :=
      (FlagsStay.refl _).arbitrate
    obtain ⟨an, au⟩ := (s.elapse dt).freePort.normalBurst.arbitrate_lde
    refine ⟨_, exec_burst (State.burstDone_normal hh) hfr.keeps_tru (congrArg Flu.position hfr.keeps_flu),
      State.lands_setWords hs hlen ((State.arbitrate_mem _).trans hmem), fun hmore => an.trans ?_,
      fun hlast => ⟨an.trans ?_, ?_⟩, au.trans hurgent, ?_⟩
    · rw [State.normalBurst_more (s := (s.elapse dt).freePort) hn hq hr hmore]
      rfl
    · rw [State.normalBurst_last (s := (s.elapse dt).freePort) hn hq hr hlast.le,
        (State.entryDone_lands hq e.got).keeps_lde]
      rfl
    · rw [hend.keeps_igu]
      rw [State.normalBurst_last (s := (s.elapse dt).freePort) hn hq hr hlast.le] at hstay ⊢
      obtain ⟨hresult, hkeys, hdesc⟩ := State.entryDone_learns (s := ((s.elapse dt).freePort.writeRun r).onLde fun q =>
        { q with normal := rest, starved := false }) e.req e.got
      refine ⟨fun h => hstay 5 (hresult h), fun h => hstay 9 (hkeys h), fun st buf complete h => ?_⟩
      obtain ⟨hown, hflag⟩ := hdesc st buf complete h
      exact ⟨hown, hstay _ hflag⟩
    · exact State.effect_only _ ((hfr.mono (qs := [.igu, .scu, .flags, .ptu, .lde, .mem])).comp hend)
  · have hfr := (((s.elapse dt).freePort_fr).mono (qs := [.scu, .flags, .lde])).comp
      (State.normalBurst_read_fr (s := (s.elapse dt).freePort) hn hq hr hlast.le)
    have hend := State.arbitrate_fr (s.elapse dt).freePort.normalBurst
    refine ⟨_, exec_burst (State.burstDone_normal (s := s.elapse dt) hh) hfr.keeps_tru (congrArg Flu.position hfr.keeps_flu),
      ?_, State.effect_only _ ((hfr.mono (qs := [.scu, .flags, .ptu, .lde])).comp hend)⟩
    rw [hend.keeps_scu, State.normalBurst_read (s := (s.elapse dt).freePort) hn hq hr hlast.le]
    exact State.fetchDone_buffer (s := (s.elapse dt).freePort.onLde fun q => { q with normal := rest, starved := false }) _ hj hw
  · have hv : (s.elapse dt).burstDone = (s.elapse dt).readOver c := ((State.burstDone_cycle (s := s.elapse dt) hh).trans
      (State.cycleBurst_read (s := s.elapse dt) hc ht hw hall)).trans (State.nextCycle_none hb)
    obtain ⟨hptu, -, honly⟩ := State.arbitrate_over [.now, .ptu, .lde] ((s.elapse dt).readOver_fr c) rfl
    obtain ⟨an, au⟩ := ((s.elapse dt).readOver c).arbitrate_lde
    exact ⟨_, exec_burst hv rfl rfl, hptu, au, an, honly⟩
  · have hv : (s.elapse dt).burstDone = (s.elapse dt).writeOver x := ((State.burstDone_cycle (s := s.elapse dt) hh).trans
      (State.cycleBurst_write (s := s.elapse dt) hc ht hw hx hid)).trans (State.nextCycle_none hb)
    obtain ⟨hptu, hmem, honly⟩ := State.arbitrate_over [.now, .ptu, .lde, .mem] ((s.elapse dt).writeOver_fr x) rfl
    exact ⟨_, exec_burst hv rfl rfl, hptu, State.stores_setWord hs hlt x.data x.be hmem, honly⟩
  · have hv : (s.elapse dt).burstDone = ((s.elapse dt).readOver c).nextCycle :=
      (State.burstDone_cycle (s := s.elapse dt) hh).trans (State.cycleBurst_read (s := s.elapse dt) hc ht hw hall)
    obtain ⟨hread, hbehind, hfirst, hgrant, hurgent, hnormal, hfr⟩ := State.readOver_next (s := s.elapse dt) (c := c) hb hg
    have hkeep := (State.nextCycle_fr ((s.elapse dt).readOver c))
    refine ⟨_, exec_burst hv hkeep.keeps_tru (congrArg Flu.position hkeep.keeps_flu), hread, hbehind, hfirst,
      fun hu hn => hgrant hu (hn.imp_right fun ⟨hstarved, hwait⟩ => ⟨hstarved, State.waitReached_not hwait⟩),
      hurgent, hnormal, State.effect_only _ hfr⟩

end Sys2Proof.Machine

/-! Proofs, section 41. Ramps, the speed step and the integration (R49, R53 to R55). -/

namespace Sys2Proof.Machine

set_option Elab.async false

/-! ### The speed along a ramp (R53) -/

/-- A ramp with one more step made. -/
def Ramp.next (r : Ramp) : Ramp := { r with k := r.k + 1 }

section
variable {r : Ramp}

theorem Ramp.progress_le (x : Nat) {k n : Nat} (h : k ≤ n) : x * k / n ≤ x :=
  Nat.div_le_of_le_mul (by rw [Nat.mul_comm]; exact Nat.mul_le_mul_right x h)

theorem Ramp.speed_rising (h : r.v0 ≤ r.vt) : r.speed = r.v0 + (r.vt - r.v0) * r.k / r.n := if_pos h

theorem Ramp.speed_falling (h : ¬ r.v0 ≤ r.vt) : r.speed = r.v0 - (r.v0 - r.vt) * r.k / r.n := if_neg h

/-- The speed of a ramp is the signed formula of R53. -/
theorem Ramp.speed_signed (hk : r.k ≤ r.n) : (r.speed : Int) =
    r.v0 + (if r.v0 ≤ r.vt then 1 else -1) * (((r.vt - r.v0 : Int).natAbs * r.k / r.n : Nat) : Int) := by
  by_cases h : r.v0 ≤ r.vt
  · rw [Ramp.speed_rising h, if_pos h, show (r.vt - r.v0 : Int).natAbs = r.vt - r.v0 by omega]
    omega
  · have hd := Ramp.progress_le (r.v0 - r.vt) hk
    rw [Ramp.speed_falling h, if_neg h, show (r.vt - r.v0 : Int).natAbs = r.v0 - r.vt by omega]
    omega

/-- A ramp stays between its start speed and its target. -/
theorem Ramp.speed_between (hk : r.k ≤ r.n) : min r.v0 r.vt ≤ r.speed ∧ r.speed ≤ max r.v0 r.vt := by
  by_cases h : r.v0 ≤ r.vt
  · have hd := Ramp.progress_le (r.vt - r.v0) hk
    rw [Ramp.speed_rising h, min_eq_left h, max_eq_right h]
    generalize (r.vt - r.v0) * r.k / r.n = d at hd
    omega
  · have hd := Ramp.progress_le (r.v0 - r.vt) hk
    rw [Ramp.speed_falling h, min_eq_right (Nat.le_of_not_le h), max_eq_left (Nat.le_of_not_le h)]
    generalize (r.v0 - r.vt) * r.k / r.n = d at hd
    omega

/-- The last step of a ramp ends at its target. -/
theorem Ramp.speed_last (hk : r.k = r.n) (hn : 0 < r.n) : r.speed = r.vt := by
  by_cases h : r.v0 ≤ r.vt
  · rw [Ramp.speed_rising h, hk, Nat.mul_div_cancel _ hn]
    omega
  · rw [Ramp.speed_falling h, hk, Nat.mul_div_cancel _ hn]
    omega

/-- A ramp to 0 does not rise above its start speed, whatever its step. -/
theorem Ramp.speed_stop_le (h : r.vt = 0) : r.speed ≤ r.v0 := by
  by_cases hv : r.v0 ≤ r.vt
  · rw [Ramp.speed_rising hv, h, Nat.zero_sub, Nat.zero_mul, Nat.zero_div]
    exact Nat.le_refl _
  · rw [Ramp.speed_falling hv]
    exact Nat.sub_le _ _

end

/-! ### The speed step (R50, R53) -/

section
variable {g : Gen} {r : Ramp}

theorem Gen.stepSpeed_ramping (h : g.state = .ramping) (hr : g.ramp = some r) : g.stepSpeed =
    { g with speed := r.next.speed, ramp := some r.next,
             state := if r.n ≤ r.k + 1 then (if r.vt = 0 then .standstill else .running) else .ramping } := by
  unfold Gen.stepSpeed
  rw [h, hr]
  rfl

theorem Gen.stepSpeed_stopping (h : g.state = .stopping) (hr : g.ramp = some r) : g.stepSpeed =
    if r.next.speed = 0 then { g with speed := 0, ramp := none, state := .standstill }
    else { g with speed := r.next.speed, ramp := some r.next } := by
  unfold Gen.stepSpeed
  rw [h, hr]
  rfl

/-- Without a ramp record there is nothing to step. -/
theorem Gen.stepSpeed_rampless (h : g.state = .ramping ∨ g.state = .stopping) (hr : g.ramp = none) : g.stepSpeed = g := by
  unfold Gen.stepSpeed
  rcases h with h | h <;> rw [h, hr]

theorem Gen.stepSpeed_steady (h : g.state = .running ∨ g.state = .held) : g.stepSpeed = g := by
  unfold Gen.stepSpeed
  rcases h with h | h <;> rw [h]

theorem Gen.stepSpeed_still (h : g.state = .standstill ∨ g.state = .coasted) : g.stepSpeed = { g with speed := 0 } := by
  unfold Gen.stepSpeed
  rcases h with h | h <;> rw [h]

/-- The speed after a step of a ramp record, commanded or stopping. -/
theorem Gen.stepSpeed_speed (h : g.state = .ramping ∨ g.state = .stopping) (hr : g.ramp = some r) :
    g.stepSpeed.speed = r.next.speed := by
  rcases h with h | h
  · rw [Gen.stepSpeed_ramping h hr]
  · rw [Gen.stepSpeed_stopping h hr]
    split
    · rename_i h0
      exact h0.symm
    · rfl

end

/-- Settles O13: `Ramp.speed_signed` and `Ramp.speed_last`, and the step of each state. -/
theorem speedStepFollowsTheRamp : Obligations.SpeedStepFollowsTheRamp := by
  refine ⟨fun g r hr hk h => ?_, fun g => ⟨Gen.stepSpeed_steady, Gen.stepSpeed_still⟩⟩
  intro k v
  have hv : (r.next.speed : Int) = v := Ramp.speed_signed (r := r.next) hk
  have hzero : v = 0 ↔ r.next.speed = 0 := by omega
  have hlast : k = r.n ↔ r.n ≤ r.k + 1 := ⟨fun e => e.ge, fun e => Nat.le_antisymm hk e⟩
  obtain ⟨hmin, hmax⟩ := Ramp.speed_between (r := r.next) hk
  rw [Gen.stepSpeed_speed h hr]
  refine ⟨hv, hmin, hmax, fun vmax h0 ht => hmax.trans (max_le h0 ht), fun hend => ?_, fun hs => ?_, fun hs => ?_⟩
  · exact Ramp.speed_last (r := r.next) hend (Nat.zero_lt_of_lt hk)
  · rw [Gen.stepSpeed_ramping hs hr]
    exact ⟨rfl, if_congr hlast.symm rfl rfl⟩
  · rw [Gen.stepSpeed_stopping hs hr]
    simp only [hzero]
    split
    · exact ⟨rfl, rfl⟩
    · exact ⟨rfl, hs⟩

/-! ### The length of a stop ramp (R54) -/

/-- The stop time of the reference stop of class B or C (R54). -/
def stopTime (c : NodeCfg) (cls : TripClass) : Nat := if cls = .b then c.tqs else c.tcs

section
variable {c : NodeCfg} {v : Nat} {cls : TripClass}

theorem stopLength_eq : stopLength c v cls = max 1 (min 65535 (v * stopTime c cls ⌈/⌉ c.vref)) := rfl

theorem stopLength_pos : 1 ≤ stopLength c v cls := le_max_left _ _

theorem stopLength_le : stopLength c v cls ≤ 65535 := max_le (by decide) (min_le_left _ _)

/-- n_stop is the least length at which the ramp is no steeper than the reference stop, within 1 to 65,535. -/
theorem stopLength_le_iff {n : Nat} (hv : 0 < c.vref) (hn : 1 ≤ n) :
    stopLength c v cls ≤ n ↔ 65535 ≤ n ∨ v * stopTime c cls ≤ n * c.vref := by
  rw [stopLength_eq, max_le_iff, min_le_iff, ceilDiv_le_iff_le_mul hv, Nat.mul_comm n]
  exact and_iff_right hn

/-- A length between the bounds that is determined by the reference stop. -/
theorem stopLength_eq_of {m : Nat} (hv : 0 < c.vref) (h1 : 1 ≤ m) (h2 : m ≤ 65535)
    (h : ∀ n, v * stopTime c cls ≤ n * c.vref ↔ m ≤ n) : stopLength c v cls = m := by
  refine Nat.le_antisymm ((stopLength_le_iff hv h1).2 (.inr ((h m).2 (Nat.le_refl m)))) ?_
  rcases (stopLength_le_iff (n := stopLength c v cls) hv stopLength_pos).1 (Nat.le_refl _) with hn | hn
  · exact h2.trans hn
  · exact (h _).1 hn

end

/-! ### The start of a stop ramp (R49) -/

/-- Class B or C stops a generator that moves without stopping. -/
theorem Gen.react_starts {g : Gen} {c : NodeCfg} {cls : TripClass} (hc : cls = .b ∨ cls = .c) (hv : 0 < g.speed)
    (h : g.state = .ramping ∨ g.state = .running ∨ g.state = .held) : g.react c cls = g.startStop c cls := by
  have hstop : ∀ x : TripClass, g.reactStop c x = g.startStop c x := by
    intro x
    unfold Gen.reactStop
    rcases h with h | h | h <;> (rw [h]; exact if_neg (by omega))
  rcases hc with rfl | rfl
  · exact hstop .b
  · exact hstop .c

/-- A stop ramp in progress: class B starts anew over one of class C, and nothing else changes it. -/
theorem Gen.reactStop_stopping {g : Gen} {c : NodeCfg} {cls : TripClass} {r : Ramp} (h : g.state = .stopping)
    (hr : g.ramp = some r) : g.reactStop c cls = if r.cls = .c ∧ cls = .b then g.startStop c .b else g := by
  unfold Gen.reactStop
  rw [h, hr]

/-- Settles O12: n_stop by `stopLength_le_iff`, its start and the escalation by the state of the generator. -/
theorem stopLengthFollowsTheReferenceStop : Obligations.StopLengthFollowsTheReferenceStop := by
  intro c v cls hv hcls T
  refine ⟨?_, ?_, fun n hn h1 _ => (stopLength_le_iff hv h1).2 (.inr hn), fun hlt => ?_, stopLength_pos, stopLength_le, ?_, ?_⟩
  · rintro g rfl hpos hs
    exact Gen.react_starts hcls hpos hs
  · rintro g r rfl hs hr hc rfl
    exact (Gen.reactStop_stopping hs hr).trans (if_pos ⟨hc, rfl⟩)
  · exact ((stopLength_le_iff hv stopLength_pos).1 (Nat.le_refl (stopLength c v cls))).resolve_left (Nat.not_le.2 hlt)
  · intro h1 h2
    refine stopLength_eq_of hv h1 h2 fun n => ?_
    rw [Nat.mul_comm n]
    exact Nat.mul_le_mul_left_iff hv
  · rintro h1 h2 ⟨m, hm⟩
    have hpos : 0 < m := by omega
    refine stopLength_eq_of hv (by omega) (by omega) fun n => ?_
    rw [hm, Nat.mul_div_cancel_left m (by decide), show n * (2 * m) = m * (2 * n) by ring, Nat.mul_le_mul_left_iff hpos]
    show T ≤ 2 * n ↔ (T + 1) / 2 ≤ n
    omega

/-! ### The integration (R48, R55) -/

/-- The angle wraps at 2^32, and the revolution count counts the wrap (R55). -/
theorem advance_wraps (a : Word) (rev : BitVec 16) {v : Nat} (hv : v < 2 ^ 32) :
    (advanceAngle a v).toNat = (a.toNat + v) % 2 ^ 32 ∧
      advanceRev a rev v = if 2 ^ 32 ≤ a.toNat + v then rev + 1 else rev := by
  have ha : a.toNat < 2 ^ 32 := a.isLt
  unfold advanceAngle advanceRev
  refine ⟨by simp, ?_⟩
  by_cases h : 2 ^ 32 ≤ a.toNat + v
  · rw [if_pos h, show (a.toNat + v) / 2 ^ 32 = 1 by omega]
    rfl
  · rw [if_neg h, show (a.toNat + v) / 2 ^ 32 = 0 by omega]
    exact BitVec.add_zero rev

/-- The generator after the trip reaction and the command that is pending, if any (R48). -/
def State.commandedGen (s : State) : Gen :=
  let g := if s.isMaster then s.lsu.gen.react s.cfg s.tru.acting else s.lsu.gen
  match s.shaftCommand with
  | some c => (s.judgeShaft g c.2.1 c.2.2.1 c.2.2.2).2
  | none => g

/-- The generator's epoch: reaction and command, then at the master the speed step and the integration (R48). -/
theorem State.generatorEpoch_gen (s : State) : s.generatorEpoch.1.lsu.gen =
    if s.isMaster then s.commandedGen.stepSpeed.integrate else s.commandedGen := by
  unfold State.generatorEpoch State.commandedGen
  cases s.shaftCommand <;> rfl

theorem State.commandedGen_idle {s : State} (hm : s.isMaster = true) (h : s.ptu.shaftPending = false) :
    s.commandedGen = s.lsu.gen.react s.cfg s.tru.acting := by
  have hc : s.shaftCommand = none := by
    unfold State.shaftCommand
    rw [h, if_neg (by decide)]
  unfold State.commandedGen
  rw [hc, if_pos hm]

/-- Settles O14: `advance_wraps`, and the order of `State.generatorEpoch_gen`. -/
theorem integrationAdvancesTheAngle : Obligations.IntegrationAdvancesTheAngle := by
  refine ⟨fun g hv => ?_, fun s hm => ⟨s.commandedGen, ?_, State.commandedGen_idle hm⟩⟩
  · obtain ⟨hangle, hrev⟩ := advance_wraps g.angle g.rev hv
    exact ⟨hangle, hrev, rfl, rfl, rfl⟩
  · rw [State.generatorEpoch_gen, if_pos hm]

end Sys2Proof.Machine

/-! Proofs, section 42. What moves shaft and axes: the work of an epoch, and the start of a load; every other command leaves
configuration, line shaft and axes as they are (R48, R58, R68, R190). -/

namespace Sys2Proof.Machine

set_option Elab.async false

/-! ### Operations that move nothing -/

/-- From `s` to `t` the configuration, the line shaft and the axes stay; a fresh value of a slot may have come (R70). -/
structure MotionStays (s t : State) : Prop where
  cfg : t.cfg = s.cfg
  lsu : t.lsu = s.lsu
  axes : t.axu.axes = s.axu.axes

section
variable {s t u : State}

theorem MotionStays.refl (s : State) : MotionStays s s := ⟨rfl, rfl, rfl⟩

theorem MotionStays.trans (h : MotionStays s t) (k : MotionStays t u) : MotionStays s u :=
  ⟨k.cfg.trans h.cfg, k.lsu.trans h.lsu, k.axes.trans h.axes⟩

theorem MotionStays.ite {c : Prop} [Decidable c] (h : MotionStays s t) (k : MotionStays s u) :
    MotionStays s (if c then t else u) := by
  split
  · exact h
  · exact k

theorem MotionStays.foldl {α : Type} (f : State → α → State) (hf : ∀ u x, MotionStays u (f u x)) (l : List α) (s : State) :
    MotionStays s (l.foldl f s) := by
  induction l generalizing s with
  | nil => exact .refl s
  | cons x l ih => exact (hf s x).trans (ih _)

/-- An operation that has no part in configuration, line shaft and axes. -/
theorem MotionStays.frame {ps : List Part} (f : Frame ps s t) (m : Part.cfg ∉ ps := by decide)
    (m1 : Part.lsu ∉ ps := by decide) (m2 : Part.axu ∉ ps := by decide) : MotionStays s t :=
  ⟨f.keeps_cfg m, f.keeps_lsu m1, congrArg Axu.axes (f.keeps_axu m2)⟩

theorem MotionStays.event {dt : Nat} {f : State → State} (h : s.event dt f = .next t) (hf : ∀ u, MotionStays u (f u)) :
    MotionStays s t := by
  cases h
  exact ((MotionStays.frame (s.elapse_fr dt)).trans (hf _)).trans (.frame (State.settle_fr _ _))

theorem MotionStays.checked {ok : Bool} {dt : Nat} {f : State → State} (h : s.checked ok dt f = .next t)
    (hf : ∀ u, MotionStays u (f u)) : MotionStays s t := by
  unfold State.checked at h
  split at h
  · exact .event h hf
  · cases h

/-! ### Slots received (R70, R120) -/

/-- A valid reception brings a fresh value, and moves no axis. -/
theorem MotionStays.receiveSlot (s : State) (n : Fin 128) (p : Fin 32) (data : List Byte) :
    MotionStays s (s.receiveSlot n p data) := by
  unfold State.receiveSlot
  refine .ite (.trans ?_ (.frame (State.handStale_fr _ _))) (.refl s)
  exact ⟨rfl, rfl, rfl⟩

theorem MotionStays.slotArrives (s : State) (p : Passage) (n : Fin 128) (tags slot : Block) :
    MotionStays s (s.slotArrives p n tags slot) := by
  unfold State.slotArrives
  refine .ite ?_ (.refl s)
  split
  · exact .ite (.receiveSlot s _ _ _) (.refl s)
  · exact .refl s

theorem MotionStays.retSlot (s : State) (n : Fin 128) (src : SlotSource) : MotionStays s (s.retSlot n src) := by
  have hpass : ∀ p tags b copy (f : Passage → Passage), MotionStays s ((s.slotArrives p n tags b).onReturn copy f) :=
    fun p tags b copy f => (MotionStays.slotArrives s p n tags b).trans (.frame (State.onReturn_fr _ _ _))
  unfold State.retSlot
  split
  · refine .ite ?_ (.refl s)
    split
    · exact hpass ..
    · exact .refl s
  · exact .ite (hpass ..) (.refl s)

/-! ### The start of a frame (R1, R3, R13) -/

theorem MotionStays.drainCopy (s : State) : MotionStays s s.drainCopy := by
  have hhead : MotionStays s ((s.retHeader .copy).retTrip .copy) :=
    (MotionStays.frame (s.retHeader_fr _)).trans (.frame (State.retTrip_fr _ _))
  have hslots := hhead.trans (MotionStays.foldl (fun s n => s.retSlot n .copy) (fun u n => .retSlot u n .copy) (List.finRange 128) _)
  have harea := hslots.trans (.frame (State.retSlotsEnd_fr _ .copy))
  have hcells := harea.trans (MotionStays.foldl (fun s _ => s.retCell .copy) (fun u _ => .frame (u.retCell_fr .copy)) (List.range 96) _)
  exact hcells.trans (.frame (State.endCopy_fr _))

theorem MotionStays.startFrame (s : State) (p : Port) : MotionStays s (s.startFrame p) := by
  unfold State.startFrame
  refine .ite ?_ (.refl s)
  cases p with
  | downstream => exact .frame s.startRet_fr
  | upstream =>
    have hdrain : MotionStays s s.endOut.drainCopy := (MotionStays.frame s.endOut_fr).trans (.drainCopy _)
    exact .ite (.refl s) ((MotionStays.ite (hdrain.trans (.frame (State.disregardRet_fr _))) hdrain).trans
      (.frame (State.onFlu_fr _ _)))

/-! ### Every command that makes no epoch and no load -/

/-- A command moves nothing, or it makes an epoch, or it begins or completes a load. -/
theorem exec_moves (c : Instr) (h : exec c s = .next t) :
    MotionStays s t ∨ makesEpoch c = true ∨ (∃ dt, c = .pinReset dt) ∨ ∃ dt bs, c = .flashBodyRead dt bs := by
  cases c with
  | pinReset dt => exact .inr (.inr (.inl ⟨dt, rfl⟩))
  | flashBodyRead dt bs => exact .inr (.inr (.inr ⟨dt, bs, rfl⟩))
  | outRunHeader | entryIntoJoined | origination | masterRingLoss | applyInstant | localCycleTimerExpiry | ringLoss
  | endNodeCondition | rampEnd | stopRampEnd | localStopEnd | sourceLost | stopTimeout | streamTimeout | sweep | slotStale
  | setTarget | hold | engage | disengage | setGear | setOffset | setSource => exact .inr (.inl rfl)
  | undefinedCommandCode dt site =>
    cases site with
    | shaft | axis => exact .inr (.inl rfl)
    | trip w b => exact .inl (.event (f := fun u => u.writeFixed .trip w.val (fun c => !definedCode c) b) h
        fun u => .frame (u.writeFixed_fr ..))
    | refresh b => exact .inl (.event (f := fun u => u.writeFixed .node 4 (fun c => !definedCode c) b) h
        fun u => .frame (u.writeFixed_fr ..))
  | slotReception dt n src => exact .inl (.checked h fun u => .retSlot u n src)
  | startSymbol dt p => exact .inl (.event (f := fun u => u.startFrame p) h fun u => .startFrame u p)
  | flashHeaderRead dt bytes => exact .inl (.frame (execFlashHeaderRead_fr dt bytes s h))
  | lightDetected dt p => exact .inl (.frame (execLightDetected_fr dt p s h))
  | lockIntervalExpiry dt p => exact .inl (.frame (execLockIntervalExpiry_fr dt p s h))
  | clockOutOfBand dt p => exact .inl (.frame (execClockOutOfBand_fr dt p s h))
  | lightLost dt p => exact .inl (.frame (execLightLost_fr dt p s h))
  | outRunTripBlock dt b => exact .inl (.frame (execOutRunTripBlock_fr dt b s h))
  | insertionDecision dt tags slots => exact .inl (.frame (execInsertionDecision_fr dt tags slots s h))
  | cellDecision dt b => exact .inl (.frame (execCellDecision_fr dt b s h))
  | claimPassageEnd dt => exact .inl (.frame (execClaimPassageEnd_fr dt s h))
  | returnHeader dt src => exact .inl (.frame (execReturnHeader_fr dt src s h))
  | returnTripBlock dt src => exact .inl (.frame (execReturnTripBlock_fr dt src s h))
  | passageToRun dt b => exact .inl (.frame (execPassageToRun_fr dt b s h))
  | slotAreaEnd dt src => exact .inl (.frame (execSlotAreaEnd_fr dt src s h))
  | cellDelivery dt src => exact .inl (.frame (execCellDelivery_fr dt src s h))
  | nodeMissing dt b => exact .inl (.frame (execNodeMissing_fr dt b s h))
  | starvation dt => exact .inl (.frame (execStarvation_fr dt s h))
  | tripInputActive dt n level => exact .inl (.frame (execTripInputActive_fr dt n level s h))
  | filterExpiry dt n => exact .inl (.frame (execFilterExpiry_fr dt n s h))
  | tripInputInactive dt n level => exact .inl (.frame (execTripInputInactive_fr dt n level s h))
  | exposureEdge dt n level => exact .inl (.frame (execExposureEdge_fr dt n level s h))
  | firing dt n => exact .inl (.frame (execFiring_fr dt n s h))
  | pulseTimerExpiry dt n => exact .inl (.frame (execPulseTimerExpiry_fr dt n s h))
  | keyRowReading dt cols => exact .inl (.frame (execKeyRowReading_fr dt cols s h))
  | pPortCycle dt write addr beats => exact .inl (.frame (execPPortCycle_fr dt write addr beats s h))
  | mPortBurstCompletion dt => exact .inl (.frame (execMPortBurstCompletion_fr dt s h))
  | tripRequest dt b => exact .inl (.frame (execTripRequest_fr dt b s h))
  | resetRequest dt b => exact .inl (.frame (execResetRequest_fr dt b s h))
  | enableRequest dt b => exact .inl (.frame (execEnableRequest_fr dt b s h))
  | noticeMask dt b => exact .inl (.frame (execNoticeMask_fr dt b s h))
  | noticeClear dt b => exact .inl (.frame (execNoticeClear_fr dt b s h))
  | screenRefreshCommand dt b => exact .inl (.frame (execScreenRefreshCommand_fr dt b s h))
  | commit dt addr b => exact .inl (.frame (execCommit_fr dt addr b s h))
  | withdraw dt addr b => exact .inl (.frame (execWithdraw_fr dt addr b s h))
  | release dt addr b => exact .inl (.frame (execRelease_fr dt addr b s h))
  | camOutBeat dt addr b => exact .inl (.frame (execCamOutBeat_fr dt addr b s h))
  | screenOutBeat dt addr b => exact .inl (.frame (execScreenOutBeat_fr dt addr b s h))
  | blockedWrite dt addr b => exact .inl (.frame (execBlockedWrite_fr dt addr b s h))
  | registerWrite dt addr b => exact .inl (.frame (execRegisterWrite_fr dt addr b s h))

end

/-! ### What every epoch keeps -/

/-- A property of configuration, line shaft and axes that the work of the line shaft and of the axes at an epoch keeps. -/
structure EpochInvariant (P : State → Prop) : Prop where
  stays : ∀ {s t : State}, MotionStays s t → P s → P t
  lsuEpoch : ∀ (s : State) hdr mark, P s → P (s.lsuEpoch hdr mark)
  axuEpoch : ∀ (s : State) synthesized mark, P s → P (s.axuEpoch synthesized mark)

namespace EpochInvariant

variable {P : State → Prop} {s t : State}

theorem ite {c : Prop} [Decidable c] (h : P s) (k : P t) : P (if c then s else t) := by
  split
  · exact h
  · exact k

/-- The blocks' work at an epoch (R10, R48, R68). -/
theorem epochWork (hP : EpochInvariant P) (h : P s) (hdr : Option HeaderShaft) (mark loss : Bool) :
    P (s.epochWork hdr mark loss) := by
  unfold State.epochWork
  rw [State.epochIn_eq]
  refine hP.stays (.frame (State.epochBack_fr ..)) (hP.axuEpoch _ _ _ (hP.stays (.frame (State.truEpoch_fr _)) (hP.lsuEpoch _ _ _ ?_)))
  exact hP.stays ((MotionStays.frame (s.draw_fr _)).trans (.frame (State.epochFront_fr ..))) h

theorem synthesize (hP : EpochInvariant P) (h : P s) : P s.synthesize :=
  hP.epochWork (hP.stays (.frame s.silentWatched_fr) h) _ _ _

theorem takeEntry (hP : EpochInvariant P) (h : P s) (e : PendingEntry) : P (s.takeEntry e) := by
  by_cases hc : e.cycle = s.flu.cycle
  · unfold State.takeEntry
    rw [if_pos hc]
    exact hP.stays (.frame (s.onFlu_fr _)) h
  · rw [State.takeEntry_works hc]
    exact hP.epochWork (hP.stays (.frame (s.headerWatched_fr e)) h) _ _ _

theorem takeOldest (hP : EpochInvariant P) (h : P s) : P s.takeOldest := by
  unfold State.takeOldest
  split
  · exact h
  · exact hP.takeEntry (hP.stays (.frame (s.onFlu_fr _)) h) _

theorem takeDue (hP : EpochInvariant P) (h : P s) (n : Nat) : P (s.takeDue n) := by
  induction n generalizing s with
  | zero => exact h
  | succ n ih =>
    unfold State.takeDue
    exact ite (ih (hP.takeOldest h)) h

theorem placeEntry (hP : EpochInvariant P) (h : P s) (e : Bool → PendingEntry) : P (s.placeEntry e) := by
  unfold State.placeEntry
  exact hP.stays (.frame (State.onFlu_fr _ _)) (ite (hP.takeDue (hP.takeOldest h) 2) h)

theorem takeTimer (hP : EpochInvariant P) (h : P s) : P s.takeTimer :=
  ite (hP.stays (.frame (s.onFlu_fr _)) h) (hP.synthesize h)

theorem dueEpoch (hP : EpochInvariant P) (h : P s) : P s.dueEpoch :=
  ite (hP.takeDue h 3) (ite (hP.takeTimer h) h)

theorem outHeader (hP : EpochInvariant P) (h : P s) (b : Block) : P (s.outHeader b) := by
  have hsend : ∀ b1, P (s.sendHeader b1) := fun b1 => hP.stays (.frame (s.sendHeader_fr b1)) h
  unfold State.outHeader
  refine ite h ?_
  split
  · refine ite ?_ (hP.stays (.frame (State.onFlu_fr _ _)) (hsend b))
    dsimp only
    rw [State.goodHeader_eq]
    exact hP.placeEntry (hP.stays (.frame (State.headed_fr _ _)) (hsend _)) _
  · exact hP.stays (.frame (State.onFlu_fr _ _)) (hsend b)

theorem takeOrigin (hP : EpochInvariant P) (h : P s) : P s.takeOrigin := by
  have hslots : MotionStays s s.begun.formTrip.1.formSlots.1.openClaims :=
    (((MotionStays.frame s.begun_fr).trans (.frame (State.formTrip_fr _))).trans (.frame (State.formSlots_fr _))).trans
      (.frame (State.openClaims_fr _))
  unfold State.takeOrigin State.originate
  exact ite (hP.placeEntry (hP.stays (hslots.trans (.frame (State.onFlu_fr _ _))) h) _) h

theorem event {dt : Nat} {f : State → State} (hP : EpochInvariant P) (e : s.event dt f = .next t) (h : P s)
    (hf : ∀ u, P u → P (f u)) : P t := by
  cases e
  exact hP.stays (.frame (State.settle_fr _ _)) (hf _ (hP.stays (.frame (s.elapse_fr dt)) h))

theorem checked {ok : Bool} {dt : Nat} {f : State → State} (hP : EpochInvariant P) (e : s.checked ok dt f = .next t) (h : P s)
    (hf : ∀ u, P u → P (f u)) : P t := by
  unfold State.checked at e
  split at e
  · exact hP.event e h hf
  · cases e

theorem epochWith {dt : Nat} {p : State → State → Bool} (hP : EpochInvariant P) (e : s.epochWith dt p = .next t) (h : P s) :
    P t := hP.event e h fun _ k => ite (hP.dueEpoch k) k

/-- Every command that makes an epoch keeps it. -/
theorem exec (hP : EpochInvariant P) (c : Instr) (hc : makesEpoch c = true) (h : P s) (e : exec c s = .next t) : P t := by
  cases c with
  | outRunHeader dt b => exact hP.checked e h fun _ k => hP.outHeader k b
  | entryIntoJoined dt b => exact hP.checked e h fun _ k => ite (hP.outHeader k b) k
  | origination dt => exact hP.event (f := State.takeOrigin) e h fun _ k => hP.takeOrigin k
  | masterRingLoss dt => exact hP.event (f := fun u => u.whenOutcome State.takeOrigin losesReturn) e h fun _ k => ite (hP.takeOrigin k) k
  | applyInstant dt => exact hP.event (f := fun u => if u.configured then u.takeDue 3 else u) e h fun _ k => ite (hP.takeDue k 3) k
  | localCycleTimerExpiry dt => exact hP.event (f := fun u => if u.timerDue then u.takeTimer else u) e h fun _ k => ite (hP.takeTimer k) k
  | ringLoss | endNodeCondition | rampEnd | stopRampEnd | localStopEnd | sourceLost | stopTimeout | streamTimeout | sweep
  | slotStale | setTarget | hold | engage | disengage | setGear | setOffset | setSource => exact hP.epochWith e h
  | undefinedCommandCode dt site =>
    cases site with
    | shaft | axis => exact hP.epochWith e h
    | trip | refresh => cases hc
  | _ => cases hc

/-- No epoch changes the configuration. -/
theorem configuration (c : NodeCfg) : EpochInvariant fun s => s.cfg = c where
  stays h k := h.cfg.trans k
  lsuEpoch _ _ _ k := (State.lsuEpoch_fr _ _ _).keeps_cfg.trans k
  axuEpoch _ _ _ k := (State.axuEpoch_fr _ _ _).keeps_cfg.trans k

end EpochInvariant

/-- Settles O40: `exec_moves`, and the configuration through an epoch. -/
theorem motionAndConfigurationChangeOnlyThere : Obligations.MotionAndConfigurationChangeOnlyThere := by
  intro c s t h
  obtain ⟨hcfg, hlsu, haxes⟩ | hepoch | hload := exec_moves c h
  · exact .inl ⟨hcfg, fun _ => ⟨hlsu, haxes⟩⟩
  · exact .inl ⟨(EpochInvariant.configuration s.cfg).exec c hepoch rfl h, fun hn => absurd hepoch (by rw [hn]; decide)⟩
  · exact .inr hload

end Sys2Proof.Machine

/-! Proofs, section 43. Speeds and ramps stay within 0 to V_max, remainders below their denominators, at every step (R49 to R53,
R58 to R60, R73). -/

namespace Sys2Proof.Machine

set_option Elab.async false

/-! ### Ramps within V_max -/

theorem Ramp.Within.speed_le {r : Ramp} {vmax : Nat} (h : r.Within vmax) : r.speed ≤ vmax := by
  obtain ⟨hv0, hvt, -, hk⟩ := h
  exact (Ramp.speed_between hk).2.trans (max_le hv0 hvt)

/-- A ramp short of its last step has room for one more. -/
theorem Ramp.Within.next {r : Ramp} {vmax : Nat} (h : r.Within vmax) (hk : r.k < r.n) : r.next.Within vmax := by
  obtain ⟨hv0, hvt, hn, -⟩ := h
  exact ⟨hv0, hvt, hn, hk⟩

theorem stopRamp_within (c : NodeCfg) {v vmax : Nat} (cls : TripClass) (h : v ≤ vmax) : (stopRamp c v cls).Within vmax :=
  ⟨h, Nat.zero_le _, stopLength_pos, Nat.zero_le _⟩

/-! ### The generator (R48 to R53) -/

/-- The generator's part of `State.SpeedsBounded`. -/
structure Gen.Within (g : Gen) (vmax : Nat) : Prop where
  speed : g.speed ≤ vmax
  ramp : ∀ r, g.ramp = some r → r.Within vmax
  stepping : g.state = .ramping ∨ g.state = .stopping → ∀ r, g.ramp = some r → r.k < r.n
  stop : g.state = .stopping → ∀ r, g.ramp = some r → r.vt = 0

section
variable {g : Gen} {c : NodeCfg} {vmax : Nat}

/-- A generator that comes to a state without ramp steps keeps its bounds, with its ramp record or without. -/
theorem Gen.Within.rest (h : g.Within vmax) {a : Gen} (hv : a.speed ≤ vmax) (hr : a.ramp = g.ramp ∨ a.ramp = none)
    (hs : a.state ≠ .ramping ∧ a.state ≠ .stopping) : a.Within vmax where
  speed := hv
  ramp r e := by
    rcases hr with k | k
    · exact h.ramp r (k ▸ e)
    · rw [k] at e
      cases e
  stepping k := absurd k (not_or.2 hs)
  stop k := absurd k hs.2

theorem Gen.Within.startStop (h : g.Within vmax) (c : NodeCfg) (cls : TripClass) : (g.startStop c cls).Within vmax where
  speed := h.speed
  ramp r e := by
    cases e
    exact stopRamp_within c cls h.speed
  stepping _ r e := by
    cases e
    exact stopLength_pos
  stop _ r e := by
    cases e
    rfl

theorem Gen.Within.reactStop (h : g.Within vmax) (c : NodeCfg) (cls : TripClass) : (g.reactStop c cls).Within vmax := by
  have stands : ({ g with state := .standstill, ramp := none } : Gen).Within vmax :=
    h.rest h.speed (.inr rfl) ⟨nofun, nofun⟩
  unfold Gen.reactStop
  split
  · exact h
  · split
    · split
      · exact h.startStop c .b
      · exact h
    · exact h
  · rename_i hs
    split
    · exact h.rest h.speed (.inr rfl) ⟨by rw [hs]; nofun, by rw [hs]; nofun⟩
    · exact h.startStop c cls
  all_goals
    split
    · exact stands
    · exact h.startStop c cls

theorem Gen.Within.react (h : g.Within vmax) (c : NodeCfg) (acting : TripClass) : (g.react c acting).Within vmax := by
  have freed : (if g.state = .coasted then { g with state := .standstill } else g : Gen).Within vmax := by
    split
    · exact h.rest h.speed (.inl rfl) ⟨nofun, nofun⟩
    · exact h
  cases acting with
  | a =>
    show (if g.state = .coasted then g else { g with state := .coasted, ramp := none } : Gen).Within vmax
    split
    · exact h
    · exact h.rest h.speed (.inr rfl) ⟨nofun, nofun⟩
  | b => exact h.reactStop c .b
  | c => exact h.reactStop c .c
  | d => exact freed
  | clear => exact freed

/-- SET-TARGET clamps its target to V_max and its length to 1 or more (R51). -/
theorem Gen.Within.setTarget (h : g.Within c.vmax) (acting : TripClass) (run : Bool) (vt n : Nat) :
    (g.setTarget c acting run vt n).2.Within c.vmax := by
  unfold Gen.setTarget
  split
  · exact h
  · split
    · exact h
    · exact {
        speed := h.speed
        ramp := fun r e => by
          cases e
          exact ⟨h.speed, min_le_right _ _, le_max_left _ _, Nat.zero_le _⟩
        stepping := fun _ r e => by
          cases e
          exact le_max_left 1 n
        stop := nofun }

theorem Gen.Within.holdRamp (h : g.Within vmax) : g.holdRamp.2.Within vmax := by
  unfold Gen.holdRamp
  split
  · exact h.rest h.speed (.inl rfl) ⟨nofun, nofun⟩
  · exact h

/-- A commanded ramp leaves RAMPING with its last step (R53). -/
theorem Gen.Within.stepRamping {r : Ramp} (h : g.Within vmax) (hs : g.state = .ramping) (hr : g.ramp = some r) :
    g.stepSpeed.Within vmax := by
  have hn := (h.ramp r hr).next (h.stepping (.inl hs) r hr)
  rw [Gen.stepSpeed_ramping hs hr]
  by_cases hlast : r.n ≤ r.k + 1
  · rw [if_pos hlast]
    refine ⟨hn.speed_le, fun x e => ?_, fun k => ?_, fun k => ?_⟩
    · cases e
      exact hn
    all_goals
      revert k
      dsimp only
      split <;> nofun
  · rw [if_neg hlast]
    refine ⟨hn.speed_le, fun x e => ?_, fun _ x e => ?_, nofun⟩
    · cases e
      exact hn
    · cases e
      exact Nat.lt_of_not_le hlast

/-- A stop ramp ends with its record at speed 0, at its last step or before (R50, R53). -/
theorem Gen.Within.stepStopping {r : Ramp} (h : g.Within vmax) (hs : g.state = .stopping) (hr : g.ramp = some r) :
    g.stepSpeed.Within vmax := by
  have hk := h.stepping (.inr hs) r hr
  have hn := (h.ramp r hr).next hk
  have ht := h.stop hs r hr
  rw [Gen.stepSpeed_stopping hs hr]
  split
  · exact h.rest (Nat.zero_le _) (.inr rfl) ⟨nofun, nofun⟩
  · rename_i hmoves
    have hnext : r.next.k < r.next.n := Nat.lt_of_le_of_ne hk fun hlast =>
      hmoves ((Ramp.speed_last (r := r.next) hlast (Nat.zero_lt_of_lt hk)).trans ht)
    refine ⟨hn.speed_le, fun x e => ?_, fun _ x e => ?_, fun _ x e => ?_⟩ <;> cases e
    · exact hn
    · exact hnext
    · exact ht

theorem Gen.Within.stepSpeed (h : g.Within vmax) : g.stepSpeed.Within vmax := by
  cases hs : g.state with
  | ramping =>
    cases hr : g.ramp with
    | none => rwa [Gen.stepSpeed_rampless (.inl hs) hr]
    | some r => exact h.stepRamping hs hr
  | stopping =>
    cases hr : g.ramp with
    | none => rwa [Gen.stepSpeed_rampless (.inr hs) hr]
    | some r => exact h.stepStopping hs hr
  | running => rwa [Gen.stepSpeed_steady (.inl hs)]
  | held => rwa [Gen.stepSpeed_steady (.inr hs)]
  | standstill =>
    rw [Gen.stepSpeed_still (.inl hs)]
    exact h.rest (Nat.zero_le _) (.inl rfl) ⟨by rw [hs]; nofun, by rw [hs]; nofun⟩
  | coasted =>
    rw [Gen.stepSpeed_still (.inr hs)]
    exact h.rest (Nat.zero_le _) (.inl rfl) ⟨by rw [hs]; nofun, by rw [hs]; nofun⟩

/-- The integration moves the angle alone. -/
theorem Gen.Within.integrate (h : g.Within vmax) : g.integrate.Within vmax := ⟨h.speed, h.ramp, h.stepping, h.stop⟩

end

theorem State.judgeShaft_within {s : State} {g : Gen} (h : g.Within s.cfg.vmax) (w : Word) (vt n : Nat) :
    (s.judgeShaft g w vt n).2.Within s.cfg.vmax := by
  unfold State.judgeShaft
  split
  · split
    · exact h.setTarget _ _ _ _
    · exact h
  · split
    · split
      · exact h.holdRamp
      · exact h
    · exact h

/-- The generator's epoch (R48). -/
theorem State.generatorEpoch_within {s : State} (h : s.lsu.gen.Within s.cfg.vmax) :
    s.generatorEpoch.1.lsu.gen.Within s.cfg.vmax := by
  have hreact : (if s.isMaster then s.lsu.gen.react s.cfg s.tru.acting else s.lsu.gen).Within s.cfg.vmax := by
    split
    · exact h.react _ _
    · exact h
  have hcommanded : s.commandedGen.Within s.cfg.vmax := by
    unfold State.commandedGen
    dsimp only
    split
    · exact State.judgeShaft_within hreact _ _ _
    · exact hreact
  rw [State.generatorEpoch_gen]
  split
  · exact hcommanded.stepSpeed.integrate
  · exact hcommanded

/-! ### The shadow shaft (R58 to R61) -/

/-- The shadow's part of `State.SpeedsBounded`: its speed, and a ramp to 0. -/
structure Shadow.Within (x : Shadow) (vmax : Nat) : Prop where
  speed : x.speed ≤ vmax
  ramp : ∀ r, x.ramp = some r → r.vt = 0 ∧ r.v0 ≤ vmax

section
variable {x : Shadow} {c : NodeCfg} {vmax : Nat}

/-- A header's speed is clamped to V_max (R58). -/
theorem Shadow.header_within (c : NodeCfg) (h : HeaderShaft) (mark : Bool) : (Shadow.header c h mark).Within c.vmax :=
  ⟨min_le_right _ _, nofun⟩

theorem Shadow.Within.startStop (h : x.Within vmax) (c : NodeCfg) (cls : TripClass) : (x.startStop c cls).Within vmax :=
  ⟨h.speed, fun r e => by cases e; exact ⟨rfl, h.speed⟩⟩

theorem Shadow.Within.reactStop (h : x.Within vmax) (c : NodeCfg) (cls : TripClass) : (x.reactStop c cls).Within vmax := by
  unfold Shadow.reactStop
  split
  · split
    · exact h.startStop c .b
    · exact h
  · split
    · exact ⟨h.speed, h.ramp⟩
    · exact h.startStop c cls

theorem Shadow.Within.stepRamp (h : x.Within vmax) : x.stepRamp.Within vmax := by
  cases hr : x.ramp with
  | none => rwa [Shadow.stepRamp_none hr]
  | some r =>
    obtain ⟨ht, hv⟩ := h.ramp r hr
    rw [Shadow.stepRamp_some hr]
    split
    · exact ⟨Nat.zero_le _, nofun⟩
    · exact ⟨(Ramp.speed_stop_le (r := r.next) ht).trans hv, fun q e => by cases e; exact ⟨ht, hv⟩⟩

theorem Shadow.Within.integrate (h : x.Within vmax) : x.integrate.Within vmax := ⟨h.speed, h.ramp⟩

theorem Shadow.Within.freed (h : x.Within vmax) : x.freed.Within vmax := by
  rw [Shadow.freed_keeps]
  exact ⟨h.speed, h.ramp⟩

theorem Shadow.Within.synthesize (h : x.Within vmax) (c : NodeCfg) (acting : TripClass) :
    (x.synthesize c acting).Within vmax := by
  cases acting with
  | a =>
    rw [Shadow.synthesize_a]
    exact ⟨Nat.zero_le _, nofun⟩
  | b =>
    rw [Shadow.synthesize_stops (.inl rfl)]
    exact (h.freed.reactStop c .b).stepRamp.integrate
  | c =>
    rw [Shadow.synthesize_stops (.inr rfl)]
    exact (h.freed.reactStop c .c).stepRamp.integrate
  | d =>
    rw [Shadow.synthesize_runs (.inr rfl)]
    exact h.freed.stepRamp.integrate
  | clear =>
    rw [Shadow.synthesize_runs (.inl rfl)]
    exact h.freed.stepRamp.integrate

end

/-! ### Speeds at an epoch -/

theorem State.speedsBounded_iff {s : State} :
    s.SpeedsBounded ↔ s.lsu.gen.Within s.cfg.vmax ∧ s.lsu.shadow.Within s.cfg.vmax :=
  ⟨fun h => ⟨⟨h.gen, h.genRamp, h.stepping, h.stop⟩, ⟨h.shadow, h.shadowRamp⟩⟩,
    fun ⟨g, x⟩ => ⟨g.speed, g.ramp, g.stepping, g.stop, x.speed, x.ramp⟩⟩

/-- The bounds speak of configuration and line shaft alone. -/
theorem State.SpeedsBounded.of_same {s t : State} (h : s.SpeedsBounded) (hc : t.cfg = s.cfg) (hl : t.lsu = s.lsu) :
    t.SpeedsBounded := by
  rw [State.speedsBounded_iff] at h ⊢
  rwa [hc, hl]

theorem State.SpeedsBounded.lsuEpoch {s : State} (h : s.SpeedsBounded) (hdr : Option HeaderShaft) (mark : Bool) :
    (s.lsuEpoch hdr mark).SpeedsBounded := by
  rw [State.speedsBounded_iff] at h ⊢
  obtain ⟨hgen, hshadow⟩ := h
  rw [(State.lsuEpoch_fr s hdr mark).keeps_cfg, (s.lsuEpoch_works hdr mark).1, State.lsuEpoch_shadow]
  refine ⟨State.generatorEpoch_within hgen, ?_⟩
  cases hdr with
  | some h => exact Shadow.header_within _ _ _
  | none => exact hshadow.synthesize _ _

theorem EpochInvariant.speeds : EpochInvariant State.SpeedsBounded where
  stays h k := k.of_same h.cfg h.lsu
  lsuEpoch _ hdr mark k := k.lsuEpoch hdr mark
  axuEpoch _ _ _ k := k.of_same (State.axuEpoch_fr _ _ _).keeps_cfg (State.axuEpoch_fr _ _ _).keeps_lsu

/-! ### Remainders (R73) -/

/-- The axis' part of `State.ResiduesBounded`. -/
def Axis.ResidueBounded (a : Axis) : Prop := a.d = 0 ∨ a.r < a.d

section
variable {a b : Axis} {v : AxisView}

theorem Axis.ResidueBounded.of_motion (h : a.ResidueBounded) (k : a.SameMotion b) : b.ResidueBounded := by
  unfold Axis.ResidueBounded
  rw [k.d, k.r]
  exact h

/-- A remainder of 0 is below every denominator. -/
theorem Axis.residueBounded_zero (h : a.r = 0) : a.ResidueBounded := by
  unfold Axis.ResidueBounded
  omega

theorem Axis.phased_residue (a : Axis) : a.phased.ResidueBounded :=
  (Nat.eq_zero_or_pos a.d).imp id fun hd => Nat.mod_lt _ hd

theorem Axis.ResidueBounded.engage (h : a.ResidueBounded) (v : AxisView) (mode : Nat) :
    (a.engage v mode).2.ResidueBounded := by
  unfold Axis.engage
  split
  · exact h
  · split
    · exact h
    · split
      · exact h
      · split
        · exact h
        · show Axis.ResidueBounded (if mode = 0 then { a with r := 0 } else a.phased)
          split
          · exact Axis.residueBounded_zero rfl
          · exact a.phased_residue

/-- A new gear starts with remainder 0 (R82). -/
theorem Axis.ResidueBounded.setGear (h : a.ResidueBounded) (n d : Nat) : (a.setGear n d).2.ResidueBounded := by
  unfold Axis.setGear
  split
  · exact h
  · exact Axis.residueBounded_zero rfl

theorem Axis.ResidueBounded.setSource (h : a.ResidueBounded) (v : AxisView) (operand : Nat) :
    (a.setSource v operand).2.ResidueBounded := by
  unfold Axis.setSource
  split
  · exact h
  · split
    · exact h
    · exact h
    · split
      · exact h
      · exact h

theorem Axis.ResidueBounded.command (h : a.ResidueBounded) (v : AxisView) (c : AxisCommand) :
    (a.command v c).2.ResidueBounded := by
  unfold Axis.command
  split
  · exact h
  · split
    · exact h.engage v _
    · split
      · exact h
      · split
        · exact h.setGear _ _
        · split
          · exact h
          · split
            · exact h.setSource v _
            · exact h

theorem Axis.ResidueBounded.move (h : a.ResidueBounded) (v : AxisView) : (a.move v).ResidueBounded := by
  obtain ⟨-, -, hd, -⟩ := a.move_settings v
  unfold Axis.ResidueBounded
  rw [hd]
  rcases h with h0 | hlt
  · exact .inl h0
  · exact .inr (Axis.move_residue (Nat.zero_lt_of_lt hlt) hlt)

/-- Steps 1 to 6 of an axis, with a command or without (R68). -/
theorem Axis.ResidueBounded.epoch (h : a.ResidueBounded) (v : AxisView) (c : Option AxisCommand) :
    (a.epoch v c).2.ResidueBounded := by
  have hreacted := h.of_motion (a.reacted_keeps v).1
  by_cases ho : a.state = .off
  · unfold Axis.epoch
    rwa [if_pos ho]
  · cases c with
    | none =>
      rw [Axis.epoch_moves ho]
      exact hreacted.move v
    | some c =>
      rw [Axis.epoch_command ho]
      exact (hreacted.command v c).move v

/-- The remainder of an axis at configuration completion is 0, configured or not (R66). -/
theorem axisInitial_residue (a : AxisCfg) (present : Bool) : (axisInitial a present).ResidueBounded := by
  unfold axisInitial
  split <;> exact Axis.residueBounded_zero rfl

end

theorem State.ResiduesBounded.of_axes {s t : State} (h : s.ResiduesBounded) (ha : t.axu.axes = s.axu.axes) :
    t.ResiduesBounded := by
  unfold State.ResiduesBounded
  rw [ha]
  exact h

theorem EpochInvariant.residues : EpochInvariant State.ResiduesBounded where
  stays h k := k.of_axes h.axes
  lsuEpoch _ _ _ k := k.of_axes (congrArg Axu.axes (State.lsuEpoch_fr _ _ _).keeps_axu)
  axuEpoch s y mark k n := by
    rw [State.axuEpoch_axes]
    exact Axis.ResidueBounded.epoch (k n) _ _

/-! ### Loads, and every step -/

/-- A property of configuration, line shaft and axes that epochs keep, and that holds when a load begins and when it completes. -/
structure MotionInvariant (P : State → Prop) : Prop extends EpochInvariant P where
  pinReset : ∀ s : State, P s.pinReset
  takeConfig : ∀ (s : State) (c : NodeCfg), P (s.takeConfig c)

namespace MotionInvariant

variable {P : State → Prop} {s t : State}

/-- A load that completes takes the configuration, and moves nothing more (R190). -/
theorem completeConfig (hP : MotionInvariant P) (s : State) (c : NodeCfg) : P (s.completeConfig c) := by
  have hland : P (((s.takeConfig c).notify 14).initialLandings) :=
    hP.stays ((MotionStays.frame (State.notify_fr _ 14)).trans (.frame (State.initialLandings_fr _))) (hP.takeConfig s c)
  have hjoin := EpochInvariant.ite (P := P) (c := c.master = true) (hP.stays (.frame (State.screensJoin_fr _)) hland) hland
  exact hP.stays ((MotionStays.foldl State.startFilter (fun u n => .frame (u.startFilter_fr n)) (List.finRange 8) _).trans
    (.frame (State.reportTrip_fr _ _))) hjoin

theorem readBody (hP : MotionInvariant P) (h : P s) (bs : List Byte) : P (s.readBody bs) := by
  have hreject : ∀ reason, P (s.rejectConfig reason) := fun reason => hP.stays (.frame (s.rejectConfig_fr reason)) h
  unfold State.readBody
  split
  · refine EpochInvariant.ite (EpochInvariant.ite (hreject _) ?_) h
    split
    · exact hreject _
    · exact hP.completeConfig s _
  · exact h

theorem execFlashBodyRead {dt : Nat} {bs : List Byte} (hP : MotionInvariant P) (e : execFlashBodyRead dt bs s = .next t)
    (h : P s) : P t := by
  unfold Machine.execFlashBodyRead at e
  split at e
  · cases e
    exact hP.stays (.frame (State.arbitrate_fr _)) (hP.readBody (hP.stays (.frame (s.elapse_fr dt)) h) bs)
  · cases e

theorem exec (hP : MotionInvariant P) (c : Instr) (h : P s) (e : exec c s = .next t) : P t := by
  obtain hstays | hepoch | ⟨dt, rfl⟩ | ⟨dt, bs, rfl⟩ := exec_moves c e
  · exact hP.stays hstays h
  · exact hP.toEpochInvariant.exec c hepoch h e
  · cases e
    exact hP.pinReset _
  · exact hP.execFlashBodyRead e h

/-- A step is a command or one tick. -/
theorem step (hP : MotionInvariant P) (h : P s) (e : step s = .next t) : P t := by
  cases hp : s.pending with
  | nil =>
    rw [step_nil hp] at e
    cases e
    exact hP.stays (.frame (s.elapse_fr 1)) h
  | cons c rest =>
    rw [step_cons hp] at e
    exact hP.exec (s := { s with pending := rest }) c (hP.stays (s := s) ⟨rfl, rfl, rfl⟩ h) e

theorem speeds : MotionInvariant State.SpeedsBounded where
  toEpochInvariant := .speeds
  pinReset _ := State.reset_speeds.of_same rfl rfl
  takeConfig _ _ := State.speedsBounded_iff.2
    ⟨⟨Nat.zero_le _, nofun, fun _ => nofun, fun _ => nofun⟩, ⟨Nat.zero_le _, nofun⟩⟩

theorem residues : MotionInvariant State.ResiduesBounded where
  toEpochInvariant := .residues
  pinReset _ := State.reset_residues.of_axes rfl
  takeConfig s c n := by
    have h : (s.takeConfig c).axu.axes[n] = axisInitial c.axes[n] (c.only .axis).isSome := by simp [State.takeConfig]
    rw [h]
    exact axisInitial_residue _ _

end MotionInvariant

/-- Settles O8: both bounds are `MotionInvariant`s. -/
theorem everyStepKeepsSpeedsWithinVmax : Obligations.EveryStepKeepsSpeedsWithinVmax :=
  ⟨fun _ _ h e => MotionInvariant.speeds.step h e, fun _ _ h e => MotionInvariant.residues.step h e⟩

end Sys2Proof.Machine

/-! Proofs, section 44. The last steps of ramps (R50, R53, R55, R60). -/

namespace Sys2Proof.Machine

set_option Elab.async false

/-! ### The generator's last steps (R50, R53, R55) -/

section
variable {g : Gen} {r : Ramp} {c : NodeCfg} {act : TripClass}

theorem Gen.integrate_still (h : g.speed = 0) : g.integrate = g := by
  have ha : advanceAngle g.angle g.speed = g.angle := by rw [h, advanceAngle_zero]
  have hr : advanceRev g.angle g.rev g.speed = g.rev := by rw [h, advanceRev_zero]
  unfold Gen.integrate
  rw [ha, hr]

/-- The last step of a commanded ramp, and its integration. -/
theorem Gen.ramp_ends (hs : g.state = .ramping) (hr : g.ramp = some r) (hk : r.k + 1 = r.n) :
    g.stepSpeed.integrate = { angle := advanceAngle g.angle r.vt, rev := advanceRev g.angle g.rev r.vt, speed := r.vt,
                              state := if r.vt = 0 then .standstill else .running, ramp := some { r with k := r.n } } := by
  have hspeed : r.next.speed = r.vt := Ramp.speed_last (r := r.next) hk (hk ▸ Nat.succ_pos r.k)
  have hnext : r.next = { r with k := r.n } := congrArg (fun k => ({ r with k := k } : Ramp)) hk
  rw [Gen.stepSpeed_ramping hs hr, if_pos hk.ge, hspeed, hnext]
  rfl

/-- A stop ramp goes on under its own class (R49). -/
theorem Gen.react_stops (hc : r.cls = .b ∨ r.cls = .c) (hs : g.state = .stopping) (hr : g.ramp = some r) :
    g.react c r.cls = g := by
  have hgoes : g.reactStop c r.cls = g :=
    (Gen.reactStop_stopping hs hr).trans (if_neg fun k => nomatch k.1.symm.trans k.2)
  rcases hc with h | h <;> (rw [h] at hgoes ⊢; exact hgoes)

/-- The step of a stop ramp that brings the speed to 0, and its integration. -/
theorem Gen.stop_ends (hs : g.state = .stopping) (hr : g.ramp = some r) (h0 : r.next.speed = 0) :
    g.stepSpeed.integrate = { g with speed := 0, state := .standstill, ramp := none } := by
  rw [Gen.stepSpeed_stopping hs hr, if_pos h0]
  exact Gen.integrate_still rfl

end

/-! ### The shadow's last step (R60) -/

/-- A local stop ramp whose step brings the speed to 0 under its own class; a shadow still COASTED stands first (R60, R61). -/
theorem Shadow.synthesize_ends {x : Shadow} {c : NodeCfg} {r : Ramp} (hc : r.cls = .b ∨ r.cls = .c) (hr : x.ramp = some r)
    (h0 : r.next.speed = 0) :
    x.synthesize c r.cls = { x with speed := 0, state := .standstill, ramp := none, resync := false } := by
  have hgoes : ¬ (r.cls = .b ∧ r.cls = .c) := fun k => nomatch k.1.symm.trans k.2
  rw [Shadow.synthesize_stops hc, Shadow.freed_keeps, Shadow.reactStop_goes (by exact hr) hgoes,
    Shadow.stepIntegrate_some (by exact hr) rfl]
  exact if_pos h0

/-! ### The epochs -/

section
variable {s : State}

/-- At a due epoch from a header without a SHAFT command the master's generator reacts, steps and integrates (R48). -/
theorem State.dueEpoch_generator {dt : Nat} {e : PendingEntry} (h : s.HeaderEpochDue dt e) (hs : s.StaleTripsNothing)
    (hm : s.isMaster = true) (hp : s.ptu.shaftPending = false) :
    (s.elapse dt).dueEpoch.lsu.gen = (s.lsu.gen.react s.cfg s.tru.acting).stepSpeed.integrate := by
  obtain ⟨a, hfr, -⟩ := State.dueEpoch_course h
  have hf := s.dueFront_fr dt e
  have hfx : Frame [.now, .free, .flu, .tru, .slu, .cmu, .flags, .lde] s ((s.dueFront dt e).aged a) :=
    (hf.mono).comp ((s.dueFront dt e).aged_fr a)
  have hstale : (s.dueFront dt e).StaleTripsNothing := by
    unfold State.StaleTripsNothing
    rw [hf.keeps_cfg]
    exact hs
  have hact : ((s.dueFront dt e).aged a).tru.acting = s.tru.acting :=
    (State.aged_silent hstale a).1.trans (congrArg Tru.acting hf.keeps_tru)
  rw [hfr.keeps_lsu, ((s.dueFront dt e).axesDone_shaft a (some e.shaft) s.flu.resyncArmed).1,
    (State.lsuEpoch_works _ _ _).1, State.generatorEpoch_gen]
  have hm1 : ((s.dueFront dt e).aged a).isMaster = true := hfx.keeps_isMaster.trans hm
  rw [if_pos hm1, State.commandedGen_idle hm1 (by rw [hfx.keeps_ptu]; exact hp), hfx.keeps_lsu, hfx.keeps_cfg, hact]

/-- At a synthesized epoch without a ring loss the shadow makes its own (R59). -/
theorem State.dueEpoch_shadow {dt : Nat} (h : s.SynthesizedEpochDue dt) (hs : s.StaleTripsNothing)
    (hl : s.losesRing = false) :
    (s.elapse dt).dueEpoch.lsu.shadow = s.lsu.shadow.synthesize s.cfg s.tru.acting := by
  obtain ⟨-, -, hdue⟩ := State.dueEpoch_synthesizes h
  have hsyn : (s.elapse dt).synthesize = (s.elapse dt).silentWatched.epochWork none false false := by
    unfold State.synthesize
    rw [show (s.elapse dt).losesRing = false from hl]
    rfl
  have hf := ((s.elapse_fr dt).mono (qs := [.now, .flu, .flags])).comp (s.elapse dt).silentWatched_fr
  have hstale : (s.elapse dt).silentWatched.StaleTripsNothing := by
    unfold State.StaleTripsNothing
    rw [hf.keeps_cfg]
    exact hs
  rw [hdue, hsyn, (State.epochWork_works hstale none false).1]
  unfold State.epochShadow
  rw [hf.keeps_cfg, hf.keeps_lsu, hf.keeps_tru]

/-- A row that names an outcome of an epoch, where the epoch that is due has it (log 4). -/
theorem exec_epochOutcome {c : Instr} {dt : Nat} {p : State → State → Bool} (h : p (s.elapse dt) (s.elapse dt).dueEpoch = true)
    (row : exec c s = s.epochWith dt p := by rfl) :
    exec c s = .next (State.settle (s.elapse dt) (s.elapse dt).dueEpoch) :=
  exec_event (fun u => u.whenOutcome State.dueEpoch p) (State.whenOutcome_holds h) row

end

/-- Settles O46: `Gen.ramp_ends`, `Gen.stop_ends` and `Shadow.synthesize_ends`, each the epoch that is due. -/
theorem rampsEndAtTheirTargets : Obligations.RampsEndAtTheirTargets := by
  intro dt r s hs
  refine ⟨fun e h hm hp hr => ⟨fun ha hst hcls hk => ?_, fun hact hcls hst hv h0 => ?_⟩,
    fun h hl hact hcls hr hv hlocal h0 => ?_⟩
  · have hreact : s.lsu.gen.react s.cfg s.tru.acting = s.lsu.gen := Gen.react_runs ha (by rw [hst]; nofun)
    have hgen := State.dueEpoch_generator h hs hm hp
    rw [hreact, Gen.ramp_ends hst hr hk] at hgen
    refine ⟨_, exec_epochOutcome (p := endsRamp) ?_, by rw [State.settle_lsu]; exact hgen, s.dueEpoch_only dt⟩
    have hchanged : s.lsu.gen.ramp ≠ some { r with k := r.n } := by
      rw [hr]
      intro hsame
      have hlast : r.k = r.n := congrArg Ramp.k (Option.some.inj hsame)
      omega
    unfold endsRamp Gen.rampEnded
    rw [hgen, Bool.and_eq_true, Bool.and_eq_true, Bool.or_eq_true]
    refine ⟨⟨decide_eq_true ?_, ?_⟩, .inl (decide_eq_true hchanged)⟩
    · dsimp only
      split
      · exact .inr rfl
      · exact .inl rfl
    · exact Bool.and_eq_true_iff.2 ⟨decide_eq_true hcls, decide_eq_true (Nat.le_refl _)⟩
  · have hgen := State.dueEpoch_generator h hs hm hp
    rw [hact, Gen.react_stops hcls hst hr, Gen.stop_ends hst hr h0] at hgen
    refine ⟨_, exec_epochOutcome (p := endsStop) ?_, by rw [State.settle_lsu]; exact hgen, s.dueEpoch_only dt⟩
    unfold endsStop
    rw [hgen, Bool.and_eq_true, Bool.and_eq_true]
    exact ⟨⟨decide_eq_true hv, rfl⟩, rfl⟩
  · have hshadow := State.dueEpoch_shadow h hs hl
    rw [hact, Shadow.synthesize_ends hcls hr h0] at hshadow
    refine ⟨_, exec_epochOutcome (p := endsLocalStop) ?_, by rw [State.settle_lsu]; exact hshadow, s.dueEpoch_only dt⟩
    unfold endsLocalStop
    rw [hshadow, Bool.and_eq_true, Bool.and_eq_true]
    exact ⟨⟨decide_eq_true hv, rfl⟩, hlocal⟩

end Sys2Proof.Machine

/-! Proofs, section 45. The gear step (R73), and the source that an axis loses at an epoch from a header (R72). -/

namespace Sys2Proof.Machine

set_option Elab.async false

/-! ### The gear step (R73) -/

theorem Axis.gearStep_engaged {a : Axis} (h : a.state = .engaged) (dA : Int) : a.gearStep dA = { a with
    q := (a.r + dA * a.n) / a.d, r := ((a.r + dA * a.n) % a.d).toNat,
    theta := BitVec.ofInt 32 (a.theta.toNat + (a.r + dA * a.n) / a.d),
    rev := a.rev + BitVec.ofInt 16 ((a.theta.toNat + (a.r + dA * a.n) / a.d) / 2 ^ 32) } := if_pos h

/-- Settles O15: the quotient and remainder of a floored division. -/
theorem gearStepIsExact : Obligations.GearStepIsExact := by
  intro a dA he hd
  have hd0 : (0 : Int) < a.d := Int.natCast_pos.2 hd
  have hr : (((a.r + dA * a.n) % a.d).toNat : Int) = (a.r + dA * a.n) % a.d :=
    Int.toNat_of_nonneg (Int.emod_nonneg _ hd0.ne')
  rw [Axis.gearStep_engaged he]
  refine ⟨?_, ?_, ?_, rfl, rfl, rfl⟩
  · dsimp only
    rw [hr]
    exact Int.ediv_mul_add_emod _ _
  · exact Int.ofNat_lt.1 (hr.trans_lt (Int.emod_lt_of_pos _ hd0))
  · dsimp only
    rw [BitVec.ofInt_add, BitVec.ofInt_natCast, BitVec.ofNat_toNat, BitVec.setWidth_eq]

/-! ### The condition of source 11 behind an epoch (R72) -/

section
variable {s : State}

/-- A change of source 12 leaves the conditions of the other sources (R122). -/
theorem State.handStale_cond (s0 s : State) {n : Fin 15} (h : n ≠ 12) :
    (State.handStale s0 s).tru.cond[n] = s.tru.cond[n] := by
  unfold State.handStale
  split
  · rfl
  · exact (s.handStamped_other _ s.stamp h).2

theorem State.sluEpoch_cond (s : State) {n : Fin 15} (h : n ≠ 12) : s.sluEpoch.tru.cond[n] = s.tru.cond[n] := by
  have hages : Frame [.slu, .flags, .lde] s ((List.finRange 8).foldl State.ageWindow s) :=
    Frame.foldl _ _ (Frame.refl _ _) fun u i _ => u.ageWindow_fr i
  unfold State.sluEpoch
  rw [State.handStale_cond _ _ h, hages.keeps_tru]

/-- However the open orders fall, the axes give the condition of source 11 in the blocks' work that follows them (R72). -/
theorem State.channelsDone_cond (d : State) (a x mark : Bool) :
    (d.channelsDone a x mark).tru.cond[(11 : Fin 15)] = d.axu.axes.any fun b => b.sourceLost := by
  have hand : ∀ u : State, u.handSourceLost.tru.cond[(11 : Fin 15)] = u.axu.axes.any fun b => b.sourceLost := fun u =>
    u.handStamped_cond_self 11 _ u.stamp
  have hmiddle : (if x then d.handSourceLost.cmuEpoch mark else (d.cmuEpoch mark).handSourceLost).tru.cond[(11 : Fin 15)] =
      d.axu.axes.any fun b => b.sourceLost := by
    cases x with
    | true =>
      show (d.handSourceLost.cmuEpoch mark).tru.cond[(11 : Fin 15)] = _
      rw [(State.cmuEpoch_fr _ _).keeps_tru, hand]
    | false =>
      show (d.cmuEpoch mark).handSourceLost.tru.cond[(11 : Fin 15)] = _
      rw [hand, (State.cmuEpoch_fr _ _).keeps_axu]
  unfold State.channelsDone
  split
  · exact hmiddle
  · rw [State.sluEpoch_cond _ (by decide), hmiddle]

/-- Behind a due epoch from a header the condition of source 11 is present where an axis has lost its source (R72). -/
theorem State.dueEpoch_sourceCond {dt : Nat} {e : PendingEntry} (h : s.HeaderEpochDue dt e) :
    (s.elapse dt).dueEpoch.tru.cond[(11 : Fin 15)] = (s.elapse dt).dueEpoch.axu.axes.any fun b => b.sourceLost := by
  obtain ⟨htake, hdue⟩ := State.dueEpoch_takes h
  rw [State.takeEntry_works (by exact h.fresh)] at htake
  obtain ⟨a, x, hwork⟩ := State.epochWork_tail
    (((s.elapse dt).onFlu fun u => { u with entries := [] }).headerWatched e) (some e.shaft) s.flu.resyncArmed
  have hall : (s.elapse dt).dueEpoch =
      ((State.channelsDone ((s.dueFront dt e).axesDone a (some e.shaft) s.flu.resyncArmed) a x
        s.flu.resyncArmed).iguEpoch).scuEpoch := (hdue.trans htake).trans hwork
  have hbody := State.epochBody_tail (s.dueFront dt e) a x (some e.shaft) s.flu.resyncArmed
  rw [hall, (State.scuEpoch_fr _).keeps_tru, (State.iguEpoch_fr _).keeps_tru, (State.scuEpoch_fr _).keeps_axu,
    (State.iguEpoch_fr _).keeps_axu, State.channelsDone_cond]
  exact congrArg (fun u : Axu => u.axes.any fun b => b.sourceLost) hbody.keeps_axu.symm

/-! ### The axes at an epoch that is due from a header (R68) -/

/-- At a due epoch from a header the axes without a command advance (R68 to R78). -/
theorem State.dueEpoch_axes {dt : Nat} {e : PendingEntry} (h : s.HeaderEpochDue dt e) (hs : s.StaleTripsNothing) :
    s.AxesAdvance (s.elapse dt).dueEpoch s.flu.resyncArmed := by
  obtain ⟨htake, hdue⟩ := State.dueEpoch_takes h
  rw [State.takeEntry_works (by exact h.fresh)] at htake
  have hf := (((s.elapse_fr dt).mono (qs := [.now, .flu, .flags])).comp
    ((s.elapse dt).onFlu_fr fun u => { u with entries := [] })).comp (State.headerWatched_fr _ e)
  have hstale : (((s.elapse dt).onFlu fun u => { u with entries := [] }).headerWatched e).StaleTripsNothing := by
    unfold State.StaleTripsNothing
    rw [hf.keeps_cfg]
    exact hs
  obtain ⟨-, haxes, -⟩ := State.epochWork_works hstale (some e.shaft) s.flu.resyncArmed
  rw [hdue, htake]
  exact haxes.of_event hf (hw := rfl) (hl := rfl)

end

/-- Settles O35: `Axis.Advances.lost` at the epoch that is due, and `State.dueEpoch_sourceCond`. -/
theorem missesToTheLimitLoseTheSource : Obligations.MissesToTheLimitLoseTheSource := by
  intro dt n k e s h hs hA he hsrc hfresh hmiss hhad hc
  obtain ⟨⟨hstate, -, hq, htheta, -⟩, hlost, hextrap⟩ := (State.dueEpoch_axes h hs n hc).lost he hA k hsrc hfresh hmiss
  have hany : ((s.elapse dt).dueEpoch.axu.axes.any fun b => b.sourceLost) = true :=
    Vector.any_eq_true.2 ⟨n, n.isLt, hlost⟩
  have houtcome : losesSource n (s.elapse dt) (s.elapse dt).dueEpoch = true := by
    unfold losesSource
    rw [hlost, Bool.and_true, show (s.elapse dt).axu.axes[n].sourceLost = false from hhad]
    rfl
  refine ⟨_, exec_epochOutcome houtcome, ?_⟩
  rw [State.settle_axu, State.settle_tru]
  exact ⟨hstate, hlost, hextrap, hq, htheta, (State.dueEpoch_sourceCond h).trans hany, s.dueEpoch_only dt⟩

end Sys2Proof.Machine

/-! Proofs, section 46. A valid slot of an arriving return passage (R70, R119, R120). -/

namespace Sys2Proof.Machine

set_option Elab.async false

section
variable {s : State}

/-! ### What one reception makes of the landings (R120) -/

theorem Slu.receiveAt_landing_self (u : Slu) (i k : Fin 8) (p : Fin 32) (data : List Byte) :
    (u.receiveAt i k p data).landing[i][k] =
      some (imageWords data ++ [((u.receiveAt i k p data).entries[i][k]).status]) := by
  rw [Slu.receiveAt_self]
  unfold Slu.receiveAt
  rw [modAt_self, setAt_self]

theorem Slu.receiveAt_landing_other (u : Slu) {i k j l : Fin 8} (p : Fin 32) (data : List Byte) (h : j ≠ i ∨ l ≠ k) :
    (u.receiveAt i k p data).landing[j][l] = u.landing[j][l] := by
  unfold Slu.receiveAt
  by_cases hj : j = i
  · subst hj
    rw [modAt_self, setAt_other _ _ (h.resolve_left (not_not.2 rfl))]
  · rw [modAt_other _ _ hj]

/-! ### What a slot makes of the entries (R117, R120) -/

/-- A value that no reception at an entry naming the slot changes stands when the slot is taken. -/
theorem State.takeSlot_keeps {β : Type} (get : Slu → β) {n : Fin 128} {p : Fin 32} {data : List Byte}
    (h : ∀ u j l, s.cfg.entrySlot j l = some n → get (u.receiveAt j l p data) = get u) :
    get (s.takeSlot n p data).slu = get s.slu := by
  refine foldl_keeps _ get _ (fun u j _ => foldl_keeps _ get _ (fun v l _ => ?_) u) s.slu
  split
  · exact h v j l ‹_›
  · rfl

/-- An entry that does not name the slot stays as it is, and nothing is gathered for it. -/
theorem State.takeSlot_other {n : Fin 128} {j l : Fin 8} (p : Fin 32) (data : List Byte) (h : s.cfg.entrySlot j l ≠ some n) :
    (s.takeSlot n p data).slu.entries[j][l] = s.slu.entries[j][l] ∧
      (s.takeSlot n p data).slu.landing[j][l] = s.slu.landing[j][l] := by
  have hne : ∀ i k, s.cfg.entrySlot i k = some n → j ≠ i ∨ l ≠ k := by
    intro i k hn
    by_contra hsame
    obtain ⟨rfl, rfl⟩ := not_or.1 hsame |>.imp not_not.1 not_not.1
    exact h hn
  exact ⟨State.takeSlot_keeps (fun u => u.entries[j][l]) fun u i k hn => u.receiveAt_other p data (hne i k hn),
    State.takeSlot_keeps (fun u => u.landing[j][l]) fun u i k hn => u.receiveAt_landing_other p data (hne i k hn)⟩

/-- A value that receptions at one entry alone can change is, when the slot is taken, as that entry's reception leaves it. -/
theorem State.takeSlot_once {β : Type} (get : Slu → β) {n : Fin 128} {i k : Fin 8} {p : Fin 32} {data : List Byte}
    (hn : s.cfg.entrySlot i k = some n) (h : ∀ u j l, j ≠ i ∨ l ≠ k → get (u.receiveAt j l p data) = get u) :
    ∃ u : Slu, get (s.takeSlot n p data).slu = get (u.receiveAt i k p data) := by
  have skip : ∀ (u : Slu) (j l : Fin 8), j ≠ i ∨ l ≠ k →
      get (if s.cfg.entrySlot j l = some n then u.receiveAt j l p data else u) = get u := by
    intro u j l hjl
    split
    · exact h u j l hjl
    · rfl
  obtain ⟨u, -, hwindow⟩ := foldl_once
    (fun (u : Slu) j => (List.finRange 8).foldl (fun u l =>
      if s.cfg.entrySlot j l = some n then u.receiveAt j l p data else u) u)
    get (List.nodup_finRange 8) (List.mem_finRange i)
    (fun u j hj => foldl_keeps _ get _ (fun v l _ => skip v j l (.inl hj)) u) s.slu
  obtain ⟨v, -, hentry⟩ := foldl_once
    (fun (u : Slu) l => if s.cfg.entrySlot i l = some n then u.receiveAt i l p data else u)
    get (List.nodup_finRange 8) (List.mem_finRange k) (fun v l hl => skip v i l (.inr hl)) u
  rw [if_pos hn] at hentry
  exact ⟨v, hwindow.trans hentry⟩

/-- The five words gathered for an entry that names the slot: its data, and the entry's status (R120). -/
theorem State.takeSlot_landing {n : Fin 128} {i k : Fin 8} (p : Fin 32) (data : List Byte)
    (h : s.cfg.entrySlot i k = some n) : (s.takeSlot n p data).slu.landing[i][k] =
      some (imageWords data ++ [((s.takeSlot n p data).slu.entries[i][k]).status]) := by
  obtain ⟨u, hu⟩ := State.takeSlot_once (s := s) (p := p) (data := data) (fun u => (u.entries[i][k], u.landing[i][k])) h
    fun u j l hjl => by
      rw [u.receiveAt_other p data (hjl.imp Ne.symm Ne.symm), u.receiveAt_landing_other p data (hjl.imp Ne.symm Ne.symm)]
  obtain ⟨hentries, hlanding⟩ := Prod.mk.inj hu
  rw [hlanding, hentries, Slu.receiveAt_landing_self]

/-! ### The slot of an arriving passage -/

theorem State.retSlot_arrived {n : Fin 128} {tags slot : Block} (hs : s.flu.ret.stage = .slots)
    (hn : s.flu.ret.next ≤ n.val) : s.retSlot n (.arrived tags slot) =
      (s.slotArrives s.flu.ret n tags slot).onReturn false fun p => { p with next := n.val + 1 } := if_pos ⟨hs, hn⟩

end

/-- Settles O31: `State.takeSlot` at the entries that name the slot and at the others. -/
theorem validSlotsAreReceived : Obligations.ValidSlotsAreReceived := by
  intro dt n tags slot bs p data i k s htags hslot hj hst hg hu hn ht hb hpub hentry
  have wf : (Instr.slotReception dt n (.arrived tags slot)).wf = true :=
    Bool.and_eq_true_iff.2 ⟨decide_eq_true htags, decide_eq_true hslot⟩
  have he := State.retSlot_arrived (s := s.elapse dt) (tags := tags) (slot := slot) hst hn
  have hf := (s.elapse dt).retSlot_fr n (.arrived tags slot)
  rw [he] at hf
  have hv := State.slotArrives_valid (s := s.elapse dt) (q := (s.elapse dt).flu.ret) (State.receives_of_isJoined hj) hg hu
    ht hb hpub
  rw [State.receiveSlot_eq (s := s.elapse dt) p data (NodeCfg.subscribes_of_entry hentry)] at hv
  have hslu : ((s.elapse dt).slotArrives (s.elapse dt).flu.ret n tags slot).slu = ((s.elapse dt).takeSlot n p data).slu := by
    rw [hv, (State.handStale_fr _ _).keeps_slu]
    rfl
  have haxu : ((s.elapse dt).slotArrives (s.elapse dt).flu.ret n tags slot).axu =
      { s.axu with fresh := setAt s.axu.fresh n (some (BitVec.ofNat 32 (field data 0 4))) } := by
    rw [hv, (State.handStale_fr _ _).keeps_axu]
    rfl
  refine ⟨_, exec_checked (fun u => u.retSlot n (.arrived tags slot)) wf he, ?_⟩
  rw [State.settle_slu, State.settle_axu, (State.onReturn_fr _ _ _).keeps_slu, (State.onReturn_fr _ _ _).keeps_axu, hslu, haxu]
  exact ⟨State.takeSlot_entry (s := s.elapse dt) p data hentry, State.takeSlot_landing (s := s.elapse dt) p data hentry,
    setAt_self _ _ _, fun m hm => setAt_other _ _ hm, fun j l hjl => State.takeSlot_other (s := s.elapse dt) p data hjl,
    State.takeSlot_keeps (s := s.elapse dt) Slu.publish fun _ _ _ _ => rfl,
    State.takeSlot_keeps (s := s.elapse dt) Slu.committed fun _ _ _ _ => rfl, rfl, State.settled_only _ hf⟩

end Sys2Proof.Machine

/-! Proofs, section 47. The flash body (R188 to R191): the verdict on it, a load that ends, and a load that completes. -/

namespace Sys2Proof.Machine

set_option Elab.async false

/-! ### The verdict on a body (R188, R189) -/

/-- What a body of the length its header gives comes to: the reason that ends the load, or the configured values. -/
def bodyVerdict (h : FlashHeader) (bs : List Byte) : ConfigStatus ⊕ NodeCfg :=
  if crc32 bs ≠ h.crc then .inl .crc else judgeBody bs

section
variable {h : FlashHeader} {bs : List Byte}

theorem bodyVerdict_inl {r : ConfigStatus} :
    bodyVerdict h bs = .inl r ↔ (crc32 bs ≠ h.crc ∧ r = .crc) ∨ (crc32 bs = h.crc ∧ judgeBody bs = .inl r) := by
  unfold bodyVerdict
  by_cases hcrc : crc32 bs = h.crc
  · simp [hcrc]
  · simp [hcrc, eq_comm]

theorem bodyVerdict_inr {c : NodeCfg} : bodyVerdict h bs = .inr c ↔ crc32 bs = h.crc ∧ judgeBody bs = .inr c := by
  unfold bodyVerdict
  by_cases hcrc : crc32 bs = h.crc
  · simp [hcrc]
  · simp [hcrc]

variable {s : State}

/-- The last byte of a body ends the load by the verdict on it. -/
theorem State.readBody_loading (hs : s.cnu.status = .loading) (hf : s.cnu.flash = some h)
    (hl : bs.length = h.length.toNat) :
    s.readBody bs = (bodyVerdict h bs).elim s.rejectConfig s.completeConfig := by
  unfold State.readBody bodyVerdict
  rw [hs, hf]
  dsimp only
  rw [if_pos hl]
  by_cases hcrc : crc32 bs ≠ h.crc
  · rw [if_pos hcrc, if_pos hcrc]
    rfl
  · rw [if_neg hcrc, if_neg hcrc]
    cases judgeBody bs with
    | inl r => simp only [Sum.elim_inl]
    | inr c => simp only [Sum.elim_inr]

/-! ### A load that ends (R191) -/

/-- The end of a load leaves the arbiter nothing to do. -/
theorem State.rejectConfig_served (hs : s.Served) (r : ConfigStatus) : (s.rejectConfig r).arbitrate = s.rejectConfig r :=
  (hs.of_same (t := s.rejectConfig r) rfl rfl).arbitrate_eq

end

/-! ### Camera channels without a scheduled firing -/

/-- No channel has a firing scheduled. -/
def Cmu.Unscheduled (u : Cmu) : Prop := ∀ i : Fin 4, u.ch[i].sched = none

section
variable {s t : State}

/-- Without a scheduled firing there is none to cancel (R146). -/
theorem State.cancelFirings_unscheduled (h : s.cmu.Unscheduled) : s.cancelFirings.cmu = s.cmu := by
  have hch : (s.cmu.ch.map fun c => if c.sched.isSome then { c with sched := none, skipped := true, seek := true } else c) =
      s.cmu.ch := by
    refine Vector.ext fun i hi => ?_
    rw [Vector.getElem_map, show s.cmu.ch[i].sched = none from h ⟨i, hi⟩]
    rfl
  unfold State.cancelFirings
  rw [State.onCmu_cmu, State.notifyIf_cmu, hch]

theorem State.handCondition_unscheduled (h : s.cmu.Unscheduled) (n : Fin 15) (b : Bool) :
    (s.handCondition n b).cmu = s.cmu := by
  have hrecompute : ∀ u : State, u.cmu = s.cmu → u.recompute.cmu = s.cmu := by
    intro u hu
    unfold State.recompute
    dsimp only
    split
    · exact hu
    · split
      · exact (State.cancelFirings_unscheduled (by rw [State.onTru_cmu, hu]; exact h)).trans hu
      · exact hu
  unfold State.handCondition State.handStamped
  dsimp only
  split
  · exact hrecompute _ rfl
  · rfl

/-! ### The filters of the trip inputs start (R89) -/

theorem State.startFilter_unscheduled (h : s.cmu.Unscheduled) (n : Fin 8) : (s.startFilter n).cmu = s.cmu := by
  unfold State.startFilter
  split
  · split
    · exact State.handCondition_unscheduled h _ true
    · rfl
  · rfl

/-- Trip inputs are sources 0 to 7: their filters leave the press trip state and the other sources alone (R88, R89). -/
theorem State.startFilter_tru (s : State) (n : Fin 8) {m : Fin 15} (h : 8 ≤ m.val) :
    (s.startFilter n).tru.latch[m] = s.tru.latch[m] ∧ (s.startFilter n).tru.cond[m] = s.tru.cond[m] ∧
      (s.startFilter n).tru.press = s.tru.press := by
  have hne : m ≠ Fin.ofNat 15 n.val := by
    intro hm
    have hval := congrArg Fin.val hm
    rw [Fin.val_ofNat, Nat.mod_eq_of_lt (by omega)] at hval
    omega
  unfold State.startFilter
  split
  · split
    · obtain ⟨hlatch, hcond⟩ := s.handStamped_other true s.stamp hne
      exact ⟨hlatch, hcond, s.handStamped_press _ true s.stamp⟩
    · exact ⟨rfl, rfl, rfl⟩
  · exact ⟨rfl, rfl, rfl⟩

theorem FlagsStay.startFilter (h : FlagsStay s t) (n : Fin 8) : FlagsStay s (t.startFilter n) := by
  unfold State.startFilter
  exact FlagsStay.ite (FlagsStay.ite (h.handCondition _ true) h) h

/-- The filters of every trip input that reads active start. -/
def State.filtersStarted (s : State) : State := (List.finRange 8).foldl State.startFilter s

theorem State.filtersStarted_fr (s : State) : Frame [.tru, .cmu, .flags] s s.filtersStarted :=
  Frame.foldl _ _ (Frame.refl _ _) fun u n _ => u.startFilter_fr n

theorem State.filtersStarted_unscheduled (h : s.cmu.Unscheduled) : s.filtersStarted.cmu = s.cmu :=
  List.foldlRecOn (motive := fun u : State => u.cmu = s.cmu) _ _ rfl fun u hu n _ =>
    (State.startFilter_unscheduled (by rw [hu]; exact h) n).trans hu

theorem State.filtersStarted_tru (s : State) {m : Fin 15} (h : 8 ≤ m.val) :
    s.filtersStarted.tru.latch[m] = s.tru.latch[m] ∧ s.filtersStarted.tru.cond[m] = s.tru.cond[m] ∧
      s.filtersStarted.tru.press = s.tru.press := by
  unfold State.filtersStarted
  have keep := foldl_keeps State.startFilter (fun u : State => (u.tru.latch[m], u.tru.cond[m], u.tru.press))
    (List.finRange 8) (fun u n _ => by
      obtain ⟨hlatch, hcond, hpress⟩ := u.startFilter_tru n h
      rw [hlatch, hcond, hpress]) s
  simp only [Prod.mk.injEq] at keep
  exact keep

/-! ### A load that completes (R190) -/

theorem Frame.keeps_fcs {ps : List Part} (h : Frame ps s t) (m : Part.cnu ∉ ps := by decide) : t.cnu.fcs = s.cnu.fcs :=
  have k : { t.cnu with flags := 0 } = { s.cnu with flags := 0 } := h.only .cnu m
  (congrArg Cnu.fcs k :)

/-- The node with its configured values, the first landings requested and the master's screens joined. -/
def State.configTaken (s : State) (c : NodeCfg) : State :=
  if c.master then ((s.takeConfig c).notify 14).initialLandings.screensJoin
  else ((s.takeConfig c).notify 14).initialLandings

theorem State.completeConfig_eq (s : State) (c : NodeCfg) :
    s.completeConfig c = State.reportTrip (s.configTaken c) (s.configTaken c).filtersStarted := rfl

theorem State.configTaken_fr (s : State) (c : NodeCfg) :
    Frame [.cls, .scu, .flags, .lde] (s.takeConfig c) (s.configTaken c) := by
  have hland : Frame [.cls, .scu, .flags, .lde] (s.takeConfig c) ((s.takeConfig c).notify 14).initialLandings :=
    ((State.notify_fr _ 14).mono).comp (State.initialLandings_fr _)
  exact Frame.ite (hland.comp (State.screensJoin_fr _)) hland

theorem FlagsStay.initialLandings (h : FlagsStay s t) : FlagsStay s t.initialLandings := by
  have hempty : ∀ (u : State) (i : Fin 4), FlagsStay u (u.landEmptyDescriptors i) := by
    intro u i
    unfold State.landEmptyDescriptors
    split
    · exact .refl u
    · exact .ite ((FlagsStay.refl u).requestNormal _ _) (((FlagsStay.refl u).requestNormal _ _).requestNormal _ _)
  have hstatus : ∀ (u : State) (i : Fin 8), FlagsStay u (u.landInitialStatus i) := fun u i =>
    (FlagsStay.refl u).frame (u.landInitialStatus_fr i)
  exact ((h.frame (State.landTripRecord_fr _)).foldl _ hstatus _).foldl _ hempty _

/-- Completion sets flag 14 (R190). -/
theorem State.completeConfig_flag (s : State) (c : NodeCfg) : (s.completeConfig c).cnu.flags.getLsbD 14 = true := by
  have hland := (FlagsStay.refl ((s.takeConfig c).notify 14)).initialLandings
  have htaken : FlagsStay ((s.takeConfig c).notify 14) (s.configTaken c) := .ite hland.screensJoin hland
  have hstarted : FlagsStay ((s.takeConfig c).notify 14) (s.configTaken c).filtersStarted :=
    htaken.foldl _ (fun u n => (FlagsStay.refl u).startFilter n) _
  rw [State.completeConfig_eq]
  exact hstarted.reportTrip _ 14 (State.notify_self _ 14)

theorem State.takeConfig_ch (s : State) (c : NodeCfg) (i : Fin 4) : (s.takeConfig c).cmu.ch[i] =
    { Channel.reset with expLevel := s.cmu.ch[i].expLevel, seek := (c.cams[i]).isSome } :=
  Vector.getElem_ofFn (f := fun i : Fin 4 => s.cmu.ch[i].complete (c.cams[i]).isSome) i.isLt

/-- The channels complete without a scheduled firing (R150). -/
theorem State.takeConfig_unscheduled (s : State) (c : NodeCfg) : (s.takeConfig c).cmu.Unscheduled := by
  intro i
  rw [State.takeConfig_ch]
  rfl

theorem State.takeConfig_publish (s : State) (c : NodeCfg) (n : Fin 128) :
    (s.takeConfig c).slu.publish[n] = if c.publish.getLsbD n.val then .silent else .unused :=
  Vector.getElem_ofFn (f := fun n : Fin 128 => if c.publish.getLsbD n.val then PublishState.silent else .unused) n.isLt

theorem State.takeConfig_fresh (s : State) (c : NodeCfg) (n : Fin 128) : (s.takeConfig c).axu.fresh[n] = none :=
  Vector.getElem_replicate (a := none) n.isLt

/-- A configured axis of a node with an AXIS window is IDLE on its source; any other is OFF (R66; log 47). -/
theorem State.takeConfig_axes (s : State) (c : NodeCfg) (n : Fin 8) : (s.takeConfig c).axu.axes[n] =
    if c.axes[n].configured = true ∧ (c.only .axis).isSome = true then
      { Axis.reset with
        state := .idle, source := c.axes[n].source, n := c.axes[n].n, d := c.axes[n].d, lslew := c.axes[n].lslew,
        limit := c.axes[n].limit, ref := if c.axes[n].source = .shaft then some 0 else none }
    else Axis.reset := by
  refine (Vector.getElem_ofFn (f := fun n : Fin 8 => axisInitial c.axes[n] (c.only .axis).isSome) n.isLt).trans ?_
  unfold axisInitial
  exact if_congr Bool.and_eq_true_iff rfl rfl

/-- What completion and the arbiter leave of the values taken. -/
theorem State.completed_fr (s : State) (c : NodeCfg) :
    Frame [.tru, .cls, .cmu, .scu, .flags, .ptu, .lde] (s.takeConfig c) (s.completeConfig c).arbitrate := by
  rw [State.completeConfig_eq]
  exact ((((s.configTaken_fr c).mono).comp (State.filtersStarted_fr _)).comp (State.reportTrip_fr _ _)).comp
    (State.arbitrate_fr _)

/-- No channel changes behind the values taken: no trip input finds a firing to cancel (R146, R150). -/
theorem State.completed_cmu (s : State) (c : NodeCfg) : (s.completeConfig c).arbitrate.cmu = (s.takeConfig c).cmu := by
  have hcmu := (s.configTaken_fr c).keeps_cmu
  rw [(State.arbitrate_fr _).keeps_cmu, State.completeConfig_eq, (State.reportTrip_fr _ _).keeps_cmu,
    State.filtersStarted_unscheduled (by rw [hcmu]; exact s.takeConfig_unscheduled c), hcmu]

/-- Source 10 and the press trip state behind a completed load (R109). -/
theorem State.completed_tru (s : State) (c : NodeCfg) :
    (s.completeConfig c).arbitrate.tru.latch[(10 : Fin 15)] =
      (if c.classes[(10 : Fin 15)] = .clear then none else s.tru.latch[(10 : Fin 15)]) ∧
    (s.completeConfig c).arbitrate.tru.cond[(10 : Fin 15)] = !c.master ∧
    (s.completeConfig c).arbitrate.tru.press = if c.master then .tripped else .notApplicable := by
  obtain ⟨hlatch, hcond, hpress⟩ := (s.configTaken c).filtersStarted_tru (m := 10) (by decide)
  rw [(State.arbitrate_fr _).keeps_tru, State.completeConfig_eq, (State.reportTrip_fr _ _).keeps_tru, hlatch, hcond, hpress,
    (s.configTaken_fr c).keeps_tru]
  refine ⟨?_, setAt_self _ _ _, rfl⟩
  show (if c.classes[(10 : Fin 15)] = .clear then setAt s.tru.latch 10 none else s.tru.latch)[(10 : Fin 15)] = _
  split
  · exact setAt_self _ _ _
  · rfl

end

/-- Settles O19: the verdict on the body ends the load (`State.rejectConfig_served`) or completes it (`State.completed_fr`). -/
theorem flashBodyConfiguresOrIsRejected : Obligations.FlashBodyConfiguresOrIsRejected := by
  intro dt bytes s h hs hmin hmax hst hf hl
  have wf : (Instr.flashBodyRead dt bytes).wf = true := Bool.and_eq_true_iff.2 ⟨decide_eq_true hmin, decide_eq_true hmax⟩
  have hexec : exec (.flashBodyRead dt bytes) s = .next ((s.elapse dt).readBody bytes).arbitrate := if_pos wf
  rw [State.readBody_loading (s := s.elapse dt) hst hf hl] at hexec
  refine ⟨_, hexec, ?_⟩
  cases hv : bodyVerdict h bytes with
  | inl r =>
    rw [Sum.elim_inl, State.rejectConfig_served (hs.elapse dt)]
    have hfr := ((s.elapse_fr dt).mono (qs := [.now, .cnu, .flags])).comp ((s.elapse dt).rejectConfig_fr r)
    refine ⟨rfl, State.notify_self _ 14, rfl, fun r2 hr2 => ?_, fun c hcrc hjudge => ?_⟩
    · obtain rfl : r = r2 := Sum.inl.inj (hv.symm.trans (bodyVerdict_inl.2 hr2))
      exact ⟨rfl, rfl, hfr.only⟩
    · cases hv.symm.trans (bodyVerdict_inr.2 ⟨hcrc, hjudge⟩)
  | inr c =>
    rw [Sum.elim_inr]
    have hfr := (s.elapse dt).completed_fr c
    obtain ⟨hlatch, hcond, hpress⟩ := (s.elapse dt).completed_tru c
    have hcmu := (s.elapse dt).completed_cmu c
    have honly := (((s.elapse_fr dt).mono (qs := [.now, .cfg, .flu, .lsu, .axu, .tru, .slu, .cls, .cmu, .igu, .scu, .ksc,
      .cnu, .flags, .ptu, .lde])).comp ((s.elapse dt).takeConfig_fr c)).comp hfr
    have hflag : ((s.elapse dt).completeConfig c).arbitrate.cnu.flags.getLsbD 14 = true :=
      (FlagsStay.refl _).arbitrate 14 ((s.elapse dt).completeConfig_flag c)
    generalize ((s.elapse dt).completeConfig c).arbitrate = t at *
    refine ⟨hfr.keeps_now, hflag, hfr.keeps_fcs, fun r2 hr2 => ?_, fun c2 hcrc hjudge => ?_⟩
    · cases hv.symm.trans (bodyVerdict_inl.2 hr2)
    · obtain rfl : c = c2 := Sum.inr.inj (hv.symm.trans (bodyVerdict_inr.2 ⟨hcrc, hjudge⟩))
      have hphase : t.phase = 0 := State.phase_epoch (by rw [hfr.keeps_flu, hfr.keeps_now]; rfl)
      have hrows : t.rowLines = if c.keys.isSome then 1 else 0 := by
        unfold State.rowLines
        rw [hfr.keeps_configured, hfr.keeps_cfg, hfr.keeps_ksc]
        rfl
      rw [hfr.keeps_status, hfr.keeps_cfg, hfr.keeps_lsu, hfr.keeps_igu, hfr.keeps_flu, hfr.keeps_slu, hfr.keeps_axu,
        hfr.keeps_ksc, hcmu]
      exact ⟨rfl, rfl, rfl, rfl, rfl, rfl, rfl, rfl, rfl, rfl, rfl, State.takeConfig_publish _ c, State.takeConfig_axes _ c,
        State.takeConfig_fresh _ c, hlatch, hcond, hpress, State.takeConfig_ch _ c, rfl, hrows, hphase, honly.only⟩

end Sys2Proof.Machine

/-! Proofs, section 48. The acting class (R88, R94): the most severe of the latched sources and of the other positions' marks. -/

namespace Sys2Proof

set_option Elab.async false

/-! ### Severity (R88) -/

theorem TripClass.worst_severity (x y : TripClass) : (x.worst y).severity = max x.severity y.severity := by
  unfold TripClass.worst
  split <;> omega

theorem TripClass.worst_or (x y : TripClass) : x.worst y = x ∨ x.worst y = y := by
  unfold TripClass.worst
  split
  · exact .inr rfl
  · exact .inl rfl

end Sys2Proof

namespace Sys2Proof.Machine

set_option Elab.async false

section
variable {s : State}

/-! ### The latched sources -/

/-- The most severe of `x` and of the latched sources among `l`. -/
def State.worstLatched (s : State) (l : List (Fin 15)) (x : TripClass) : TripClass :=
  l.foldl (fun x n => if (s.tru.latch[n]).isSome then x.worst (s.sourceClass n) else x) x

theorem State.localClass_eq (s : State) : s.localClass = s.worstLatched (List.finRange 15) .clear := rfl

theorem State.worstLatched_cons (n : Fin 15) (l : List (Fin 15)) (x : TripClass) : s.worstLatched (n :: l) x =
    s.worstLatched l (if (s.tru.latch[n]).isSome then x.worst (s.sourceClass n) else x) := rfl

theorem State.start_le_worstLatched (l : List (Fin 15)) (x : TripClass) : x.severity ≤ (s.worstLatched l x).severity := by
  induction l generalizing x with
  | nil => exact le_rfl
  | cons n l ih =>
    rw [State.worstLatched_cons]
    refine le_trans ?_ (ih _)
    split
    · rw [TripClass.worst_severity]
      exact le_max_left _ _
    · exact le_rfl

theorem State.source_le_worstLatched {l : List (Fin 15)} {n : Fin 15} (x : TripClass) (hn : n ∈ l)
    (h : (s.tru.latch[n]).isSome = true) : (s.sourceClass n).severity ≤ (s.worstLatched l x).severity := by
  induction l generalizing x with
  | nil => cases hn
  | cons m l ih =>
    rw [State.worstLatched_cons]
    cases hn with
    | head =>
      rw [if_pos h]
      refine le_trans ?_ (State.start_le_worstLatched l _)
      rw [TripClass.worst_severity]
      exact le_max_right _ _
    | tail _ hl => exact ih _ hl

theorem State.worstLatched_attained (l : List (Fin 15)) (x : TripClass) : s.worstLatched l x = x ∨
    ∃ n : Fin 15, (s.tru.latch[n]).isSome = true ∧ s.sourceClass n = s.worstLatched l x := by
  induction l generalizing x with
  | nil => exact .inl rfl
  | cons n l ih =>
    rw [State.worstLatched_cons]
    split
    · rename_i h
      rcases ih (x.worst (s.sourceClass n)) with hl | hl
      · exact (x.worst_or (s.sourceClass n)).imp hl.trans fun hw => ⟨n, h, (hl.trans hw).symm⟩
      · exact .inr hl
    · exact ih x

/-- No latched source is more severe than the local class. -/
theorem State.sourceClass_le_localClass {n : Fin 15} (h : (s.tru.latch[n]).isSome = true) :
    (s.sourceClass n).severity ≤ s.localClass.severity := by
  rw [State.localClass_eq]
  exact State.source_le_worstLatched .clear (List.mem_finRange n) h

/-- A local class is that of a latched source. -/
theorem State.localClass_latched (h : s.localClass ≠ .clear) :
    ∃ n : Fin 15, (s.tru.latch[n]).isSome = true ∧ s.sourceClass n = s.localClass := by
  rw [State.localClass_eq] at h ⊢
  exact (State.worstLatched_attained _ _).resolve_left h

/-! ### The other positions' marks -/

/-- The node's own bit stands at its position, where that is one of the mask's. -/
theorem State.ownBit_getLsbD (s : State) (p : Fin 32) : s.ownBit.getLsbD p.val = decide (s.flu.position = some p.val) := by
  unfold State.ownBit
  cases hq : s.flu.position with
  | none => simp
  | some q =>
    dsimp only
    by_cases hle : q ≤ 31
    · rw [if_pos hle, BitVec.getLsbD_shiftLeft, BitVec.getLsbD_one]
      by_cases hqp : q = p.val
      · simp [hqp]
      · have hshift : q ≤ p.val → p.val - q ≠ 0 := by omega
        simpa [hqp] using hshift
    · have hqp : q ≠ p.val := by omega
      simp [hle, hqp]

/-- The remote mask of a class holds another position's bit if one of them marks the class. -/
theorem State.othersMark_iff (s : State) (x : TripClass) :
    (∃ p, s.OthersMark x p) ↔ (s.tru.remote.of x) &&& ~~~s.ownBit ≠ 0 := by
  have hbit : ∀ p : Fin 32, ((s.tru.remote.of x) &&& ~~~s.ownBit).getLsbD p.val = true ↔ s.OthersMark x p := by
    intro p
    rw [BitVec.getLsbD_and, BitVec.getLsbD_not, State.ownBit_getLsbD]
    simp [State.OthersMark]
  constructor
  · rintro ⟨p, hp⟩ h0
    have hset := (hbit p).2 hp
    rw [h0] at hset
    simp at hset
  · intro hne
    by_contra hnone
    refine hne (BitVec.eq_of_getLsbD_eq fun i hi => ?_)
    have hclear := mt (hbit ⟨i, hi⟩).1 fun h => hnone ⟨⟨i, hi⟩, h⟩
    rw [Bool.eq_false_of_not_eq_true hclear]
    simp

theorem State.remoteClass_eq (s : State) : s.remoteClass =
    if s.tru.remote.of .a &&& ~~~s.ownBit ≠ 0 then .a else if s.tru.remote.of .b &&& ~~~s.ownBit ≠ 0 then .b
    else if s.tru.remote.of .c &&& ~~~s.ownBit ≠ 0 then .c else if s.tru.remote.of .d &&& ~~~s.ownBit ≠ 0 then .d
    else .clear := rfl

/-- No mark of another position is more severe than the remote class. -/
theorem State.mark_le_remoteClass {x : TripClass} {p : Fin 32} (h : s.OthersMark x p) :
    x.severity ≤ s.remoteClass.severity := by
  have hne := (s.othersMark_iff x).1 ⟨p, h⟩
  rw [State.remoteClass_eq]
  cases x with
  | clear => exact Nat.zero_le _
  | _ => split_ifs <;> simp_all [TripClass.severity]

/-- A remote class is marked by another position. -/
theorem State.remoteClass_marked (h : s.remoteClass ≠ .clear) : ∃ p, s.OthersMark s.remoteClass p := by
  rw [State.othersMark_iff]
  rw [State.remoteClass_eq] at h ⊢
  split_ifs at h ⊢
  · assumption
  · assumption
  · assumption
  · assumption
  · exact absurd rfl h

/-! ### The acting class recomputed (R94) -/

theorem State.recompute_acting (s : State) : s.recompute.tru.acting = s.localClass.worst s.remoteClass := by
  rw [State.recompute_tru, Tru.act_acting]

/-- A class that the latch and the remote view give already is recomputed to itself. -/
theorem State.ActsOnWhatItHolds.recompute_eq (h : s.ActsOnWhatItHolds) : s.recompute = s := if_pos h.symm

end

/-- Settles O16: the local class bounds and is reached by the latched sources, the remote class by the marks. -/
theorem actingClassIsTheMostSevere : Obligations.ActingClassIsTheMostSevere := by
  intro s
  rw [State.recompute_acting, TripClass.worst_severity]
  refine ⟨rfl, fun n hn => le_max_of_le_left (State.sourceClass_le_localClass hn),
    fun _ p hp => le_max_of_le_right (State.mark_le_remoteClass hp), fun hne => ?_, s.recompute_acts.recompute_eq,
    by rw [State.recompute_tru, Tru.act_latch], by rw [State.recompute_tru, Tru.act_remote], s.recompute_fr.only⟩
  rcases s.localClass.worst_or s.remoteClass with h | h
  · rw [h] at hne ⊢
    exact .inl (State.localClass_latched hne)
  · rw [h] at hne ⊢
    exact .inr (State.remoteClass_marked hne)

end Sys2Proof.Machine

/-! Proofs, section 49. The stop timeout (R102): the lines forced at the timeout stay forced in the rest of the epoch's work. -/

namespace Sys2Proof

set_option Elab.async false

/-- The classes that stop are the most severe ones. -/
theorem TripClass.stops_iff (x : TripClass) : x.stops = true ↔ 2 ≤ x.severity := by
  cases x <;> decide

/-- B and C stop (R49). -/
theorem TripClass.stops_of_ramps {x : TripClass} (h : x.ramps = true) : x.stops = true := by
  cases x with
  | b => rfl
  | c => rfl
  | _ => cases h

end Sys2Proof

namespace Sys2Proof.Machine

set_option Elab.async false

/-! ### A change between stopping classes (R102) -/

/-- From one stopping class to another, timer and forced lines stay (R102). -/
theorem Tru.act_stopped {t : Tru} {x : TripClass} (ht : t.acting.stops = true) (hx : x.stops = true) (hf : t.forced = true)
    (hr : t.requests = 0) : t.act x = { t with acting := x } := by
  unfold Tru.act
  split
  · rename_i h
    rw [h]
  · cases x with
    | a =>
      show ({ t with acting := .a, forced := true, requests := 0 } : Tru) = _
      rw [← hf, ← hr]
    | b => exact if_pos ht
    | c => exact if_pos ht
    | d => cases hx
    | clear => cases hx

section
variable {s t : State} {n : Nat}

/-! ### The stop timer (R102) -/

/-- The epoch that brings the stop timer to its timeout forces the lines and withdraws the requests (R102). -/
theorem State.truEpoch_timesOut (ha : s.tru.acting.ramps = true) (hon : s.tru.timerOn = true)
    (hn : s.tru.timerCount + 1 = s.cfg.stopTimeout) (hl : s.cfg.stopTimeout ≤ 65535) :
    s.truEpoch.tru = { s.tru with timerCount := s.cfg.stopTimeout, forced := true, requests := 0 } := by
  have hlt : s.tru.timerCount < 65535 := by omega
  unfold State.truEpoch
  rw [if_pos ha]
  simp [hon, hlt, hn]

/-- The stop timer has forced the lines at the count `n`, under a stopping class that latch and remote view give. -/
structure State.TimedOut (s : State) (n : Nat) : Prop where
  acts : s.ActsOnWhatItHolds
  stops : s.tru.acting.stops = true
  count : s.tru.timerCount = n
  forced : s.tru.forced = true
  requests : s.tru.requests = 0

theorem State.TimedOut.of_same (h : s.TimedOut n) (hc : t.cfg = s.cfg) (ht : t.tru = s.tru)
    (hp : t.flu.position = s.flu.position) : t.TimedOut n := by
  refine ⟨h.acts.of_same hc ht hp, ?_, ?_, ?_, ?_⟩ <;> rw [ht]
  · exact h.stops
  · exact h.count
  · exact h.forced
  · exact h.requests

theorem State.TimedOut.frame {ps : List Part} (h : s.TimedOut n) (f : Frame ps s t) (m1 : Part.cfg ∉ ps := by decide)
    (m2 : Part.tru ∉ ps := by decide) (m3 : Part.flu ∉ ps := by decide) : t.TimedOut n :=
  h.of_same (f.keeps_cfg m1) (f.keeps_tru m2) (congrArg Flu.position (f.keeps_flu m3))

/-- A larger latch gives no less severe local class. -/
theorem State.localClass_mono (hc : t.cfg = s.cfg) (h8 : t.tru.class8 = s.tru.class8)
    (hl : ∀ m : Fin 15, (s.tru.latch[m]).isSome = true → (t.tru.latch[m]).isSome = true) :
    s.localClass.severity ≤ t.localClass.severity := by
  by_cases hclear : s.localClass = .clear
  · rw [hclear]
    exact Nat.zero_le _
  · obtain ⟨m, hm, heq⟩ := State.localClass_latched hclear
    have hsource : t.sourceClass m = s.sourceClass m := by
      unfold State.sourceClass
      rw [hc, h8]
    rw [← heq, ← hsource]
    exact State.sourceClass_le_localClass (hl m hm)

/-- A source latched on top of the forced lines leaves them forced: the acting class can only become more severe (R94, R102). -/
theorem State.TimedOut.recompute (h : s.TimedOut n) (hc : t.cfg = s.cfg) (hp : t.flu.position = s.flu.position)
    {c : Vector Bool 15} {l : Vector (Option Stamp) 15} (ht : t.tru = { s.tru with cond := c, latch := l })
    (hl : ∀ m : Fin 15, (s.tru.latch[m]).isSome = true → (l[m]).isSome = true) : t.recompute.TimedOut n := by
  have hlocal : s.localClass.severity ≤ t.localClass.severity :=
    State.localClass_mono hc (by rw [ht]) (by rw [ht]; exact hl)
  have hremote : t.remoteClass = s.remoteClass := State.remoteClass_congr (by rw [ht]) hp
  have hstops : (t.localClass.worst t.remoteClass).stops = true := by
    have hold := h.stops
    rw [h.acts, TripClass.stops_iff, TripClass.worst_severity] at hold
    rw [TripClass.stops_iff, TripClass.worst_severity, hremote]
    omega
  have hact : t.recompute.tru = { t.tru with acting := t.localClass.worst t.remoteClass } := by
    rw [State.recompute_tru]
    refine Tru.act_stopped ?_ hstops ?_ ?_ <;> rw [ht]
    · exact h.stops
    · exact h.forced
    · exact h.requests
  refine ⟨t.recompute_acts, ?_, ?_, ?_, ?_⟩ <;> rw [hact]
  · exact hstops
  · rw [ht]; exact h.count
  · rw [ht]; exact h.forced
  · rw [ht]; exact h.requests

/-- A condition handed over leaves the forced lines forced. -/
theorem State.TimedOut.handCondition (h : s.TimedOut n) (m : Fin 15) (b : Bool) : (s.handCondition m b).TimedOut n := by
  unfold State.handCondition State.handStamped
  dsimp only
  split
  · refine h.recompute (c := setAt s.tru.cond m b) (l := setAt s.tru.latch m (some s.stamp)) rfl rfl rfl fun k hk => ?_
    by_cases hkm : k = m
    · rw [hkm, setAt_self]
      rfl
    · rw [setAt_other _ _ hkm]
      exact hk
  · refine ⟨?_, h.stops, h.count, h.forced, h.requests⟩
    exact h.acts

theorem State.ageWindows_fr (s : State) :
    Frame [.slu, .flags, .lde] s ((List.finRange 8).foldl State.ageWindow s) :=
  Frame.foldl _ _ (Frame.refl _ _) fun u i _ => u.ageWindow_fr i

theorem State.TimedOut.sluEpoch (h : s.TimedOut n) : s.sluEpoch.TimedOut n := by
  have hages := s.ageWindows_fr
  unfold State.sluEpoch State.handStale
  split
  · exact h.frame hages
  · exact (h.frame hages).handCondition _ _

/-- The blocks' work from the Camera Unit on leaves the forced lines forced. -/
theorem State.TimedOut.channelsDone (h : s.TimedOut n) (a x mark : Bool) : (s.channelsDone a x mark).TimedOut n := by
  have hmiddle : (if x then s.handSourceLost.cmuEpoch mark else (s.cmuEpoch mark).handSourceLost).TimedOut n := by
    split
    · exact (h.handCondition 11 _).frame (State.cmuEpoch_fr _ mark)
    · exact (h.frame (State.cmuEpoch_fr _ mark)).handCondition 11 _
  unfold State.channelsDone
  split
  · exact hmiddle
  · exact hmiddle.sluEpoch

/-! ### An epoch that is due from a header -/

/-- Ageing that trips nothing changes of the trip state the conditions alone (R121, R122). -/
theorem State.aged_tru (h : s.StaleTripsNothing) (a : Bool) :
    ∃ c, (if a then s.sluEpoch else s).tru = { s.tru with cond := c } := by
  have hages := s.ageWindows_fr
  split
  · unfold State.sluEpoch State.handStale
    split
    · exact ⟨_, hages.keeps_tru⟩
    · rw [State.handCondition_clear (by rw [hages.keeps_cfg]; exact h), State.onTru_tru, hages.keeps_tru]
      exact ⟨_, rfl⟩
  · exact ⟨_, rfl⟩

/-- The stop timer comes to its timeout in the blocks' work up to the axes, where ageing trips nothing (R102). -/
theorem State.axesDone_timesOut (h : s.StaleTripsNothing) (hacts : s.ActsOnWhatItHolds) (ha : s.tru.acting.ramps = true)
    (hon : s.tru.timerOn = true) (hn : s.tru.timerCount + 1 = s.cfg.stopTimeout) (hl : s.cfg.stopTimeout ≤ 65535)
    (a : Bool) (hdr : Option HeaderShaft) (mark : Bool) : (s.axesDone a hdr mark).TimedOut s.cfg.stopTimeout := by
  obtain ⟨c, htru⟩ := State.aged_tru h a
  have hfr : Frame [.tru, .slu, .cmu, .flags, .lde] s (if a then s.sluEpoch else s) :=
    Frame.ite s.sluEpoch_fr (Frame.refl _ _)
  have hshaft := hfr.mono (qs := [.lsu, .tru, .slu, .cmu, .flags, .ptu, .lde]) |>.comp (State.lsuEpoch_fr _ hdr mark)
  have hbefore := (State.lsuEpoch_fr (if a then s.sluEpoch else s) hdr mark).keeps_tru.trans htru
  have hout := State.truEpoch_timesOut (s := (if a then s.sluEpoch else s).lsuEpoch hdr mark) (by rw [hbefore]; exact ha)
    (by rw [hbefore]; exact hon) (by rw [hbefore, hshaft.keeps_cfg]; exact hn) (by rw [hshaft.keeps_cfg]; exact hl)
  rw [hbefore, hshaft.keeps_cfg] at hout
  have hall := hshaft.comp (State.truEpoch_fr _)
  refine State.TimedOut.frame (s := ((if a then s.sluEpoch else s).lsuEpoch hdr mark).truEpoch) ?_
    (State.axuEpoch_fr _ hdr.isNone mark)
  refine ⟨?_, ?_, ?_, ?_, ?_⟩
  · unfold State.ActsOnWhatItHolds
    rw [State.localClass_congr (s := s) hall.keeps_cfg (by rw [hout]) (by rw [hout]),
      State.remoteClass_congr (s := s) (by rw [hout]) (by rw [hall.keeps_flu]), hout]
    exact hacts
  all_goals rw [hout]
  exact TripClass.stops_of_ramps ha

/-- An epoch that is due from a header is the blocks' work from `State.dueFront`, in the order drawn (log 6). -/
theorem State.dueEpoch_stages {dt : Nat} {e : PendingEntry} (h : s.HeaderEpochDue dt e) : ∃ a x, (s.elapse dt).dueEpoch =
    ((((s.dueFront dt e).axesDone a (some e.shaft) s.flu.resyncArmed).channelsDone a x s.flu.resyncArmed).iguEpoch).scuEpoch := by
  obtain ⟨htake, hdue⟩ := State.dueEpoch_takes h
  rw [State.takeEntry_works (by exact h.fresh)] at htake
  obtain ⟨a, x, hwork⟩ := State.epochWork_tail
    (((s.elapse dt).onFlu fun u => { u with entries := [] }).headerWatched e) (some e.shaft) s.flu.resyncArmed
  exact ⟨a, x, (hdue.trans htake).trans hwork⟩

theorem State.dueFront_position (s : State) (dt : Nat) (e : PendingEntry) :
    (s.dueFront dt e).flu.position = s.flu.position := by
  show (State.headerWatched _ e).flu.position = _
  rw [State.headerWatched_flu]
  rfl

end

/-- Settles O36: the lines are forced where the timer reaches its timeout (`State.axesDone_timesOut`) and stay forced. -/
theorem stopTimeoutForcesTheLines : Obligations.StopTimeoutForcesTheLines := by
  intro dt e s h hs hacts hbc hon hn hl
  have hramps : s.tru.acting.ramps = true := by
    rcases hbc with hb | hc
    · rw [hb]; rfl
    · rw [hc]; rfl
  have hfront := s.dueFront_fr dt e
  have hcfg := hfront.keeps_cfg
  have htru := hfront.keeps_tru
  obtain ⟨a, x, hall⟩ := State.dueEpoch_stages h
  have hout : (s.elapse dt).dueEpoch.TimedOut s.cfg.stopTimeout := by
    rw [hall, ← hcfg]
    refine ((State.TimedOut.channelsDone ?_ a x s.flu.resyncArmed).frame (State.iguEpoch_fr _)).frame (State.scuEpoch_fr _)
    refine State.axesDone_timesOut ?_ (hacts.of_same hcfg htru (s.dueFront_position dt e)) ?_ ?_ ?_ ?_ a _ _
    · unfold State.StaleTripsNothing
      rw [hcfg]
      exact hs
    · rw [htru]; exact hramps
    · rw [htru]; exact hon
    · rw [htru, hcfg]; exact hn
    · rw [hcfg]; exact hl
  have houtcome : stopTimesOut (s.elapse dt) (s.elapse dt).dueEpoch = true := by
    have hlt : s.tru.timerCount < s.cfg.stopTimeout := by omega
    unfold stopTimesOut
    rw [hout.count]
    simp [State.elapse, hon, hlt]
  refine ⟨_, exec_epochOutcome houtcome, ?_⟩
  rw [State.settle_tru]
  refine ⟨hout.count, hout.forced, hout.requests, ?_, s.dueEpoch_only dt⟩
  unfold Tru.outputs Tru.linesForced
  rw [hout.forced]
  rfl

end Sys2Proof.Machine

/-! Proofs, section 50. The commands of the TRIP window, accepted (R92, R101, R104): what each makes of the trip state, and the
end of its event. -/

namespace Sys2Proof.Machine

set_option Elab.async false

section
variable {s t : State}

/-! ### The trip report (R107) -/

/-- What the trip report raises flag 0 for is the same: latch with the class of source 8, acting class, press first-fault
record (R107). -/
def Tru.SameReport (x y : Tru) : Prop :=
  x.latch = y.latch ∧ x.class8 = y.class8 ∧ x.acting = y.acting ∧ x.pressFault = y.pressFault

/-- Such a change is at most landed (R107). -/
theorem State.reportTrip_same {s0 : State} (h : s.tru.SameReport s0.tru) :
    State.reportTrip s0 s = if s.configured = true ∧ s.tripRecord ≠ s0.tripRecord then s.landTripRecord else s := by
  obtain ⟨hlatch, hclass, hacting, hfault⟩ := h
  unfold State.reportTrip
  by_cases hc : s.configured = true
  · rw [hlatch, hclass, hacting, hfault]
    simp [hc, State.notifyIf]
  · simp [hc]

theorem State.reportTrip_same_flags {s0 : State} (h : s.tru.SameReport s0.tru) :
    (State.reportTrip s0 s).cnu.flags = s.cnu.flags := by
  rw [State.reportTrip_same h]
  split
  · exact s.landTripRecord_fr.keeps_flags
  · rfl

/-- The end of an event with no P-port cycle in progress: the report and the landing queue. -/
theorem State.settle_uncycled (s0 : State) (hc : s.ptu.cycle = none) :
    Frame [.flags, .lde] s (State.settle s0 s) ∧ (State.settle s0 s).lde.normal = s.lde.normal ∧
      (s.tru.SameReport s0.tru → (State.settle s0 s).cnu.flags = s.cnu.flags) := by
  have hreport := State.reportTrip_fr s0 s
  obtain ⟨hend, hn⟩ := State.arbitrate_idle (s := State.reportTrip s0 s) (by rw [hreport.keeps_ptu]; exact hc)
  exact ⟨hreport.comp hend, hn.trans (State.reportTrip_normal s0 s),
    fun h => hend.keeps_flags.trans (State.reportTrip_same_flags h)⟩

/-! ### The row of a command (R36) -/

/-- A command `which` of the TRIP window `w`, written with beat `b`, was taken from `s` to `t`: `x` is what it makes of the state
behind the write, and `r` is its result. -/
structure State.TripTaken (s x t : State) (which : Fin 3) (w : Window) (b : Beat) (r : Word) : Prop where
  frame : Frame [.cmu, .flags, .now, .tru, .shadow, .lde, .mem] s t
  settled : Frame [.flags, .lde] x t
  flags : x.tru.SameReport s.tru → t.cnu.flags = x.cnu.flags
  result : t.ResultRequested (w.word + 4 + which.val) r
  captured : Captured s t (w.word + which.val) b

/-- A TRIP command of code 1 is taken at the completion of its write (R36). -/
theorem State.tripCommand_takes {which : Fin 3} {dt : Nat} {b : Beat} {w : Window} {c : Instr} {x : State} {r : Word}
    (hw : s.cfg.only .trip = some w) (h : s.CanWrite (w.word + which.val) (.tripCommand which))
    (hcode : cmdCode (s.shadowAfter (w.word + which.val) b) = 1)
    (hx : ((s.elapse dt).written (w.word + which.val) b).takeTripCommand which (s.shadowAfter (w.word + which.val) b) =
      x.tripResult which r)
    (hf : Frame [.tru, .cmu, .flags] ((s.elapse dt).written (w.word + which.val) b) x)
    (row : exec c s = s.event dt fun u => u.writeFixed .trip which.val definedCode b := by rfl) :
    ∃ t, exec c s = .next t ∧ s.TripTaken x t which w b r := by
  have h' := h.elapse dt
  have heq := State.writeFixed_taken (s := s.elapse dt) (code := definedCode) hw h' rfl (b := b) (decide_eq_true hcode)
  have hsh : ((s.elapse dt).written (w.word + which.val) b).shadowAt (w.word + which.val) =
    s.shadowAfter (w.word + which.val) b := State.written_shadow h'.sound _ b
  rw [State.takeBeat_trip (show ((s.elapse dt).beatAt _ b).id = .tripCommand which from h'.names),
    show ((s.elapse dt).beatAt (w.word + which.val) b).addr = w.word + which.val from rfl, hsh, hx] at heq
  obtain ⟨hresult, hreq⟩ := State.tripResult_room (s := x) which r (by rw [hf.keeps_cfg]; exact hw)
    (by rw [hf.keeps_lde]; exact State.written_room h'.quiet)
  obtain ⟨-, -, -, qc, -⟩ := h'.quiet
  have hcycle : (x.tripResult which r).ptu.cycle = none := by
    rw [hresult.keeps_ptu, hf.keeps_ptu]
    exact qc
  obtain ⟨hend, hn, hflags⟩ := State.settle_uncycled (s.elapse dt) hcycle
  have hsettled := (hresult.mono (qs := [.flags, .lde])).comp hend
  refine ⟨_, exec_event (fun u => u.writeFixed .trip which.val definedCode b) heq row, ?_, hsettled, fun hsame => ?_,
    hreq.stays (.of_eq hn), ?_⟩
  · exact ((((s.elapse_fr dt).mono).comp (State.written_fr _ _ b)).comp hf).comp hsettled
  · rw [hresult.keeps_tru] at hflags
    exact (hflags hsame).trans hresult.keeps_flags
  · exact State.captured_of_written (s := s.elapse dt) h'.sound h'.range b (hsettled.keeps_mem.trans hf.keeps_mem)
      (hsettled.keeps_shadow.trans hf.keeps_shadow)

/-! ### The trip request (R92) -/

/-- The state after an accepted trip request of class `cls`. -/
def State.tripRequested (s : State) (cls : TripClass) : State :=
  if s.tru.latch[(8 : Fin 15)] = none then
    (s.onTru fun t => { t with class8 := cls, latch := setAt t.latch 8 (some s.stamp) }).recompute
  else if s.tru.class8.severity < cls.severity then (s.onTru fun t => { t with class8 := cls }).recompute
  else s

theorem State.judgeTripRequest_accepts {n : Nat} {cls : TripClass} (hn : TripClass.ofCode n = some cls) (hc : cls ≠ .clear) :
    s.judgeTripRequest n = (.accepted, s.tripRequested cls) := by
  unfold State.judgeTripRequest State.tripRequested
  rw [hn]
  cases cls with
  | clear => exact absurd rfl hc
  | _ =>
    dsimp only
    simp only [Option.isNone_iff_eq_none]
    split
    · rfl
    · split <;> rfl

theorem State.takeTripRequest_accepts {w : Word} {cls : TripClass} (hcode : cmdCode w = 1)
    (hn : TripClass.ofCode (cmdOperand w) = some cls) (hc : cls ≠ .clear) :
    s.takeTripCommand 0 w = (s.tripRequested cls).tripResult 0 (resultWord (cmdTag w) .accepted 0) := by
  show s.takeTripRequest w = _
  unfold State.takeTripRequest
  rw [if_pos hcode, State.judgeTripRequest_accepts hn hc]

theorem State.tripRequested_fr (s : State) (cls : TripClass) : Frame [.tru, .cmu, .flags] s (s.tripRequested cls) :=
  Frame.ite (((s.onTru_fr _).mono).comp (State.recompute_fr _))
    (Frame.ite (((s.onTru_fr _).mono).comp (State.recompute_fr _)) (Frame.refl _ _))

/-- A trip request leaves conditions and remote view alone. -/
theorem State.tripRequested_keeps (s : State) (cls : TripClass) :
    (s.tripRequested cls).tru.cond = s.tru.cond ∧ (s.tripRequested cls).tru.remote = s.tru.remote := by
  unfold State.tripRequested
  split
  · rw [State.recompute_tru, Tru.act_cond, Tru.act_remote]
    exact ⟨rfl, rfl⟩
  · split
    · rw [State.recompute_tru, Tru.act_cond, Tru.act_remote]
      exact ⟨rfl, rfl⟩
    · exact ⟨rfl, rfl⟩

/-- A first trip request latches source 8 with its class (R92). -/
theorem State.tripRequested_first {cls : TripClass} (h : s.tru.latch[(8 : Fin 15)] = none) :
    (s.tripRequested cls).tru.class8 = cls ∧ (s.tripRequested cls).tru.latch = setAt s.tru.latch 8 (some s.stamp) ∧
      (s.tripRequested cls).ActsOnWhatItHolds := by
  unfold State.tripRequested
  rw [if_pos h]
  refine ⟨?_, ?_, State.recompute_acts _⟩
  · rw [State.recompute_tru, Tru.act_class8]
    rfl
  · rw [State.recompute_tru, Tru.act_latch]
    rfl

/-- A further one raises the class of source 8, if its own is more severe (R92). -/
theorem State.tripRequested_further {cls : TripClass} (h : s.tru.latch[(8 : Fin 15)] ≠ none) :
    (s.tripRequested cls).tru.latch = s.tru.latch ∧
      (s.tripRequested cls).tru.class8 = (if s.tru.class8.severity < cls.severity then cls else s.tru.class8) ∧
      (s.tru.class8.severity < cls.severity → (s.tripRequested cls).ActsOnWhatItHolds) ∧
      (¬ s.tru.class8.severity < cls.severity → (s.tripRequested cls).tru.acting = s.tru.acting) := by
  unfold State.tripRequested
  rw [if_neg h]
  split
  · rename_i hlt
    refine ⟨?_, ?_, fun _ => State.recompute_acts _, fun hn => absurd hlt hn⟩
    · rw [State.recompute_tru, Tru.act_latch]
      rfl
    · rw [State.recompute_tru, Tru.act_class8]
      rfl
  · rename_i hlt
    exact ⟨rfl, rfl, fun hl => absurd hl hlt, fun _ => rfl⟩

/-! ### The reset request (R104) -/

/-- The state after an accepted reset request. -/
def State.resetRequested (s : State) : State := s.onTru fun t => { t with resetPending := true, press := .resetting }

theorem State.takeReset_accepts {w : Word} (hcode : cmdCode w = 1) (hm : s.isMaster = true)
    (hg : s.lsu.gen.state ≠ .stopping) : s.takeTripCommand 1 w =
      s.resetRequested.tripResult 1 (resultWord (cmdTag w) .accepted (s.tru.known + 1).toNat) := by
  have hj : s.judgeReset = (.accepted, s.resetRequested) := by
    unfold State.judgeReset
    rw [hm, if_neg (by decide), if_neg hg]
    rfl
  show s.takeReset w = _
  unfold State.takeReset
  rw [if_pos hcode, hj]
  dsimp only
  rw [if_pos hm]
  rfl

/-! ### The enable request (R101) -/

/-- The state after an accepted enable request. -/
def State.enableRequested (s : State) (req : BitVec 4) : State := s.onTru fun t => { t with requests := req }

/-- The outputs are the requests where no forced line is asked for (R102). -/
theorem State.enableRequested_outputs {req : BitVec 4} (h : req = 0 ∨ s.tru.linesForced = false) :
    (s.enableRequested req).tru.outputs = req := by
  show (if s.tru.linesForced = true then 0 else req) = req
  rcases h with h | h
  · rw [h, ite_self]
  · rw [h, if_neg (by decide)]

theorem State.takeEnable_accepts {w : Word} (hcode : cmdCode w = 1)
    (h : BitVec.ofNat 4 (cmdOperand w) = 0 ∨ s.tru.linesForced = false) : s.takeTripCommand 2 w =
      (s.enableRequested (BitVec.ofNat 4 (cmdOperand w))).tripResult 2
        (resultWord (cmdTag w) .accepted (BitVec.ofNat 4 (cmdOperand w)).toNat) := by
  have hj : s.judgeEnable (BitVec.ofNat 4 (cmdOperand w)) =
      (.accepted, s.enableRequested (BitVec.ofNat 4 (cmdOperand w))) := by
    unfold State.judgeEnable
    rw [if_neg]
    · rfl
    · rintro ⟨hreq, hforced⟩
      rcases h with h | h
      · exact hreq h
      · rw [h] at hforced
        cases hforced
  show s.takeEnable w = _
  unfold State.takeEnable
  rw [if_pos hcode, hj]
  dsimp only
  rw [State.enableRequested_outputs h]

/-- A command that changes of the node the trip state alone, and nothing that the report raises a flag for. -/
theorem State.TripTaken.only {x : State} {which : Fin 3} {w : Window} {b : Beat} {r : Word} (h : s.TripTaken x t which w b r)
    (hx : x.tru.SameReport s.tru) (hc : x.cmu = s.cmu) (hf : x.cnu.flags = s.cnu.flags) :
    OnlyTouches [.now, .tru, .shadow, .lde, .mem] s t :=
  ((h.frame.drop (h.settled.keeps_cmu.trans hc)).drop ((h.flags hx).trans hf)).only

end

/-- Settles O50: each command is taken at the completion of its write (`State.tripCommand_takes`). -/
theorem tripCommandsTakeEffect : Obligations.TripCommandsTakeEffect := by
  intro dt b w s hw
  refine ⟨fun cls h hcode hn hc => ?_, fun h hcode hm hg => ?_, fun h hcode hreq => ?_⟩
  · obtain ⟨t, ht, htaken⟩ : ∃ t, exec (.tripRequest dt b) s = .next t ∧
        s.TripTaken (((s.elapse dt).written w.word b).tripRequested cls) t 0 w b
          (resultWord (cmdTag (s.shadowAfter w.word b)) .accepted 0) :=
      State.tripCommand_takes hw h hcode (State.takeTripRequest_accepts hcode hn hc) (State.tripRequested_fr _ cls)
    have htru := htaken.settled.keeps_tru
    have hacts : (((s.elapse dt).written w.word b).tripRequested cls).ActsOnWhatItHolds →
        t.tru.acting = t.localClass.worst t.remoteClass := fun k =>
      k.of_same htaken.settled.keeps_cfg htru (by rw [htaken.settled.keeps_flu])
    obtain ⟨hcond, hremote⟩ := ((s.elapse dt).written w.word b).tripRequested_keeps cls
    refine ⟨t, ht, htaken.result, fun hfirst => ?_, fun hfurther => ?_, ?_, ?_, htaken.captured, ?_⟩
    · obtain ⟨hclass, hlatch, hacting⟩ := State.tripRequested_first (s := (s.elapse dt).written w.word b) (cls := cls) hfirst
      refine ⟨by rw [htru, hclass], ?_, fun n hn => ?_, hacts hacting⟩
      · rw [htru, hlatch]
        exact setAt_self _ _ _
      · rw [htru, hlatch]
        exact setAt_other _ _ hn
    · obtain ⟨hlatch, hclass, hraised, hkept⟩ :=
        State.tripRequested_further (s := (s.elapse dt).written w.word b) (cls := cls) hfurther
      refine ⟨htru ▸ hlatch, htru ▸ hclass, ?_⟩
      split
      · rename_i hlt
        exact hacts (hraised hlt)
      · rename_i hlt
        rw [htru]
        exact hkept hlt
    · rw [htru]
      exact hcond
    · rw [htru]
      exact hremote
    · exact (htaken.frame.mono (qs := [.now, .tru, .cmu, .flags, .shadow, .lde, .mem])).only
  · obtain ⟨t, ht, htaken⟩ := State.tripCommand_takes (which := 1) (dt := dt) (c := .resetRequest dt b) hw h hcode
      (State.takeReset_accepts (s := (s.elapse dt).written (w.word + 1) b) hcode hm hg) ((State.onTru_fr _ _).mono)
    exact ⟨t, ht, htaken.settled.keeps_tru, htaken.result, htaken.captured, htaken.only ⟨rfl, rfl, rfl, rfl⟩ rfl rfl⟩
  · obtain ⟨t, ht, htaken⟩ := State.tripCommand_takes (which := 2) (dt := dt) (c := .enableRequest dt b) hw h hcode
      (State.takeEnable_accepts (s := (s.elapse dt).written (w.word + 2) b) hcode hreq) ((State.onTru_fr _ _).mono)
    exact ⟨t, ht, htaken.settled.keeps_tru, htaken.result, htaken.captured, htaken.only ⟨rfl, rfl, rfl, rfl⟩ rfl rfl⟩

end Sys2Proof.Machine

/-! Proofs, section 51. The trip inputs (R89): a line's two edges, the end of its filter, and what a condition that becomes
present makes of its source (R91, R94). -/

namespace Sys2Proof.Machine

set_option Elab.async false

section
variable {s t : State}

/-! ### The source of a trip input (R88) -/

/-- Trip input `n` is source `n`. -/
def inputSource (n : Fin 8) : Fin 15 := ⟨n.val, by omega⟩

theorem ofNat_inputSource (n : Fin 8) : Fin.ofNat 15 n.val = inputSource n :=
  Fin.ext (Nat.mod_eq_of_lt (by omega))

/-! ### The end of the event -/

/-- A newly latched source sets flag 0 (R107). -/
theorem State.reportTrip_latch {s0 : State} (hc : s.configured = true) (h : s.tru.latch ≠ s0.tru.latch) :
    (State.reportTrip s0 s).cnu.flags.getLsbD 0 = true := by
  unfold State.reportTrip
  rw [if_pos hc, decide_eq_true h]
  dsimp only
  split
  · rw [(State.landTripRecord_fr _).keeps_flags]
    exact State.notify_self s 0
  · exact State.notify_self s 0

/-- A change of levels, filters and conditions alone is not reported, and nothing is granted. -/
theorem State.settle_unreported (hs : s.Served) {g : Tru → Tru}
    (hg : ∃ l f c, g s.tru = { s.tru with tiLevel := l, filter := f, cond := c }) :
    State.settle s (s.onTru g) = s.onTru g := by
  obtain ⟨l, f, c, hg⟩ := hg
  have hrecord : (s.onTru g).tripRecord = s.tripRecord := by
    rw [show s.onTru g = s.onTru fun u => { u with tiLevel := l, filter := f, cond := c } from
      congrArg (fun u => ({ s with tru := u } : State)) hg]
    rfl
  have hreport : State.reportTrip s (s.onTru g) = s.onTru g := by
    rw [State.reportTrip_same (by rw [State.onTru_tru, hg]; exact ⟨rfl, rfl, rfl, rfl⟩)]
    exact if_neg fun h => h.2 hrecord
  unfold State.settle
  rw [hreport, (hs.of_same (t := s.onTru g) rfl rfl).arbitrate_eq]

/-! ### A condition becomes present (R91, R94) -/

section
variable (s) (n : Fin 15) (b : Bool) (x : Stamp)

@[simp] theorem State.handStamped_filter : (s.handStamped n b x).tru.filter = s.tru.filter := by
  obtain ⟨_, _, _, _, _, e⟩ := s.handStamped_tru n b x; rw [e]
@[simp] theorem State.handStamped_tiLevel : (s.handStamped n b x).tru.tiLevel = s.tru.tiLevel := by
  obtain ⟨_, _, _, _, _, e⟩ := s.handStamped_tru n b x; rw [e]

end

/-- An absent condition handed over changes nothing else. -/
theorem State.handCondition_absent (s : State) (n : Fin 15) :
    s.handCondition n false = s.onTru fun t => { t with cond := setAt t.cond n false } := by
  unfold State.handCondition State.handStamped
  exact if_neg (by simp)

/-- A source newly latched has the acting class recomputed (R94). -/
theorem State.handStamped_acts {n : Fin 15} (x : Stamp) (hc : s.tru.cond[n] = false) (hk : s.cfg.classes[n] ≠ .clear)
    (hl : s.tru.latch[n] = none) : (s.handStamped n true x).ActsOnWhatItHolds := by
  unfold State.handStamped
  dsimp only
  rw [if_pos (by simp only [Fin.getElem_fin] at hc hk hl ⊢; simp [hc, hk, hl])]
  exact State.recompute_acts _

/-- From `s` the condition of trip input `n` has become present in `t`: its filter has ended, its source is latched with stamp `x`
if it has a class, and the other sources are as they were (R89, R91). -/
structure State.InputPresent (s t : State) (n : Fin 8) (x : Stamp) : Prop where
  cond : t.tru.cond[inputSource n] = true
  filter : t.tru.filter[n] = none
  latched : s.tru.cond[inputSource n] = false → s.cfg.classes[inputSource n] ≠ .clear →
    s.tru.latch[inputSource n] = none →
    t.tru.latch[inputSource n] = some x ∧ t.tru.acting = t.localClass.worst t.remoteClass ∧ t.cnu.flags.getLsbD 0 = true
  others : ∀ m : Fin 15, m ≠ inputSource n → t.tru.cond[m] = s.tru.cond[m] ∧ t.tru.latch[m] = s.tru.latch[m]

/-- The event of `s` that hands over the condition of input `n`, its filter ended. -/
theorem State.inputPresent_of_handed {n : Fin 8} {l : Vector Bool 8} {f : Vector (Option Nat) 8} (hc : s.configured = true)
    (hf : f[n] = none) : s.InputPresent (State.settle s
      ((s.onTru fun u => { u with tiLevel := l, filter := f }).handCondition (inputSource n) true)) n s.stamp := by
  generalize hu : (s.onTru fun u => { u with tiLevel := l, filter := f }) = u
  have hcond : u.tru.cond = s.tru.cond := by rw [← hu]; rfl
  have hlatch : u.tru.latch = s.tru.latch := by rw [← hu]; rfl
  have hcfg : u.cfg = s.cfg := by rw [← hu]; rfl
  have hfilter : u.tru.filter[n] = none := by rw [← hu]; exact hf
  have hstamp : u.stamp = s.stamp := by rw [← hu]; rfl
  have hconf : u.configured = true := by rw [← hu]; exact hc
  unfold State.handCondition
  rw [hstamp]
  refine ⟨?_, ?_, fun habsent hclass hfree => ?_, fun m hm => ?_⟩
  · rw [State.settle_tru]
    exact u.handStamped_cond_self _ true _
  · rw [State.settle_tru, State.handStamped_filter]
    exact hfilter
  · have hself : (u.handStamped (inputSource n) true s.stamp).tru.latch[inputSource n] = some s.stamp := by
      rw [State.handStamped_latch, State.latchAfter_self _ (by rw [hcond]; exact habsent) (by rw [hcfg]; exact hclass),
        hlatch, hfree]
      rfl
    have hacts := State.handStamped_acts (s := u) (n := inputSource n) s.stamp (by rw [hcond]; exact habsent)
      (by rw [hcfg]; exact hclass) (by rw [hlatch]; exact hfree)
    refine ⟨by rw [State.settle_tru]; exact hself,
      hacts.of_same (State.settle_cfg _ _) (State.settle_tru _ _) (by rw [State.settle_flu]), ?_⟩
    refine (FlagsStay.refl _).arbitrate 0 (State.reportTrip_latch ?_ fun hsame => ?_)
    · rw [(State.handStamped_fr _ _ _ _).keeps_configured]
      exact hconf
    · rw [hsame, hfree] at hself
      cases hself
  · obtain ⟨hl, hk⟩ := u.handStamped_other true s.stamp hm
    rw [State.settle_tru, hl, hk, hcond, hlatch]
    exact ⟨rfl, rfl⟩

/-! ### The edges of a line (R89) -/

/-- The node with line `n` at a level. -/
def State.levelled (s : State) (n : Fin 8) (level : Bool) : State :=
  s.onTru fun t => { t with tiLevel := setAt t.tiLevel n level }

/-- A line that comes to read active starts its filter, or with filter time 0 hands over its condition (R89). -/
theorem State.tripLine_active {n : Fin 8} {level : Bool} (hc : s.configured = true) (hl : s.tru.tiLevel[n] ≠ level)
    (hr : s.readsActive n level = true) : s.tripLine n level =
      if s.cfg.tiFilter[n] = 0 then (s.levelled n level).handCondition (inputSource n) true
      else s.onTru fun t =>
        { t with tiLevel := setAt t.tiLevel n level, filter := setAt t.filter n (some s.now) } := by
  have hreads : (s.levelled n level).readsActive n (s.levelled n level).tru.tiLevel[n] = true := by
    rw [show (s.levelled n level).tru.tiLevel[n] = level from setAt_self _ n level]
    exact hr
  have hedge : s.tripLine n level = (s.levelled n level).startFilter n := by
    unfold State.tripLine
    rw [hc, decide_eq_true hl, if_pos (by rfl)]
    exact if_pos hr
  rw [hedge]
  unfold State.startFilter
  rw [if_pos hreads, ofNat_inputSource]
  rfl

/-- A line that comes to read inactive ends filter and condition (R89). -/
theorem State.tripLine_inactive {n : Fin 8} {level : Bool} (hc : s.configured = true) (hl : s.tru.tiLevel[n] ≠ level)
    (hr : s.readsActive n level = false) : s.tripLine n level = s.onTru fun t =>
      { t with tiLevel := setAt t.tiLevel n level, filter := setAt t.filter n none,
               cond := setAt t.cond (inputSource n) false } := by
  unfold State.tripLine
  rw [hc, decide_eq_true hl, if_pos (by rfl), if_neg (by rw [Bool.not_eq_true]; exact hr), ofNat_inputSource,
    State.handCondition_absent]
  rfl

/-- The filter of a line has run for its time (R89). -/
theorem State.filterDone_elapsed {n : Fin 8} {start : Nat} (hf : s.tru.filter[n] = some start)
    (h : s.cfg.tiFilter[n] * s.flu.interval ≤ (s.now - start) * 256) : s.filterDone n =
      (s.onTru fun t => { t with filter := setAt t.filter n none }).handCondition (inputSource n) true := by
  have hpassed : s.unitsPassed s.flu.interval start s.cfg.tiFilter[n] = true := decide_eq_true h
  unfold State.filterDone
  rw [hf]
  dsimp only
  rw [if_pos hpassed, ofNat_inputSource]

/-! ### The rows of a line's edges (R89) -/

theorem exec_lineActive {n : Fin 8} {level : Bool} (dt : Nat) (hr : s.readsActive n level = true) :
    exec (.tripInputActive dt n level) s = .next (State.settle (s.elapse dt) ((s.elapse dt).tripLine n level)) :=
  exec_event (fun u => if u.configured && !u.readsActive n level then u else u.tripLine n level)
    (if_neg (by rw [show (s.elapse dt).readsActive n level = true from hr]; simp))

theorem exec_lineInactive {n : Fin 8} {level : Bool} (dt : Nat) (hr : s.readsActive n level = false) :
    exec (.tripInputInactive dt n level) s = .next (State.settle (s.elapse dt) ((s.elapse dt).tripLine n level)) :=
  exec_event (fun u => if u.configured && u.readsActive n level then u else u.tripLine n level)
    (if_neg (by rw [show (s.elapse dt).readsActive n level = false from hr]; simp))

end

/-- Settles O58: the line's edges and the filter's end (`State.inputPresent_of_handed`). -/
theorem tripInputsAreFiltered : Obligations.TripInputsAreFiltered := by
  intro dt n s hs hc src present
  have hs' := hs.elapse dt
  have hpresent : ∀ (l : Vector Bool 8) (f : Vector (Option Nat) 8), f[n] = none →
      present (State.settle (s.elapse dt)
        (((s.elapse dt).onTru fun u => { u with tiLevel := l, filter := f }).handCondition src true)) := by
    intro l f hf
    have h := State.inputPresent_of_handed (s := s.elapse dt) (n := n) (l := l) hc hf
    exact ⟨h.cond, h.filter, h.latched, h.others,
      State.settled_only _ (((State.onTru_fr _ _).mono (qs := [.tru, .cmu, .flags])).comp (State.handCondition_fr _ _ _))⟩
  refine ⟨fun level hl hr => ?_, fun start hf ht => ?_, fun level hl hr => ?_⟩
  · have hexec := exec_lineActive dt hr
    rw [State.tripLine_active (s := s.elapse dt) hc hl hr] at hexec
    by_cases hz : s.cfg.tiFilter[n] = 0
    · rw [if_pos (by exact hz)] at hexec
      refine ⟨_, hexec, ?_, fun hne => absurd hz hne, fun _ hnone => hpresent _ s.tru.filter hnone⟩
      rw [State.settle_tru]
      exact State.handStamped_tiLevel _ _ true _
    · rw [if_neg (by exact hz), State.settle_unreported hs' ⟨_, _, _, rfl⟩] at hexec
      exact ⟨_, hexec, rfl, fun _ => ⟨rfl, State.effect_only _ (State.onTru_fr _ _)⟩, fun hz' => absurd hz' hz⟩
  · refine ⟨_, exec_event (c := .filterExpiry dt n) (fun u => u.filterDone n)
      (State.filterDone_elapsed (s := s.elapse dt) hf ht), ?_, hpresent s.tru.tiLevel _ (setAt_self _ n none)⟩
    rw [State.settle_tru]
    exact State.handStamped_tiLevel _ _ true _
  · have hexec := exec_lineInactive dt hr
    rw [State.tripLine_inactive (s := s.elapse dt) hc hl hr, State.settle_unreported hs' ⟨_, _, _, rfl⟩] at hexec
    exact ⟨_, hexec, rfl, State.effect_only _ (State.onTru_fr _ _)⟩

end Sys2Proof.Machine

/-! Proofs, section 52. Commit, withdraw and release (O52; R111, R112, R167): what each makes of its block, at the completion of
its single-beat write. -/

namespace Sys2Proof.Machine

set_option Elab.async false

section
variable {s x : State} {wa : Nat}

/-! ### The row of a single-beat write (log 5) -/

/-- The write to a word of the row's kind is the row's. -/
theorem State.CanWrite.writeIf {addr : BitVec 24} {id : Ident} {p : Ident → Bool} (h : s.CanWrite addr.toNat id)
    (hp : p id = true) (b : Beat) : s.writeIf p addr b = s.writeOne addr.toNat b := by
  refine if_pos ?_
  rw [h.names]
  exact hp

/-- A write that changes, beside memory and shadow, the Slot Unit or the Image Unit alone: the event ends as the write does, and
the word is captured. -/
theorem exec_captured {ps : List Part} {c : Instr} {dt : Nat} {addr : BitVec 24} {b : Beat} {id : Ident} (qs : List Part)
    (p : Ident → Bool) (h : s.CanWrite addr.toNat id) (hp : p id = true)
    (hx : (s.elapse dt).writeOne addr.toNat b = x) (hf : Frame ps ((s.elapse dt).written addr.toNat b) x)
    (units : within ps [.slu, .igu] = true := by rfl) (m : within ps qs = true := by rfl)
    (mw : within [.shadow, .mem] qs = true := by rfl) (mn : within [.now] qs = true := by rfl)
    (row : exec c s = s.event dt fun u => u.writeIf p addr b := by rfl) :
    exec c s = .next x ∧ Captured s x addr.toNat b ∧ OnlyTouches qs s x := by
  have h' := h.elapse dt
  have hunits := hf.mono (m := units)
  have hptu : x.ptu = ((s.elapse dt).written addr.toNat b).ptu := hunits.keeps_ptu
  refine ⟨exec_served (fun u => u.writeIf p addr b) ((h'.writeIf hp b).trans hx) h.quiet.served hunits.keeps_tru
    (congrArg Flu.position hunits.keeps_flu) hunits.keeps_lde (by rw [hptu]; rfl) row, ?_, ?_⟩
  · exact State.captured_of_written (s := s.elapse dt) h'.sound h.range b hunits.keeps_mem hunits.keeps_shadow
  · exact State.effect_only qs (((State.written_fr (s.elapse dt) addr.toNat b).mono (m := mw)).comp hf m) (within_refl qs) mn

/-! ### The commit (R111) -/

/-- A commit of an image to slot `n`: nothing of an UNUSED one (R111). -/
def Slu.commit (u : Slu) (n : Fin 128) (image : SlotImage) : Slu :=
  if u.publish[n] = .unused then u
  else { u with committed := setAt u.committed n image, publish := setAt u.publish n .live }

theorem Slu.commit_unused {u : Slu} {n : Fin 128} (image : SlotImage) (h : u.publish[n] = .unused) :
    u.commit n image = u := if_pos h

theorem Slu.commit_used {u : Slu} {n : Fin 128} (image : SlotImage) (h : u.publish[n] ≠ .unused) : u.commit n image =
    { u with committed := setAt u.committed n image, publish := setAt u.publish n .live } := if_neg h

theorem State.takeCommit_eq (s : State) (n : Fin 128) (wa : Nat) :
    s.takeCommit n wa = s.onSlu fun u => u.commit n (s.stagingAt wa) := by
  unfold State.takeCommit State.onSlu
  split
  · rename_i h
    dsimp only
    rw [Slu.commit_unused _ h]
  · rename_i h
    dsimp only
    rw [Slu.commit_used _ h]

/-- A write to word 3 of a slot image: memory and shadow take it, and the staged words are committed. -/
theorem State.writeOne_commit {n : Fin 128} (b : Beat) (h : s.CanWrite wa (.slotWord n 3)) :
    s.writeOne wa b = (s.written wa b).takeCommit n wa := by
  obtain ⟨-, q, hwa, hn⟩ := h
  have ⟨qh, _, _, qc, qb⟩ := q
  have hid : (s.beatAt wa b).id = .slotWord n 3 := hn
  have hreach : (s.identOf wa).reaches true = true := by
    rw [hn]
    rfl
  have hbusy : s.busy.writeBeat (s.beatAt wa b) = (s.busy.written wa b).takeCommit n wa := by
    unfold State.writeBeat State.ownerBeat
    rw [hid]
    rfl
  rw [State.takeCommit_eq] at hbusy ⊢
  rw [State.writeOne_ends b q hwa hreach hbusy rfl qb]
  have hptu : ({ (s.written wa b).ptu with cycle := none } : Ptu) = (s.written wa b).ptu := by
    rw [← qc]
    rfl
  have hlde : ({ s.lde with holder := .free } : Lde) = s.lde := by rw [← qh]
  exact congrArg₂ (fun p q => ({ (s.written wa b).onSlu fun u => u.commit n ((s.written wa b).stagingAt wa) with
    ptu := p, lde := q } : State)) hptu hlde

/-! ### The withdraw (R112) -/

theorem State.takeBeat_withdraw {y : PBeat} {first count : Nat} (h : y.id = .withdraw first count) :
    s.takeBeat y = s.takeWithdraw first count (s.shadowAt y.addr) := by
  unfold State.takeBeat
  rw [h]

/-- A withdraw of a slot of its window that is not UNUSED takes that slot, and any other none (R112). -/
theorem State.takeWithdraw_publish (s : State) (first count : Nat) (w : Word) (n : Fin 128) :
    (s.takeWithdraw first count w).slu.publish[n] =
      if n.val = w.toNat % 256 ∧ first ≤ w.toNat % 256 ∧ w.toNat % 256 < first + count ∧ s.slu.publish[n] ≠ .unused
      then .withdrawn else s.slu.publish[n] := by
  have hbits : bits w 0 8 = w.toNat % 256 := by simp [bits]
  unfold State.takeWithdraw
  rw [hbits]
  generalize w.toNat % 256 = m
  have hother : n.val ≠ m → ¬(n.val = m ∧ first ≤ m ∧ m < first + count ∧ s.slu.publish[n] ≠ .unused) :=
    fun hne k => hne k.1
  dsimp only
  by_cases hm : m < 128
  · rw [dif_pos hm]
    by_cases hn : n = ⟨m, hm⟩
    · subst hn
      by_cases hw : first ≤ m ∧ m < first + count ∧ s.slu.publish[m] ≠ .unused
      · rw [if_pos hw, if_pos ⟨rfl, hw⟩]
        exact setAt_self _ _ _
      · rw [if_neg hw, if_neg fun k => hw k.2]
    · rw [if_neg (hother fun k => hn (Fin.ext k))]
      split
      · exact setAt_other _ _ hn
      · rfl
  · rw [dif_neg hm, if_neg (hother fun k => hm (k ▸ n.isLt))]

/-- A withdraw changes of the Slot Unit the publish states alone. -/
theorem State.takeWithdraw_slu (s : State) (first count : Nat) (w : Word) :
    (s.takeWithdraw first count w).slu = { s.slu with publish := (s.takeWithdraw first count w).slu.publish } := by
  unfold State.takeWithdraw
  dsimp only
  split
  · split <;> rfl
  · rfl

/-! ### The release (R167) -/

theorem State.takeBeat_release {y : PBeat} {st : Fin 4} {k : Fin 16} (h : y.id = .release st k) :
    s.takeBeat y = s.takeRelease st k := by
  unfold State.takeBeat
  rw [h]

end

/-- Settles O52: a commit by `State.writeOne_commit`, withdraw and release at the completion of their cycle. -/
theorem slotAndBufferCommandsTakeEffect : Obligations.SlotAndBufferCommandsTakeEffect := by
  intro dt addr b s
  have taken : ∀ {id : Ident}, s.CanWrite addr.toNat id → id.isTaken = true → (s.elapse dt).writeOne addr.toNat b =
      ((s.elapse dt).written addr.toNat b).takeBeat ((s.elapse dt).beatAt addr.toNat b) := fun h ht =>
    State.writeOne_takes b (h.elapse dt).quiet h.range (by rw [(h.elapse dt).names]; exact ht)
  refine ⟨fun n h => ?_, fun first count h => ?_, fun st k h => ?_⟩
  · have hone := State.writeOne_commit b (h.elapse dt)
    have hslu := congrArg State.slu (State.takeCommit_eq ((s.elapse dt).written addr.toNat b) n addr.toNat)
    have hfr := State.takeCommit_fr ((s.elapse dt).written addr.toNat b) n addr.toNat
    generalize ((s.elapse dt).written addr.toNat b).takeCommit n addr.toNat = x at hone hslu hfr
    obtain ⟨hexec, hcap, honly⟩ := exec_captured (c := .commit dt addr b) [.now, .slu, .shadow, .mem]
      Ident.isCommit h rfl hone hfr
    refine ⟨x, hexec, fun hu => ?_, fun hu => ?_, hcap, honly⟩
    · exact hslu.trans (Slu.commit_unused (u := s.slu) _ hu)
    · have hstaged : ∀ a, ((s.elapse dt).written addr.toNat b).shadowAt a = x.shadowAt a := fun a => by
        unfold State.shadowAt
        rw [hfr.keeps_shadow]
      rw [hslu.trans (Slu.commit_used (u := s.slu) _ hu)]
      refine ⟨rfl, fun i => ?_, fun m hm => setAt_other _ _ hm, rfl, rfl, rfl⟩
      rw [setAt_self, ← hstaged]
      exact Vector.getElem_ofFn _
  · have hone := (taken h rfl).trans (State.takeBeat_withdraw h.names)
    rw [show ((s.elapse dt).beatAt addr.toNat b).addr = addr.toNat from rfl,
      State.written_shadow (h.elapse dt).sound] at hone
    obtain ⟨hexec, hcap, honly⟩ := exec_captured (c := .withdraw dt addr b) [.now, .slu, .shadow, .mem]
      Ident.isWithdraw h rfl hone (State.takeWithdraw_fr ..)
    exact ⟨_, hexec, State.takeWithdraw_publish _ _ _ _, State.takeWithdraw_slu _ _ _ _, hcap, honly⟩
  · have hone := (taken h rfl).trans (State.takeBeat_release h.names)
    obtain ⟨hexec, hcap, honly⟩ := exec_captured (c := .release dt addr b) [.now, .igu, .shadow, .mem]
      Ident.isRelease h rfl hone (State.takeRelease_fr ..)
    exact ⟨_, hexec, rfl, rfl, hcap, honly⟩

end Sys2Proof.Machine

/-! Proofs, section 53. Ageing (O39; R121): what an epoch makes of one entry, and that nothing else of the epoch touches the Slot
Unit. -/

namespace Sys2Proof.Machine

set_option Elab.async false

section
variable {s : State} {i k : Fin 8} {w : Window} {es : List (Fin 128)} {lim : Nat} {trip : Bool}

/-! ### One window (R121) -/

/-- The entry whose age comes to the limit is stale (R121). -/
theorem SlotEntry.aged_limit {e : SlotEntry} (hm : e.mark = false) (ha : e.age + 1 = lim) (hl : lim ≤ 255) :
    e.aged lim = { e with age := lim, stale := true } := by
  unfold SlotEntry.aged
  rw [hm, if_neg (by decide), ha, min_eq_right hl]
  simp

/-- Ageing changes of the Slot Unit the entries alone. -/
theorem State.ageWindow_rest (s : State) (i : Fin 8) (x : Vector (Vector SlotEntry 8) 8) :
    { (s.ageWindow i).slu with entries := x } = { s.slu with entries := x } := by
  unfold State.ageWindow
  split
  · dsimp only
    rw [(State.requestUrgent_fr _ _ _).keeps_slu, State.notifyIf_slu]
    rfl
  · rfl

/-- A window's ageing leaves the entries of the others. -/
theorem State.ageWindow_other (s : State) {j : Fin 8} (h : i ≠ j) : (s.ageWindow j).slu.entries[i] = s.slu.entries[i] := by
  unfold State.ageWindow
  split
  · dsimp only
    rw [(State.requestUrgent_fr _ _ _).keeps_slu, State.notifyIf_slu]
    exact modAt_other _ _ h
  · rfl

/-- Every entry of a window ages once. -/
theorem State.ageWindow_entry (hw : s.cfg.slotIn i = some (w, es, lim, trip)) (hk : k.val < es.length) :
    (s.ageWindow i).slu.entries[i][k] = s.slu.entries[i][k].aged lim := by
  unfold State.ageWindow
  rw [hw]
  dsimp only
  rw [(State.requestUrgent_fr _ _ _).keeps_slu, State.notifyIf_slu, State.onSlu_slu]
  dsimp only
  rw [modAt_self]
  obtain ⟨row, hrow, haged⟩ := foldl_once (fun (row : Vector SlotEntry 8) k => modAt row k fun e => e.aged lim)
    (fun row => row[k]) ((List.nodup_finRange 8).filter fun k => decide (k.val < es.length))
    (List.mem_filter.2 ⟨List.mem_finRange k, decide_eq_true hk⟩) (fun u j hj => modAt_other u _ (Ne.symm hj))
    s.slu.entries[i]
  rw [haged, modAt_self, hrow]

/-- An entry that becomes stale is reported with flag 2 (R121). -/
theorem State.ageWindow_flag (hw : s.cfg.slotIn i = some (w, es, lim, trip)) (hk : k.val < es.length)
    (hfresh : s.slu.entries[i][k].stale = false) (hstale : (s.slu.entries[i][k].aged lim).stale = true) :
    (s.ageWindow i).cnu.flags.getLsbD 2 = true := by
  have hnewly : k ∈ (((List.finRange 8).filter fun k => decide (k.val < es.length)).filter fun k =>
      (s.slu.entries[i][k].aged lim).stale && !s.slu.entries[i][k].stale) :=
    List.mem_filter.2 ⟨List.mem_filter.2 ⟨List.mem_finRange k, decide_eq_true hk⟩, by
      rw [hstale, hfresh]
      rfl⟩
  unfold State.ageWindow
  rw [hw]
  dsimp only
  rw [(State.requestUrgent_fr _ _ _).keeps_flags, List.isEmpty_eq_false_iff.2 (List.ne_nil_of_mem hnewly)]
  exact State.notify_self _ 2

/-! ### The unit's epoch work (R121, R122) -/

theorem State.sluEpoch_slu (s : State) : s.sluEpoch.slu = ((List.finRange 8).foldl State.ageWindow s).slu :=
  (State.handStale_fr _ _).keeps_slu

theorem State.sluEpoch_rest (s : State) (x : Vector (Vector SlotEntry 8) 8) :
    { s.sluEpoch.slu with entries := x } = { s.slu with entries := x } := by
  rw [State.sluEpoch_slu]
  exact foldl_keeps _ (fun u : State => ({ u.slu with entries := x } : Slu)) _ (fun u j _ => u.ageWindow_rest j x) s

/-- Where window `i` ages, its entries are as they were, and what its ageing reports stays reported. -/
theorem State.sluEpoch_turn (s : State) (i : Fin 8) : ∃ v : State, v.cfg = s.cfg ∧ v.slu.entries[i] = s.slu.entries[i] ∧
    s.sluEpoch.slu.entries[i] = (v.ageWindow i).slu.entries[i] ∧ FlagsStay (v.ageWindow i) s.sluEpoch := by
  have hkeeps : ∀ (l : List (Fin 8)), i ∉ l → ∀ u : State, (l.foldl State.ageWindow u).slu.entries[i] = u.slu.entries[i] :=
    fun l hi u => foldl_keeps _ (fun u : State => u.slu.entries[i]) l
      (fun u _ hj => u.ageWindow_other fun e => hi (e ▸ hj)) u
  obtain ⟨before, after, hsplit⟩ := List.append_of_mem (List.mem_finRange i)
  have hothers : i ∉ before ++ after := by
    have hn := List.nodup_finRange 8
    rw [hsplit, List.nodup_middle] at hn
    exact (List.nodup_cons.1 hn).1
  rw [List.mem_append, not_or] at hothers
  obtain ⟨hbefore, hafter⟩ := hothers
  have hfold : (List.finRange 8).foldl State.ageWindow s =
      after.foldl State.ageWindow ((before.foldl State.ageWindow s).ageWindow i) := by
    rw [hsplit, List.foldl_append, List.foldl_cons]
  refine ⟨before.foldl State.ageWindow s, ?_, hkeeps before hbefore s, ?_, ?_⟩
  · exact foldl_keeps _ State.cfg _ (fun u j _ => (u.ageWindow_fr j).keeps_cfg) s
  · rw [State.sluEpoch_slu, hfold, hkeeps after hafter]
  · unfold State.sluEpoch
    rw [hfold]
    exact (FlagsStay.foldl _ (fun u j => (FlagsStay.refl u).ageWindow j) after (.refl _)).handStale s

/-- The entry that comes to its limit is stale behind the unit's epoch work, with flag 2 (R121). -/
theorem State.sluEpoch_limit (hw : s.cfg.slotIn i = some (w, es, lim, trip)) (hk : k.val < es.length)
    (hm : s.slu.entries[i][k].mark = false) (hs : s.slu.entries[i][k].stale = false)
    (ha : s.slu.entries[i][k].age + 1 = lim) (hl : lim ≤ 255) :
    s.sluEpoch.slu.entries[i][k] = { s.slu.entries[i][k] with age := lim, stale := true } ∧
      s.sluEpoch.cnu.flags.getLsbD 2 = true := by
  obtain ⟨v, hcfg, hold, hnew, hflags⟩ := s.sluEpoch_turn i
  rw [← hcfg] at hw
  rw [← hold] at hm hs ha ⊢
  have haged := SlotEntry.aged_limit hm ha hl
  exact ⟨by rw [hnew, State.ageWindow_entry hw hk, haged], hflags 2 (State.ageWindow_flag hw hk hs (by rw [haged]))⟩

/-! ### The epoch (log 4) -/

theorem State.aged_true (s : State) : s.aged true = s.sluEpoch := if_pos rfl
theorem State.aged_false (s : State) : s.aged false = s := if_neg (by decide)

/-- From the line shaft's work to that of the axes nothing touches the Slot Unit. -/
theorem State.axesDone_aged (s : State) (a : Bool) (hdr : Option HeaderShaft) (mark : Bool) :
    Frame [.lsu, .axu, .tru, .flags, .ptu, .lde] (s.aged a) (s.axesDone a hdr mark) ∧
      FlagsStay (s.aged a) (s.axesDone a hdr mark) := by
  rw [State.axesDone_eq]
  exact ⟨(((State.lsuEpoch_fr _ hdr mark).mono).comp (State.truEpoch_fr _)).comp (State.axuEpoch_fr _ _ _),
    (((FlagsStay.refl _).lsuEpoch hdr mark).frame (State.truEpoch_fr _)).axuEpoch _ _⟩

/-- Behind the channels the slots age, if they have not before (log 6). -/
theorem State.channelsDone_aged (d : State) (a x mark : Bool) : ∃ y, Frame [.tru, .cmu, .flags] d y ∧ FlagsStay d y ∧
    d.channelsDone a x mark = y.aged (!a) := by
  refine ⟨if x then d.handSourceLost.cmuEpoch mark else (d.cmuEpoch mark).handSourceLost, ?_, ?_, ?_⟩
  · exact Frame.ite (((State.handSourceLost_fr _).mono).comp (State.cmuEpoch_fr _ _))
      (((State.cmuEpoch_fr _ _).mono).comp (State.handSourceLost_fr _))
  · exact FlagsStay.ite ((FlagsStay.refl d).handSourceLost.cmuEpoch mark) ((FlagsStay.refl d).cmuEpoch mark).handSourceLost
  · cases a <;> rfl

/-- Of an epoch that is due from a header the ageing alone touches the Slot Unit, before the blocks' work or after it (log 6). -/
theorem State.dueEpoch_ages {dt : Nat} {e : PendingEntry} (h : s.HeaderEpochDue dt e) : ∃ y : State, y.cfg = s.cfg ∧
    y.slu = s.slu ∧ (s.elapse dt).dueEpoch.slu = y.sluEpoch.slu ∧ FlagsStay y.sluEpoch (s.elapse dt).dueEpoch := by
  have hfront := s.dueFront_fr dt e
  obtain ⟨a, x, hall⟩ := State.dueEpoch_stages h
  obtain ⟨hblocks, hblockFlags⟩ := State.axesDone_aged (s.dueFront dt e) a (some e.shaft) s.flu.resyncArmed
  obtain ⟨y, hy, hyFlags, hchannels⟩ := State.channelsDone_aged
    ((s.dueFront dt e).axesDone a (some e.shaft) s.flu.resyncArmed) a x s.flu.resyncArmed
  have hlast : Frame [.igu, .scu, .flags, .lde] (y.aged (!a)) (s.elapse dt).dueEpoch ∧
      FlagsStay (y.aged (!a)) (s.elapse dt).dueEpoch := by
    rw [hall, hchannels]
    exact ⟨((State.iguEpoch_fr _).mono).comp (State.scuEpoch_fr _), ((FlagsStay.refl _).iguEpoch).scuEpoch⟩
  obtain ⟨hrest, hrestFlags⟩ := hlast
  cases a with
  | true =>
    rw [State.aged_true] at hblocks hblockFlags
    rw [Bool.not_true, State.aged_false] at hrest hrestFlags
    exact ⟨s.dueFront dt e, hfront.keeps_cfg, hfront.keeps_slu,
      hrest.keeps_slu.trans (hy.keeps_slu.trans hblocks.keeps_slu), hblockFlags.trans (hyFlags.trans hrestFlags)⟩
  | false =>
    rw [State.aged_false] at hblocks
    rw [Bool.not_false, State.aged_true] at hrest hrestFlags
    exact ⟨y, hy.keeps_cfg.trans (hblocks.keeps_cfg.trans hfront.keeps_cfg),
      hy.keeps_slu.trans (hblocks.keeps_slu.trans hfront.keeps_slu), hrest.keeps_slu, hrestFlags⟩

end

/-- Settles O39: `State.sluEpoch_limit` in the epoch that is due (`State.dueEpoch_ages`). -/
theorem ageToTheLimitIsStale : Obligations.AgeToTheLimitIsStale := by
  intro dt i k e w es lim trip s h hw hk hm hs ha hl
  obtain ⟨y, hcfg, hsame, hslu, hflags⟩ := State.dueEpoch_ages h
  obtain ⟨hentry, hflag⟩ := State.sluEpoch_limit (s := y) (i := i) (k := k) (by rw [hcfg]; exact hw) hk
    (by rw [hsame]; exact hm) (by rw [hsame]; exact hs) (by rw [hsame]; exact ha) hl
  rw [← hslu, hsame] at hentry
  have hrest := y.sluEpoch_rest s.slu.entries
  rw [← hslu, hsame, Slu.mk.injEq] at hrest
  obtain ⟨hpublish, hcommitted, hconflicts, -, -⟩ := hrest
  have houtcome : goesStale i k (s.elapse dt) (s.elapse dt).dueEpoch = true := by
    unfold goesStale
    rw [hentry, State.elapse_slu, hs]
    rfl
  refine ⟨_, exec_epochOutcome houtcome, ?_⟩
  rw [State.settle_slu]
  exact ⟨hentry, (hflags.settle _) 2 hflag, hpublish, hcommitted, hconflicts, s.dueEpoch_only dt⟩

end Sys2Proof.Machine

/-! Proofs, section 54. The insertion passage (O24; R113 to R115): the tag block and the slots that leave, and the conflicts. -/

namespace Sys2Proof.Machine

set_option Elab.async false

section
variable {s : State} {bs : List Byte}

/-! ### A block's bytes (R5) -/

theorem blockBytes_eq_some {b : Block} (h : blockBytes b = some bs) : b = bs.map some := by
  induction b generalizing bs with
  | nil => cases h; rfl
  | cons x b ih =>
    cases x with
    | none => cases h
    | some x =>
      obtain ⟨r, hr, rfl⟩ := Option.map_eq_some_iff.1 h
      rw [ih hr, List.map_cons]

/-- A block that is good came whole. -/
theorem goodBytes_eq_some {n : Nat} {b : Block} (h : goodBytes n b = some bs) : b = bs.map some := by
  unfold goodBytes at h
  split at h
  · rename_i r hr
    split at h
    · cases h
      exact blockBytes_eq_some hr
    · cases h
  · cases h

/-! ### The tags (R113) -/

theorem byteAt_append {i : Nat} (l r : List Byte) (h : i < l.length) : byteAt (l ++ r) i = byteAt l i := by
  unfold byteAt
  rw [List.getD_append _ _ _ _ h]

theorem byteAt_take {i n : Nat} (l : List Byte) (h : i < n) : byteAt (l.take n) i = byteAt l i := by
  unfold byteAt
  rw [List.getD_eq_getElem?_getD, List.getD_eq_getElem?_getD, List.getElem?_take_of_lt h]

/-- The bit of slot `n` in its tag byte once the tags of `l` are set there. -/
theorem getLsbD_setTags (n : Fin 128) (l : List (Fin 128)) (b : Byte) :
    (l.foldl (fun b m => if m.val / 8 = n.val / 8 then b ||| (1#8 <<< (m.val % 8)) else b) b).getLsbD (n.val % 8) =
      (b.getLsbD (n.val % 8) || decide (n ∈ l)) := by
  induction l generalizing b with
  | nil => simp
  | cons m l ih =>
    have hset : (if m.val / 8 = n.val / 8 then b ||| (1#8 <<< (m.val % 8)) else b).getLsbD (n.val % 8) =
        (b.getLsbD (n.val % 8) || decide (n = m)) := by
      by_cases hnm : n = m
      · subst hnm
        have hlt : n.val % 8 < 8 := Nat.mod_lt _ (by decide)
        simp [hlt]
      · rw [decide_eq_false hnm, Bool.or_false]
        split
        · have hbit : m.val % 8 ≠ n.val % 8 := fun e => hnm (Fin.ext (by omega))
          rw [BitVec.getLsbD_or, ← BitVec.twoPow_eq, BitVec.getLsbD_twoPow, decide_eq_false hbit, Bool.and_false,
            Bool.or_false]
        · rfl
    rw [List.foldl_cons, ih, hset, Bool.or_assoc]
    simp

/-- The tags of a tag block in which those of `l` are set (R113). -/
theorem tagBit_withTags (bs c : List Byte) (l : List (Fin 128)) (n : Fin 128) :
    tagBit (withTags bs l ++ c) n = (tagBit bs n || decide (n ∈ l)) := by
  have hlt : n.val / 8 < 16 := by omega
  have hbyte : byteAt (withTags bs l ++ c) (n.val / 8) = l.foldl
      (fun b m => if m.val / 8 = n.val / 8 then b ||| (1#8 <<< (m.val % 8)) else b) (byteAt bs (n.val / 8)) := by
    rw [byteAt_append _ _ (by simpa [withTags] using hlt)]
    unfold byteAt withTags
    rw [List.getD_eq_getElem?_getD, List.getElem?_map, List.getElem?_range hlt]
    rfl
  unfold tagBit
  rw [hbyte, getLsbD_setTags]

theorem tagBit_take (bs : List Byte) (n : Fin 128) : tagBit (bs.take 16) n = tagBit bs n := by
  unfold tagBit
  rw [byteAt_take bs (by omega)]

/-- The tag block leaves good, with the tags of the inserted slots set as well (R113). -/
theorem passTags_good {tags : Block} (h : goodBytes 18 tags = some bs) (l : List (Fin 128)) :
    ∃ bs1, goodBytes 18 (passTags bs l) = some bs1 ∧ ∀ n, tagBit bs1 n = (tagBit bs n || decide (n ∈ l)) := by
  unfold passTags
  split
  · rename_i hl
    rw [List.isEmpty_iff.1 hl, ← goodBytes_eq_some h]
    exact ⟨bs, h, fun n => by simp⟩
  · refine ⟨_, goodBytes_sealed _ (by simp [withTags]), fun n => ?_⟩
    rw [tagBit_withTags, tagBit_take]

/-! ### The decision (R113, R115) -/

theorem State.mem_liveSlots {n : Fin 128} : n ∈ s.liveSlots ↔ s.slu.publish[n] = .live := by
  simp [State.liveSlots]

/-- The slots to insert: LIVE ones whose tag arrived clear (R113). -/
theorem State.mem_decideSlots {n : Fin 128} :
    n ∈ (s.decideSlots bs).2 ↔ s.slu.publish[n] = .live ∧ tagBit bs n = false := by
  have hinserted : (s.decideSlots bs).2 = s.liveSlots.filter fun n => !tagBit bs n := by
    unfold State.decideSlots
    dsimp only
    split <;> rfl
  rw [hinserted, List.mem_filter, State.mem_liveSlots, Bool.not_eq_true']

theorem State.decideSlots_inserts (s : State) (bs : List Byte) (n : Fin 128) :
    decide (n ∈ (s.decideSlots bs).2) = (decide (s.slu.publish[n] = .live) && !tagBit bs n) := by
  rw [← Bool.decide_eq_true (b := !tagBit bs n), ← Bool.decide_and]
  exact decide_eq_decide.2 (by rw [State.mem_decideSlots, Bool.not_eq_true'])

/-- The conflict set with the slots of `l` in it. -/
theorem getLsbD_marks (n : Fin 128) (l : List (Fin 128)) (u : BitVec 128) :
    (l.foldl (fun u m => u ||| (1#128 <<< m.val)) u).getLsbD n.val = (u.getLsbD n.val || decide (n ∈ l)) := by
  induction l generalizing u with
  | nil => simp
  | cons m l ih =>
    have hset : (1#128 <<< m.val).getLsbD n.val = decide (n = m) := by
      rw [← BitVec.twoPow_eq, BitVec.getLsbD_twoPow, decide_eq_true m.isLt, Bool.true_and]
      exact decide_eq_decide.2 (by rw [Fin.ext_iff, eq_comm])
    rw [List.foldl_cons, ih, BitVec.getLsbD_or, hset, Bool.or_assoc]
    simp

/-- The decision changes of the Slot Unit the conflicts alone: the LIVE slots whose tag arrived set enter them (R115). -/
theorem State.decideSlots_slu (s : State) (bs : List Byte) : (s.decideSlots bs).1.slu = { s.slu with
    conflicts := (s.liveSlots.filter fun n => tagBit bs n).foldl (fun u m => u ||| (1#128 <<< m.val)) s.slu.conflicts } := by
  unfold State.decideSlots
  dsimp only
  split
  · rename_i hnone
    rw [(State.handCondition_fr _ _ _).keeps_slu, List.isEmpty_iff.1 hnone]
    rfl
  · rw [(State.handCondition_fr _ _ _).keeps_slu, State.notify_slu]
    rfl

theorem State.decideSlots_conflicts (s : State) (bs : List Byte) (n : Fin 128) :
    (s.decideSlots bs).1.slu.conflicts.getLsbD n.val =
      (s.slu.conflicts.getLsbD n.val || (decide (s.slu.publish[n] = .live) && tagBit bs n)) := by
  rw [State.decideSlots_slu]
  dsimp only
  rw [getLsbD_marks, ← Bool.decide_eq_true (b := tagBit bs n), ← Bool.decide_and]
  exact congrArg _ (decide_eq_decide.2 (by rw [List.mem_filter, State.mem_liveSlots]))

/-- A conflict is reported with flag 3 (R115). -/
theorem State.decideSlots_flag {n : Fin 128} (hn : s.slu.publish[n] = .live) (ht : tagBit bs n = true) :
    (s.decideSlots bs).1.cnu.flags.getLsbD 3 = true := by
  have hmem : n ∈ s.liveSlots.filter fun n => tagBit bs n := List.mem_filter.2 ⟨State.mem_liveSlots.2 hn, ht⟩
  unfold State.decideSlots
  dsimp only
  rw [if_neg (by simpa using List.ne_nil_of_mem hmem)]
  exact (FlagsStay.refl _).handCondition 13 true 3 (State.notify_self _ 3)

/-! ### The slot area (R113, R114) -/

theorem State.passSlots_congr {t : State} (hslu : t.slu.committed = s.slu.committed) (hflu : t.flu = s.flu)
    (l : List (Fin 128)) (slots : List Block) : t.passSlots l slots = s.passSlots l slots := by
  unfold State.passSlots State.passSlot State.ownPosition
  rw [hslu, hflu]

/-- Slot `n` of a whole area as it passes. -/
theorem State.passSlots_get (s : State) (l : List (Fin 128)) {slots : List Block} (h : slots.length = 128) (n : Fin 128) :
    (s.passSlots l slots)[n.val]? = (slots[n.val]?).map fun b => s.passSlot l n b := by
  have hn : n.val < slots.length := by omega
  unfold State.passSlots
  rw [List.getElem?_map, List.getElem?_eq_getElem hn, List.getElem?_eq_getElem (by simp [h])]
  simp

/-- An insertion passage: the tag block and the slots that leave, behind the decision (R113). -/
theorem State.outSlots_inserts {tags : Block} (slots : List Block) (hst : s.flu.out.stage = .tags)
    (hg : goodBytes 18 tags = some bs) (hs : s.sends = true) : s.outSlots tags slots =
      (s.decideSlots bs).1.onFlu fun u => { u with
        out := { u.out with stage := .cells, next := 0 },
        txDown := { u.txDown with
          tags := passTags bs (s.decideSlots bs).2, slots := s.passSlots (s.decideSlots bs).2 slots } } := by
  have hpass := State.passSlots_congr (s := s) (t := (s.decideSlots bs).1) (by rw [State.decideSlots_slu])
    (State.decideSlots_flu s bs) (s.decideSlots bs).2 slots
  unfold State.outSlots
  rw [if_neg (not_not.2 hst), hg]
  dsimp only
  rw [if_pos hs]
  dsimp only
  rw [hpass]

end

/-- Settles O24: `State.outSlots_inserts`, with what `State.decideSlots` decides. -/
theorem liveSlotsAreInserted : Obligations.LiveSlotsAreInserted := by
  intro dt tags bs slots s wf hsends hst hg hlen
  have heq := State.outSlots_inserts (s := s.elapse dt) slots hst hg hsends
  have hfr := (s.elapse dt).outSlots_fr tags slots
  rw [heq] at hfr
  have hmem : ∀ n, n ∈ ((s.elapse dt).decideSlots bs).2 ↔ s.slu.publish[n] = .live ∧ tagBit bs n = false := fun _ =>
    State.mem_decideSlots
  have hslu := (s.elapse dt).decideSlots_slu bs
  refine ⟨_, exec_checked (fun u => u.outSlots tags slots) wf heq, ?_⟩
  rw [State.settle_flu, State.settle_slu, State.onFlu_flu, State.onFlu_slu, State.decideSlots_flu]
  refine ⟨fun n => ?_, fun n => State.decideSlots_conflicts _ bs n, ?_, fun hall => ?_, by rw [hslu]; rfl, by rw [hslu]; rfl,
    by rw [hslu]; rfl, rfl, rfl, rfl, rfl, fun ⟨n, hn, ht⟩ => ?_, State.settled_only _ hfr⟩
  · refine (State.passSlots_get _ _ hlen n).trans (congrArg (fun f => (slots[n.val]?).map f) (funext fun b => ?_))
    unfold State.passSlot
    simp only [List.contains_iff_mem, hmem]
    rfl
  · obtain ⟨bs1, hgood, htags⟩ := passTags_good hg ((s.elapse dt).decideSlots bs).2
    refine ⟨bs1, hgood, fun n => ?_⟩
    rw [htags, State.decideSlots_inserts, State.elapse_slu]
    cases tagBit bs n <;> simp
  · have hnone : ((s.elapse dt).decideSlots bs).2 = [] := List.eq_nil_iff_forall_not_mem.2 fun n hn => by
      obtain ⟨hlive, hclear⟩ := (hmem n).1 hn
      rw [hall n hlive] at hclear
      cases hclear
    show passTags bs ((s.elapse dt).decideSlots bs).2 = tags
    rw [hnone]
    exact (goodBytes_eq_some hg).symm
  · exact (FlagsStay.refl _).settle _ 3 (State.decideSlots_flag (s := s.elapse dt) hn ht)

end Sys2Proof.Machine

/-! Proofs, section 55. The end of a claim passage (O26; R133): cell starvation. -/

namespace Sys2Proof.Machine

set_option Elab.async false

section
variable {s : State}

theorem State.notifyIf_flags (b : Bool) (n : Nat) :
    (s.notifyIf b n).cnu.flags = if b = true then withFlags s.cnu.flags [n] else s.cnu.flags := by
  cases b <;> rfl

/-- Flag 12 marks an item that stays behind under an allowance not yet used up (R133). -/
theorem State.endClaims_flags : s.endClaims.cnu.flags =
    if s.cls.claimed < s.cfg.allowance ∧ s.nextItem.isSome = true then withFlags s.cnu.flags [12] else s.cnu.flags := by
  unfold State.endClaims
  simp only [State.notifyIf_flags, Bool.and_eq_true, decide_eq_true_eq]

/-- A frame that ends in its cell area judges the claims of a passage in which the node sends (R129, R133). -/
theorem State.endOut_flags (hst : s.flu.out.stage = .cells) : s.endOut.cnu.flags =
    if s.sends = true ∧ s.cls.claimed < s.cfg.allowance ∧ s.nextItem.isSome = true then withFlags s.cnu.flags [12]
    else s.cnu.flags := by
  unfold State.endOut
  by_cases hs : s.sends = true
  · rw [if_pos ⟨hst, hs⟩]
    simp only [hs, true_and]
    exact State.endClaims_flags
  · rw [if_neg fun h => hs h.2, if_neg fun h => hs h.1]
    rfl

theorem State.outEnd_whole (hst : s.flu.out.stage = .cells) (hn : s.flu.out.next = 96) : s.outEnd = s.endOut :=
  if_pos ⟨hst, hn⟩

end

/-- Settles O26: at the whole cell area the event is `State.endOut`, and nothing of it concerns the trip report or the
arbiter. -/
theorem claimPassageEndReportsStarvation : Obligations.ClaimPassageEndReportsStarvation := by
  intro dt s hs hst hn
  have hflu := State.endOut_flu (s := s.elapse dt)
  have hfr := (s.elapse dt).endOut_fr
  have hexec := exec_event (c := .claimPassageEnd dt) State.outEnd (State.outEnd_whole (s := s.elapse dt) hst hn)
  rw [State.settle_flu_only hs hfr (by rw [hflu]; rfl)] at hexec
  exact ⟨_, hexec, hflu, State.endOut_flags hst, State.effect_only _ hfr⟩

end Sys2Proof.Machine

/-! Proofs, section 56. The camera lines (O59; R145, R147, R148): the two edges of EXP, a firing that is due, and the end of
its pulse. -/

namespace Sys2Proof.Machine

set_option Elab.async false

section
variable {s : State} {n : Fin 4} {level : Bool}

/-! ### A channel's changes -/

theorem State.onChannel_onChannel (f g : Channel → Channel) :
    (s.onChannel n f).onChannel n g = s.onChannel n fun c => g (f c) := by
  have hch : modAt (modAt s.cmu.ch n f) n g = modAt s.cmu.ch n fun c => g (f c) := by
    conv_lhs => rw [modAt, modAt_self]
    exact Vector.set_set ..
  exact congrArg (fun v => s.onCmu fun u => { u with ch := v }) hch

/-- A row of the camera lines at a node with nothing to grant completes with its effect on the channels and the flags. -/
theorem exec_camera {v : State} {c : Instr} {dt : Nat} (f : State → State) (hs : s.Served) (h : f (s.elapse dt) = v)
    (hf : Frame [.cmu, .flags] (s.elapse dt) v) (row : exec c s = s.event dt f := by rfl) : exec c s = .next v := by
  rw [exec_event f h row, State.settle_id (hs.elapse dt) hf.keeps_tru (congrArg Flu.position hf.keeps_flu) hf.keeps_lde
    (congrArg Ptu.cycle hf.keeps_ptu)]

/-! ### The edges of EXP (R147, R148) -/

/-- The exposure that a leading edge stores in channel `c`, which it overruns where one is stored already. -/
def State.exposed (s : State) (c : Channel) : Channel :=
  { c with overrun := c.overrun || c.exposure.isSome,
           exposure := some { stamp := s.stamp, ref := s.liveReference c, count := c.count } }

/-- A leading edge at line level `level` exposes the channel, with flag 13 where that overruns an exposure. -/
theorem State.expLine_leading {cam : CamCfg} (hc : s.configured = true) (hcam : s.cfg.cams[n] = some cam)
    (hedge : s.cmu.ch[n].expLevel ≠ level) (hlead : level ≠ cam.activeLow) : s.expLine n level =
      (s.onChannel n fun _ => s.exposed { s.cmu.ch[n] with expLevel := level }).notifyIf
        s.cmu.ch[n].exposure.isSome 13 := by
  have hstored : (s.onChannel n fun c => { c with expLevel := level }).cmu.ch[n] =
      { s.cmu.ch[n] with expLevel := level } := modAt_self s.cmu.ch n _
  unfold State.expLine
  simp only [hcam, hc, decide_eq_true hedge, bne_iff_ne.2 hlead, Bool.and_self, if_true]
  unfold State.expose
  simp only [hstored, State.onChannel_onChannel]
  rfl

/-- A trailing edge stores the level alone. -/
theorem State.expLine_trailing {cam : CamCfg} (hcam : s.cfg.cams[n] = some cam) (htrail : level = cam.activeLow) :
    s.expLine n level = s.onChannel n fun c => { c with expLevel := level } := by
  unfold State.expLine
  simp [hcam, htrail]

/-! ### The firing and its pulse (R145) -/

theorem State.takeFiring_due {p : Nat} (hp : s.cmu.ch[n].sched = some p) (hdue : p ≤ s.phase) :
    s.takeFiring n = s.onChannel n fun c => c.fire s.now s.flu.interval := by
  unfold State.takeFiring
  rw [hp]
  exact if_pos hdue

theorem State.pulseDone_elapsed {cam : CamCfg} {start i : Nat} (hcam : s.cfg.cams[n] = some cam)
    (hp : s.cmu.ch[n].pulse = some (start, i)) (helapsed : cam.width * i ≤ (s.now - start) * 256) :
    s.pulseDone n = s.onChannel n fun c => { c with pulse := none } := by
  unfold State.pulseDone
  rw [hp, hcam]
  exact if_pos (decide_eq_true helapsed)

end

/-- Settles O59: the edges by `State.expLine_leading` and `State.expLine_trailing`, the firing by `State.takeFiring_due`, the
end of its pulse by `State.pulseDone_elapsed`. -/
theorem cameraLinesTakeEffect : Obligations.CameraLinesTakeEffect := by
  intro dt n cam s hs hc hcam c
  refine ⟨fun level hedge => ?_, fun p hp hdue => ?_, fun start i hp helapsed => ?_⟩
  · have hfr := State.expLine_fr (s.elapse dt) n level
    by_cases htrail : level = cam.activeLow
    · have hline := State.expLine_trailing (s := s.elapse dt) hcam htrail
      rw [hline] at hfr
      refine ⟨_, exec_camera (fun u => u.expLine n level) hs hline hfr, ?_, ?_, State.effect_only _ hfr⟩
      · rw [if_pos htrail]
        rfl
      · exact (if_neg fun h => h.1 htrail).symm
    · have hline := State.expLine_leading (s := s.elapse dt) hc hcam hedge htrail
      rw [hline] at hfr
      refine ⟨_, exec_camera (fun u => u.expLine n level) hs hline hfr, ?_, ?_, State.effect_only _ hfr⟩
      · rw [if_neg htrail, State.notifyIf_cmu]
        rfl
      · rw [State.notifyIf_flags]
        exact if_congr (and_iff_right htrail).symm rfl rfl
  · have hfire := State.takeFiring_due (s := s.elapse dt) hp hdue
    exact ⟨_, exec_camera (fun u => u.takeFiring n) hs hfire (State.onChannel_fr _ _ _).mono, rfl,
      State.effect_only _ (State.onChannel_fr _ _ _)⟩
  · have hend := State.pulseDone_elapsed (s := s.elapse dt) hcam hp helapsed
    exact ⟨_, exec_camera (fun u => u.pulseDone n) hs hend (State.onChannel_fr _ _ _).mono, rfl,
      State.effect_only _ (State.onChannel_fr _ _ _)⟩

end Sys2Proof.Machine

/-! Proofs, section 57. Receive streams at an epoch (O37; R164 to R166): the end of an image whose timeout has run out, and that
nothing else of the epoch touches the Image Unit. -/

namespace Sys2Proof

set_option Elab.async false

/-! ### Tables -/

theorem setAt_setAt {α : Type} {n : Nat} (v : Vector α n) (i : Fin n) (x y : α) :
    setAt (setAt v i x) i y = setAt v i y := Vector.set_set ..

theorem setAt_getElem {α : Type} {n : Nat} (v : Vector α n) (i : Fin n) : setAt v i v[i] = v := Vector.set_getElem_self ..

/-- The entries before and behind one of them, in ascending order. -/
theorem finRange_split {n : Nat} (i : Fin n) :
    ∃ before after, List.finRange n = before ++ i :: after ∧ i ∉ before ∧ i ∉ after := by
  obtain ⟨before, after, hsplit⟩ := List.append_of_mem (List.mem_finRange i)
  have hn := List.nodup_finRange n
  rw [hsplit, List.nodup_middle, List.nodup_cons, List.mem_append, not_or] at hn
  exact ⟨before, after, hsplit, hn.1⟩

end Sys2Proof

namespace Sys2Proof.Machine

set_option Elab.async false

section
variable {s : State} {i : Fin 4} {w : Window} {p : StreamParams} {a : Assembly}

/-! ### The end of an image (R164, R166) -/

/-- The stream behind the end of its image in assembly, whose descriptor is requested or discarded (R164, R166). -/
def Stream.ended (x : Stream) (p : StreamParams) (a : Assembly) (discarded : Bool) : Stream :=
  { x with
      own := setAt x.own a.buffer (if discarded then .free else .closing), asm := none, next := nextBuffer p.count x.next
      drop := if discarded then min 65535 (x.drop + 1) else x.drop, order := x.order + 1 }

/-- The end of an image touches its stream alone of the Image Unit; a full queue discards the descriptor. -/
theorem State.endImage_igu (hw : s.cfg.stream i = some (w, p)) (ha : s.igu.streams[i].asm = some a) (complete : Bool) :
    (s.endImage i complete).igu =
      { s.igu with streams := setAt s.igu.streams i (s.igu.streams[i].ended p a s.normalFull) } := by
  unfold State.endImage
  rw [hw, ha]
  dsimp only
  rw [show ∀ f, (s.onStream i f).normalFull = s.normalFull from fun _ => rfl]
  cases s.normalFull with
  | false =>
    rw [if_neg (by decide), (State.requestNormal_fr _ _ _).keeps_igu]
    rfl
  | true =>
    rw [if_pos rfl, State.notify_igu]
    unfold State.onStream
    rw [State.onIgu_igu, (State.requestNormal_fr _ _ _).keeps_igu, State.onIgu_igu]
    dsimp only [modAt]
    rw [setAt_setAt, setAt_self]
    dsimp only [Stream.dropped]
    rw [setAt_setAt]
    rfl

/-- A discarded descriptor is reported with flag 7 (R166). -/
theorem State.endImage_discards (hw : s.cfg.stream i = some (w, p)) (ha : s.igu.streams[i].asm = some a) (complete : Bool)
    (hfull : s.normalFull = true) : (s.endImage i complete).cnu.flags.getLsbD 7 = true := by
  unfold State.endImage
  rw [hw, ha]
  dsimp only
  rw [show ∀ f, (s.onStream i f).normalFull = s.normalFull from fun _ => rfl, if_pos hfull]
  exact State.notify_self _ 7

/-- Without an image in assembly there is none to end. -/
theorem State.endImage_none (h : s.cfg.stream i = none ∨ s.igu.streams[i].asm = none) (complete : Bool) :
    s.endImage i complete = s := by
  unfold State.endImage
  split
  · next hw ha =>
    rw [hw, ha] at h
    rcases h with h | h
    · cases h
    · cases h
  · rfl

/-! ### The timeout of one stream (R165) -/

/-- A stream whose timeout has run out ends its image incomplete. -/
theorem State.streamEpoch_timeout (hw : s.cfg.stream i = some (w, p)) (ha : s.igu.streams[i].asm = some a)
    (ht : p.timeout ≤ s.igu.streams[i].idle + 1) :
    s.streamEpoch i = (s.onStream i fun x => { x with idle := x.idle + 1 }).endImage i false := by
  unfold State.streamEpoch
  rw [hw, ha]
  exact if_pos ht

/-- Of the Image Unit a stream's timeout touches that stream alone. -/
theorem State.streamEpoch_igu (s : State) (i : Fin 4) :
    ∃ x, (s.streamEpoch i).igu = { s.igu with streams := setAt s.igu.streams i x } := by
  have counted : ∀ f, (s.onStream i f).igu = { s.igu with streams := setAt s.igu.streams i (f s.igu.streams[i]) } :=
    fun _ => rfl
  unfold State.streamEpoch
  split
  · next w p a hw ha =>
    dsimp only
    split
    · have hasm : (s.onStream i fun x => { x with idle := x.idle + 1 }).igu.streams[i].asm = some a := by
        rw [State.onStream_streams, setAt_self]
        exact ha
      rw [State.endImage_igu (by exact hw) hasm, counted]
      exact ⟨_, congrArg (fun v => ({ s.igu with streams := v } : Igu)) (setAt_setAt ..)⟩
    · exact ⟨_, counted _⟩
  · exact ⟨_, congrArg (fun v => ({ s.igu with streams := v } : Igu)) (setAt_getElem ..).symm⟩

theorem State.streamEpoch_other (s : State) {j : Fin 4} (h : i ≠ j) :
    (s.streamEpoch j).igu.streams[i] = s.igu.streams[i] := by
  obtain ⟨x, hx⟩ := s.streamEpoch_igu j
  rw [hx]
  exact setAt_other _ _ h

theorem State.streamEpoch_cap (s : State) (i : Fin 4) : (s.streamEpoch i).igu.cap = s.igu.cap := by
  obtain ⟨x, hx⟩ := s.streamEpoch_igu i
  rw [hx]

/-! ### The unit's epoch work (R165) -/

theorem State.iguEpoch_cap (s : State) : s.iguEpoch.igu.cap = s.igu.cap :=
  foldl_keeps _ (fun u : State => u.igu.cap) _ (fun u j _ => u.streamEpoch_cap j) s

/-- Where stream `i` counts, it is as it was, and what its timeout reports stays reported. -/
theorem State.iguEpoch_turn (s : State) (i : Fin 4) : ∃ v : State, v.cfg = s.cfg ∧ v.igu.streams[i] = s.igu.streams[i] ∧
    s.iguEpoch.igu.streams[i] = (v.streamEpoch i).igu.streams[i] ∧ FlagsStay (v.streamEpoch i) s.iguEpoch := by
  have hkeeps : ∀ l : List (Fin 4), i ∉ l → ∀ u : State,
      (l.foldl State.streamEpoch u).igu.streams[i] = u.igu.streams[i] := fun l hi u =>
    foldl_keeps _ (fun u : State => u.igu.streams[i]) l (fun u _ hj => u.streamEpoch_other fun e => hi (e ▸ hj)) u
  obtain ⟨before, after, hsplit, hbefore, hafter⟩ := finRange_split i
  have hfold : s.iguEpoch = after.foldl State.streamEpoch ((before.foldl State.streamEpoch s).streamEpoch i) := by
    unfold State.iguEpoch
    rw [hsplit, List.foldl_append, List.foldl_cons]
  refine ⟨before.foldl State.streamEpoch s, ?_, hkeeps before hbefore s, ?_, ?_⟩
  · exact foldl_keeps _ State.cfg _ (fun u j _ => (u.streamEpoch_fr j).keeps_cfg) s
  · rw [hfold, hkeeps after hafter]
  · rw [hfold]
    exact .foldl _ (fun u j => (FlagsStay.refl u).streamEpoch j) after (.refl _)

/-- The image whose timeout has run out is ended by the unit's epoch work, with flag 7 where its descriptor is discarded. -/
theorem State.iguEpoch_timeout (hw : s.cfg.stream i = some (w, p)) (ha : s.igu.streams[i].asm = some a)
    (ht : p.timeout ≤ s.igu.streams[i].idle + 1) : ∃ discarded : Bool,
    s.iguEpoch.igu.streams[i] =
        { s.igu.streams[i] with idle := s.igu.streams[i].idle + 1 }.ended p a discarded ∧
      (discarded = true → s.iguEpoch.cnu.flags.getLsbD 7 = true) := by
  obtain ⟨v, hcfg, hold, hnew, hflags⟩ := s.iguEpoch_turn i
  rw [← hcfg] at hw
  rw [← hold] at ha ht ⊢
  have hcounted : (v.onStream i fun x => { x with idle := x.idle + 1 }).igu.streams[i] =
      { v.igu.streams[i] with idle := v.igu.streams[i].idle + 1 } := by
    rw [State.onStream_streams, setAt_self]
  rw [State.streamEpoch_timeout hw ha ht] at hnew hflags
  generalize hx : (v.onStream i fun x => { x with idle := x.idle + 1 }) = x at hnew hflags hcounted
  have hwx : x.cfg.stream i = some (w, p) := by
    rw [← hx]
    exact hw
  have hax : x.igu.streams[i].asm = some a := by
    rw [hcounted]
    exact ha
  refine ⟨x.normalFull, ?_, fun hfull => hflags 7 (State.endImage_discards hwx hax false hfull)⟩
  rw [hnew, State.endImage_igu hwx hax, ← hcounted]
  exact setAt_self _ _ _

/-! ### The epoch (log 4) -/

/-- Of an epoch that is due from a header the unit's own work alone touches the Image Unit. -/
theorem State.dueEpoch_images {dt : Nat} {e : PendingEntry} (h : s.HeaderEpochDue dt e) : ∃ y : State, y.cfg = s.cfg ∧
    y.igu = s.igu ∧ (s.elapse dt).dueEpoch.igu = y.iguEpoch.igu ∧ FlagsStay y.iguEpoch (s.elapse dt).dueEpoch := by
  have hfront := s.dueFront_fr dt e
  obtain ⟨a, x, hall⟩ := State.dueEpoch_stages h
  have haxes := (s.dueFront dt e).axesDone_fr a (some e.shaft) s.flu.resyncArmed
  generalize (s.dueFront dt e).axesDone a (some e.shaft) s.flu.resyncArmed = d at hall haxes
  obtain ⟨z, hz, -, hchannels⟩ := d.channelsDone_aged a x s.flu.resyncArmed
  rw [hchannels] at hall
  have haged := z.aged_fr (!a)
  refine ⟨z.aged (!a), ?_, ?_, ?_, ?_⟩
  · rw [haged.keeps_cfg, hz.keeps_cfg, haxes.keeps_cfg, hfront.keeps_cfg]
  · rw [haged.keeps_igu, hz.keeps_igu, haxes.keeps_igu, hfront.keeps_igu]
  · rw [hall, (State.scuEpoch_fr _).keeps_igu]
  · rw [hall]
    exact (FlagsStay.refl _).scuEpoch

end

/-- Settles O37: `State.iguEpoch_timeout` in the epoch that is due (`State.dueEpoch_images`). -/
theorem streamTimeoutEndsTheImage : Obligations.StreamTimeoutEndsTheImage := by
  intro dt n e w p a s h hw ha ht
  obtain ⟨y, hcfg, hsame, higu, hflags⟩ := State.dueEpoch_images h
  obtain ⟨discarded, hstream, hflag⟩ := State.iguEpoch_timeout (s := y) (i := n) (by rw [hcfg]; exact hw)
    (by rw [hsame]; exact ha) (by rw [hsame]; exact ht)
  have htx := (BlocksWork.iguEpoch y).tx
  have hcap := y.iguEpoch_cap
  rw [← higu, hsame] at hstream htx hcap
  have houtcome : streamTimesOut n (s.elapse dt) (s.elapse dt).dueEpoch = true := by
    unfold streamTimesOut
    rw [hstream, State.elapse_igu, ha]
    rfl
  refine ⟨_, exec_epochOutcome houtcome, ?_⟩
  rw [State.settle_igu, hstream]
  refine ⟨rfl, rfl, rfl, ?_, fun b hb => setAt_other _ _ hb, htx, hcap, s.dueEpoch_only dt⟩
  cases discarded with
  | false => exact .inl ⟨setAt_self _ _ _, rfl⟩
  | true => exact .inr ⟨setAt_self _ _ _, rfl, (hflags.settle _) 7 (hflag rfl)⟩

end Sys2Proof.Machine

/-! Proofs, section 58. Beats of the CAM-OUT windows (O53; R151 to R157): what an image start, a captured word and a sequence
break make of a channel, and the write that carries them. -/

namespace Sys2Proof.Machine

set_option Elab.async false

section
variable {s t : State} {ch : Fin 4} {cam : CamCfg} {w : Word} {be : BitVec 4} {off wa : Nat}

/-! ### One channel's capture and the transmit queue -/

/-- Capture channel `ch` at `c`, and the transmit queue at `tx`. -/
def State.withCapture (s : State) (ch : Fin 4) (c : Capture) (tx : List Fragment) : State :=
  s.onIgu fun u => { u with cap := setAt u.cap ch c, tx := tx }

@[simp] theorem State.withCapture_cap (c : Capture) (tx : List Fragment) : (s.withCapture ch c tx).igu.cap[ch] = c :=
  setAt_self _ _ _
@[simp] theorem State.withCapture_tx (c : Capture) (tx : List Fragment) : (s.withCapture ch c tx).igu.tx = tx := rfl
@[simp] theorem State.withCapture_cmu (c : Capture) (tx : List Fragment) : (s.withCapture ch c tx).cmu = s.cmu := rfl

theorem State.withCapture_withCapture (c d : Capture) (tx ty : List Fragment) :
    (s.withCapture ch c tx).withCapture ch d ty = s.withCapture ch d ty :=
  congrArg (fun v => s.onIgu fun u => { u with cap := v, tx := ty }) (setAt_setAt ..)

theorem State.onCap_eq (s : State) (ch : Fin 4) (f : Capture → Capture) :
    s.onCap ch f = s.withCapture ch (f s.igu.cap[ch]) s.igu.tx := rfl

theorem State.withCapture_onCap (c : Capture) (tx : List Fragment) (f : Capture → Capture) :
    (s.withCapture ch c tx).onCap ch f = s.withCapture ch (f c) tx := by
  rw [State.onCap_eq, State.withCapture_withCapture, State.withCapture_cap, State.withCapture_tx]

theorem State.withCapture_pushFragment (c : Capture) (tx : List Fragment) (f : Fragment) :
    (s.withCapture ch c tx).pushFragment f = s.withCapture ch c (tx ++ [f]) := rfl

/-- A fragment is accepted at a JOINED node with room in the queue (R156). -/
theorem State.txAccepts_iff : s.txAccepts = true ↔ s.isJoined = true ∧ s.igu.tx.length < 64 := by
  unfold State.txAccepts
  rw [Bool.and_eq_true, decide_eq_true_iff]
  rfl

/-! ### A captured word (R153, R156) -/

/-- The capture behind a word that completes no fragment. -/
theorem State.captureWord_within (h : (s.igu.cap[ch].e + 4) % 256 ≠ 0) : s.captureWord ch cam w be =
    s.withCapture ch { s.igu.cap[ch] with
      e := s.igu.cap[ch].e + 4, area := s.igu.cap[ch].area ++ capturedBytes w be } s.igu.tx := by
  unfold State.captureWord
  exact if_neg h

/-- The data fragment that the word at the expected offset completes (R153). -/
def Capture.fragment (c : Capture) (cam : CamCfg) (w : Word) (be : BitVec 4) : Fragment :=
  { head := false, last := decide ((c.e + 4) / 256 = cam.size / 256), dest := cam.dest, stream := cam.stream,
    imgNo := c.imgNo, index := (c.e + 4) / 256, payload := c.area ++ capturedBytes w be }

/-- The capture behind a word that completes a fragment: the last one ends it (R153). -/
def Capture.completed (c : Capture) (cam : CamCfg) : Capture :=
  { c with e := c.e + 4, area := [], state := if decide ((c.e + 4) / 256 = cam.size / 256) then .idle else c.state }

theorem Capture.completed_capturing {c : Capture} (cam : CamCfg) (h : c.state = .capturing) : c.completed cam =
    { c with e := c.e + 4, area := [],
             state := if decide ((c.e + 4) / 256 = cam.size / 256) then .idle else .capturing } := by
  unfold Capture.completed
  rw [h]

/-- A word that completes a fragment queues it (R153, R156). -/
theorem State.captureWord_completes (h : (s.igu.cap[ch].e + 4) % 256 = 0) (ha : s.txAccepts = true) :
    s.captureWord ch cam w be =
      s.withCapture ch (s.igu.cap[ch].completed cam) (s.igu.tx ++ [s.igu.cap[ch].fragment cam w be]) := by
  unfold State.captureWord
  dsimp only
  rw [if_pos h, if_pos ha, State.onCap_eq, State.withCapture_pushFragment]
  rfl

/-! ### An image start (R148, R152) -/

/-- The stored exposure of a channel is taken, and its overrun indication with it (R148). -/
def State.spendExposure (s : State) (ch : Fin 4) : State :=
  s.onCmu fun u => { u with ch := modAt u.ch ch fun c => { c with exposure := none, overrun := false } }

/-- The head of the channel's next image (R152, R155). -/
def State.headFragment (s : State) (ch : Fin 4) (cam : CamCfg) : Fragment :=
  { head := true, last := false, dest := cam.dest, stream := cam.stream, imgNo := s.igu.cap[ch].imgNo + 1, index := 0,
    payload := headPayload (s.igu.cap[ch].imgNo + 1) cam.size s.cmu.ch[ch].headInfo }

/-- A capture as an image start opens it: the next number, and nothing assembled yet (R152). -/
def Capture.opened (c : Capture) : Capture := { c with imgNo := c.imgNo + 1, area := [], e := 0 }

/-- An image start whose head is accepted: the first word is captured (R152, R153). -/
theorem State.imageStart_accepted (ha : s.txAccepts = true) : s.imageStart ch cam w be =
    (s.spendExposure ch).withCapture ch
      { state := .capturing, e := 4, imgNo := s.igu.cap[ch].imgNo + 1, area := capturedBytes w be }
      (s.igu.tx ++ [s.headFragment ch cam]) := by
  have hstart : s.imageStart ch cam w be = (((s.spendExposure ch).withCapture ch s.igu.cap[ch].opened
      (s.igu.tx ++ [s.headFragment ch cam])).onCap ch fun c => { c with state := .capturing }).captureWord ch cam w be := by
    unfold State.imageStart
    exact if_pos ha
  have hfirst : (s.igu.cap[ch].opened.e + 4) % 256 ≠ 0 := Nat.succ_ne_zero 3
  rw [hstart, State.withCapture_onCap, State.captureWord_within (by rw [State.withCapture_cap]; exact hfirst),
    State.withCapture_withCapture, State.withCapture_cap, State.withCapture_tx]
  rfl

/-- An image start whose head is refused is an overrun (R157; log 61). -/
theorem State.imageStart_refused (ha : s.txAccepts = false) : s.imageStart ch cam w be =
    ((s.spendExposure ch).withCapture ch
      { state := .skipping, e := 0, imgNo := s.igu.cap[ch].imgNo + 1, area := [] } s.igu.tx).notify 8 := by
  have hstart : s.imageStart ch cam w be =
      ((s.spendExposure ch).withCapture ch s.igu.cap[ch].opened s.igu.tx).overrun ch .skipping := by
    unfold State.imageStart
    exact if_neg (by rw [ha]; decide)
  rw [hstart]
  unfold State.overrun
  rw [State.withCapture_onCap]
  rfl

/-- Either way the channel's exposure is taken (R148). -/
theorem State.imageStart_camera (s : State) : (s.imageStart ch cam w be).cmu.ch[ch] =
    { s.cmu.ch[ch] with exposure := none, overrun := false } := by
  have hspent : (s.imageStart ch cam w be).cmu = (s.spendExposure ch).cmu := by
    cases ha : s.txAccepts with
    | true => rw [State.imageStart_accepted ha, State.withCapture_cmu]
    | false => rw [State.imageStart_refused ha, State.notify_cmu, State.withCapture_cmu]
  rw [hspent]
  exact modAt_self ..

/-! ### Beats by offset and capture state (R151, R154) -/

theorem State.camBeat_start (hc : s.cfg.cams[ch] = some cam) : s.camBeat ch 0 w be = s.imageStart ch cam w be := by
  unfold State.camBeat
  rw [hc]
  exact if_pos rfl

/-- The beat that the image in progress expects is captured. -/
theorem State.camBeat_expected (hc : s.cfg.cams[ch] = some cam) (h0 : off ≠ 0) (hst : s.igu.cap[ch].state = .capturing)
    (he : off = s.igu.cap[ch].e) : s.camBeat ch off w be = s.captureWord ch cam w be := by
  unfold State.camBeat
  rw [hc]
  dsimp only
  rw [if_neg h0, hst]
  exact if_pos he

/-- Any other beat of the image in progress is a sequence break (R154). -/
theorem State.camBeat_break (hc : s.cfg.cams[ch] = some cam) (h0 : off ≠ 0) (hst : s.igu.cap[ch].state = .capturing)
    (he : off ≠ s.igu.cap[ch].e) : s.camBeat ch off w be =
      (s.withCapture ch { s.igu.cap[ch] with state := .skipping, area := [] } s.igu.tx).notify 8 := by
  unfold State.camBeat
  rw [hc]
  dsimp only
  rw [if_neg h0, hst]
  exact if_neg he

/-- Outside an image no beat is captured. -/
theorem State.camBeat_uncaptured (hc : s.cfg.cams[ch] = some cam) (h0 : off ≠ 0)
    (hst : s.igu.cap[ch].state ≠ .capturing) : s.camBeat ch off w be = s := by
  unfold State.camBeat
  rw [hc]
  dsimp only
  rw [if_neg h0]
  split
  · rfl
  · rfl
  · next h => exact absurd h hst

/-! ### What a beat leaves alone -/

/-- Of the receive streams, the captures and the camera channels nothing changes but capture and camera channel `ch`. -/
structure ChannelOnly (ch : Fin 4) (s t : State) : Prop where
  streams : t.igu.streams = s.igu.streams
  cap : ∀ i : Fin 4, i ≠ ch → t.igu.cap[i] = s.igu.cap[i]
  camera : ∀ i : Fin 4, i ≠ ch → t.cmu.ch[i] = s.cmu.ch[i]

theorem ChannelOnly.refl (ch : Fin 4) (s : State) : ChannelOnly ch s s := ⟨rfl, fun _ _ => rfl, fun _ _ => rfl⟩

theorem ChannelOnly.onCap (h : ChannelOnly ch s t) (f : Capture → Capture) : ChannelOnly ch s (t.onCap ch f) :=
  ⟨h.streams, fun i hi => (modAt_other _ _ hi).trans (h.cap i hi), h.camera⟩

theorem ChannelOnly.notify (h : ChannelOnly ch s t) (n : Nat) : ChannelOnly ch s (t.notify n) :=
  ⟨h.streams, h.cap, h.camera⟩

theorem ChannelOnly.pushFragment (h : ChannelOnly ch s t) (f : Fragment) : ChannelOnly ch s (t.pushFragment f) :=
  ⟨h.streams, h.cap, h.camera⟩

theorem ChannelOnly.spendExposure (h : ChannelOnly ch s t) : ChannelOnly ch s (t.spendExposure ch) :=
  ⟨h.streams, h.cap, fun i hi => (modAt_other _ _ hi).trans (h.camera i hi)⟩

theorem ChannelOnly.overrun (h : ChannelOnly ch s t) (next : CaptureState) : ChannelOnly ch s (t.overrun ch next) :=
  (h.onCap _).notify 8

theorem ChannelOnly.captureWord (h : ChannelOnly ch s t) (cam : CamCfg) (w : Word) (be : BitVec 4) :
    ChannelOnly ch s (t.captureWord ch cam w be) := by
  unfold State.captureWord
  dsimp only
  split
  · split
    · exact (h.onCap _).pushFragment _
    · exact (h.onCap _).overrun _
  · exact h.onCap _

theorem ChannelOnly.imageStart (h : ChannelOnly ch s t) (cam : CamCfg) (w : Word) (be : BitVec 4) :
    ChannelOnly ch s (t.imageStart ch cam w be) := by
  unfold State.imageStart
  dsimp only
  split
  · exact ((((h.onCap _).spendExposure).pushFragment _).onCap _).captureWord ..
  · exact ((h.onCap _).spendExposure).overrun _

theorem ChannelOnly.camBeat (s : State) (ch : Fin 4) (off : Nat) (w : Word) (be : BitVec 4) :
    ChannelOnly ch s (s.camBeat ch off w be) := by
  have h := ChannelOnly.refl ch s
  unfold State.camBeat
  split
  · exact h
  · split
    · exact h.imageStart ..
    · split
      · exact h
      · exact h
      · split
        · exact h.captureWord ..
        · exact (h.onCap _).notify 8

/-- Behind offset 0 a beat takes no exposure. -/
theorem State.camBeat_cmu (h0 : off ≠ 0) : (s.camBeat ch off w be).cmu = s.cmu := by
  unfold State.camBeat
  split
  · rfl
  · rw [if_neg h0]
    split
    · rfl
    · rfl
    · split
      · exact (State.captureWord_fr ..).keeps_cmu
      · rfl

/-! ### The write that carries a beat (R26, R151; log 5) -/

/-- The node as the beat's owner finds it: memory has taken the word, and its cycle holds the M-port. -/
def State.stored (s : State) (wa : Nat) (b : Beat) : State := s.busy.onMem fun m => Memory.setWord m wa b.data b.be

/-- A write to a CAM-OUT word: memory takes it, then its channel does, and the cycle is over. -/
theorem State.writeOne_camOut (b : Beat) (h : s.CanWrite wa (.camOut ch off)) : s.writeOne wa b =
    { (s.stored wa b).camBeat ch off b.data b.be with ptu := s.ptu, lde := s.lde } := by
  obtain ⟨-, ⟨qh, qu, qn, qc, qb⟩, hwa, hn⟩ := h
  have hid : (s.beatAt wa b).id = .camOut ch off := hn
  have hreach : (s.identOf wa).reaches true = true := by
    unfold Ident.reaches
    rw [hn]
    rfl
  have hx : s.busy.writeBeat (s.beatAt wa b) = (s.stored wa b).camBeat ch off b.data b.be := by
    unfold State.writeBeat State.ownerBeat
    rw [hid]
    rfl
  have hfr := (s.stored wa b).camBeat_fr ch off b.data b.be
  generalize (s.stored wa b).camBeat ch off b.data b.be = x at hx hfr
  have hptu : x.ptu = s.busy.ptu := hfr.keeps_ptu
  have hlde : x.lde = s.busy.lde := hfr.keeps_lde
  rw [State.writeOne_ends b ⟨qh, qu, qn, qc, qb⟩ hwa hreach hx (by rw [hptu]; rfl) (by rw [hptu]; exact qb)]
  have hover : ({ x.ptu with cycle := none } : Ptu) = s.ptu := by
    rw [hptu, ← qc]
    rfl
  have hfreed : ({ x.lde with holder := .free } : Lde) = s.lde := by
    rw [hlde, ← qh]
    rfl
  exact congrArg₂ (fun p q => ({ x with ptu := p, lde := q } : State)) hover hfreed

theorem State.stored_fr (s : State) (wa : Nat) (b : Beat) : Frame [.ptu, .lde, .mem] s (s.stored wa b) :=
  (s.busy_fr.mono).comp (State.setWord_fr _ wa b.data b.be)

/-- Beside memory such a write touches the channel's blocks and the flags. -/
theorem State.writeOne_camOut_fr (b : Beat) (h : s.CanWrite wa (.camOut ch off)) :
    Frame [.cmu, .igu, .flags, .mem] s (s.writeOne wa b) := by
  have hfr : Frame [.ptu, .lde, .cmu, .igu, .flags, .mem] s ((s.stored wa b).camBeat ch off b.data b.be) :=
    ((s.stored_fr wa b).mono).comp (State.camBeat_fr ..)
  rw [State.writeOne_camOut b h]
  generalize (s.stored wa b).camBeat ch off b.data b.be = x at hfr
  have hall : Frame [.ptu, .lde, .cmu, .igu, .flags, .mem] s { x with ptu := s.ptu, lde := s.lde } :=
    (hfr.comp (State.onPtu_fr x (fun _ => s.ptu) hfr.keeps_shadow.symm)).comp
      (State.onLde_fr _ (fun _ => s.lde) fun _ => h.sound.lde)
  exact (hall.drop rfl).drop rfl

end

/-- Settles O53: the write by `State.writeOne_camOut`, its effect by offset and capture state (`State.camBeat_start`,
`State.camBeat_expected`, `State.camBeat_break`, `State.camBeat_uncaptured`). -/
theorem camOutBeatsAreCaptured : Obligations.CamOutBeatsAreCaptured := by
  intro dt addr b ch off cam s h hcam c bytes area last
  have h' := h.elapse dt
  have hrow := h'.writeIf (p := Ident.isCamOut) rfl b
  have hone := State.writeOne_camOut b h'
  have hfr := State.writeOne_camOut_fr b h'
  generalize (s.elapse dt).writeOne addr.toNat b = t at hrow hone hfr
  let y := (s.elapse dt).stored addr.toNat b
  have htaken : t.igu = (y.camBeat ch off b.data b.be).igu ∧ t.cmu = (y.camBeat ch off b.data b.be).cmu ∧
      t.cnu = (y.camBeat ch off b.data b.be).cnu ∧ t.mem = y.mem ∧ t.ptu = s.ptu := by
    rw [hone]
    exact ⟨rfl, rfl, rfl, (State.camBeat_fr ..).keeps_mem, rfl⟩
  obtain ⟨higu, hcmu, hcnu, hmem, hptu⟩ := htaken
  have hacc : y.txAccepts = true ↔ s.isJoined = true ∧ s.igu.tx.length < 64 := State.txAccepts_iff
  obtain ⟨hstreams, hcaps, hcameras⟩ := ChannelOnly.camBeat y ch off b.data b.be
  refine ⟨t, exec_served (fun u => u.writeIf Ident.isCamOut addr b) hrow h.quiet.served hfr.keeps_tru
    (congrArg Flu.position hfr.keeps_flu) hfr.keeps_lde (congrArg Ptu.cycle hptu),
    State.stores_setWord h.sound h.range _ _ hmem, ?_⟩
  rw [higu, hcmu, hcnu]
  refine ⟨hstreams, fun i hi => ⟨hcaps i hi, hcameras i hi⟩, fun h0 => ?_, fun h0 => State.camBeat_cmu h0,
    fun h0 hst he hin => ?_, fun h0 hst he hend hj hroom => ?_, fun h0 hst he => ?_, fun h0 hst => ?_,
    State.effect_only _ hfr⟩
  · subst h0
    rw [State.camBeat_start (s := y) hcam]
    refine ⟨State.imageStart_camera y, fun ha => ?_, fun ha => ?_⟩
    · rw [State.imageStart_accepted (hacc.2 ha)]
      exact ⟨State.withCapture_cap _ _, rfl⟩
    · rw [State.imageStart_refused (Bool.eq_false_iff.2 fun k => ha (hacc.1 k))]
      exact ⟨State.withCapture_cap _ _, rfl, rfl⟩
  · rw [State.camBeat_expected (s := y) hcam h0 hst he, State.captureWord_within (s := y) hin]
    exact ⟨State.withCapture_cap _ _, rfl⟩
  · rw [State.camBeat_expected (s := y) hcam h0 hst he,
      State.captureWord_completes (s := y) hend (hacc.2 ⟨hj, hroom⟩)]
    exact ⟨(State.withCapture_cap _ _).trans (Capture.completed_capturing cam hst), rfl⟩
  · rw [State.camBeat_break (s := y) hcam h0 hst he]
    exact ⟨State.withCapture_cap _ _, rfl, rfl⟩
  · rw [State.camBeat_uncaptured (s := y) hcam h0 hst]
    exact ⟨rfl, rfl⟩

end Sys2Proof.Machine

/-! Proofs, section 59. The sweep at an epoch (O38; R172, R174): what it makes of its screen, and that nothing else of the epoch
touches the Screen Unit. -/

namespace Sys2Proof.Machine

set_option Elab.async false

section
variable {s : State} {i j : Fin 2} {w : Window} {p : ScreenParams}

/-! ### What fetches leave alone (R172) -/

/-- Sweep pointers and sweep counts, the tiles landed, and the refresh command's record are the same. -/
structure Scu.SameSweeps (u v : Scu) : Prop where
  sweep : ∀ i : Fin 2, v.out[i].sweep = u.out[i].sweep
  count : ∀ i : Fin 2, v.out[i].sweepCount = u.out[i].sweepCount
  landed : v.landed = u.landed
  refresh : v.refresh = u.refresh

theorem Scu.SameSweeps.refl (u : Scu) : u.SameSweeps u := ⟨fun _ => rfl, fun _ => rfl, rfl, rfl⟩

theorem Scu.SameSweeps.trans {u v x : Scu} (h : u.SameSweeps v) (k : v.SameSweeps x) : u.SameSweeps x :=
  ⟨fun i => (k.sweep i).trans (h.sweep i), fun i => (k.count i).trans (h.count i), k.landed.trans h.landed,
    k.refresh.trans h.refresh⟩

/-- A change of one screen's dirty map and scan pointer. -/
theorem State.onOut_sameSweeps (s : State) (i : Fin 2) (f : OutScreen → OutScreen) (hsweep : ∀ o, (f o).sweep = o.sweep)
    (hcount : ∀ o, (f o).sweepCount = o.sweepCount) : s.scu.SameSweeps (s.onOut i f).scu := by
  have hfield : ∀ (get : OutScreen → Nat), (∀ o, get (f o) = get o) → ∀ j : Fin 2,
      get (s.onOut i f).scu.out[j] = get s.scu.out[j] := by
    intro get hget j
    show get (modAt s.scu.out i f)[j] = _
    by_cases h : j = i
    · rw [h, modAt_self]
      exact hget _
    · rw [modAt_other _ _ h]
  exact ⟨hfield _ hsweep, hfield _ hcount, rfl, rfl⟩

theorem State.fetchTile_sameSweeps (s : State) (i : Fin 2) (w : Window) (p : ScreenParams) (k : Nat) :
    s.scu.SameSweeps (s.fetchTile i w p k).scu := by
  have hrequested : s.scu.SameSweeps ((s.onOut i fun o =>
      { o with dirty := clearDirty o.dirty k, scan := nextTile p k }).requestNormal (.tileRead i k)
        (tileRuns w p k fun _ => List.replicate 8 0)).scu := by
    rw [State.requestNormal_scu]
    exact s.onOut_sameSweeps i _ (fun _ => rfl) fun _ => rfl
  unfold State.fetchTile
  dsimp only
  split
  · exact hrequested.trans (State.onOut_sameSweeps _ i _ (fun _ => rfl) fun _ => rfl)
  · exact hrequested.trans ⟨fun _ => rfl, fun _ => rfl, rfl, rfl⟩

theorem State.tryFetch_sameSweeps (s : State) : s.scu.SameSweeps s.tryFetch.scu :=
  State.tryFetch_cases (fun t => s.scu.SameSweeps t.scu) (.refl _) fun t i w p k h => h.trans (t.fetchTile_sameSweeps i w p k)

/-! ### The sweep of one screen (R174) -/

/-- Screen `i`, of parameters `p`, was swept from `s` to `t`: count, pointer and swept tile (R172, R174). -/
structure State.Swept (s t : State) (i : Fin 2) (p : ScreenParams) : Prop where
  count : t.scu.out[i].sweepCount = 0
  sweep : t.scu.out[i].sweep = nextTile p s.scu.out[i].sweep
  marked : t.TileMarked i s.scu.out[i].sweep
  landed : t.scu.landed = s.scu.landed
  refresh : t.scu.refresh = s.scu.refresh

/-- A sweep count that comes to its period sweeps one tile. -/
theorem State.sweepEpoch_sweeps (hw : s.cfg.screenOut i = some (w, p)) (h0 : 0 < p.period)
    (hp : p.period ≤ s.scu.out[i].sweepCount + 1) (hlt : s.scu.out[i].sweep < 8192) : s.Swept (s.sweepEpoch i) i p := by
  have heq : s.sweepEpoch i = (s.onOut i fun o =>
      { o with dirty := setDirty o.dirty o.sweep, sweep := nextTile p o.sweep, sweepCount := 0 }).tryFetch := by
    unfold State.sweepEpoch
    rw [hw]
    dsimp only
    rw [if_neg (Nat.pos_iff_ne_zero.1 h0), if_pos hp]
  generalize hx : (s.onOut i fun o =>
    { o with dirty := setDirty o.dirty o.sweep, sweep := nextTile p o.sweep, sweepCount := 0 }) = x at heq
  have hout : x.scu.out[i] = { s.scu.out[i] with
      dirty := setDirty s.scu.out[i].dirty s.scu.out[i].sweep, sweep := nextTile p s.scu.out[i].sweep, sweepCount := 0 } := by
    rw [← hx]
    exact modAt_self _ _ _
  have hmarked : x.TileMarked i s.scu.out[i].sweep := by
    refine .inl ?_
    rw [hout]
    dsimp only
    rw [setDirty_get _ hlt]
    simp
  have hsame := x.tryFetch_sameSweeps
  rw [heq]
  refine ⟨(hsame.count i).trans ?_, (hsame.sweep i).trans ?_, State.tryFetch_marked hmarked, hsame.landed.trans ?_,
    hsame.refresh.trans ?_⟩
  · rw [hout]
  · rw [hout]
  · rw [← hx]
    rfl
  · rw [← hx]
    rfl

/-- The epoch of screen `j` leaves screen `i` swept, or still to be swept, as it is. -/
structure State.LeavesScreen (s t : State) (i : Fin 2) : Prop where
  count : t.scu.out[i].sweepCount = s.scu.out[i].sweepCount
  sweep : t.scu.out[i].sweep = s.scu.out[i].sweep
  marked : ∀ u, s.TileMarked i u → t.TileMarked i u
  landed : t.scu.landed = s.scu.landed
  refresh : t.scu.refresh = s.scu.refresh

theorem State.onOut_leaves (s : State) (f : OutScreen → OutScreen) (h : i ≠ j) : s.LeavesScreen (s.onOut j f) i := by
  have hout : (s.onOut j f).scu.out[i] = s.scu.out[i] := modAt_other _ _ h
  refine ⟨by rw [hout], by rw [hout], fun u hu => ?_, rfl, rfl⟩
  unfold State.TileMarked
  rw [hout]
  exact hu

theorem State.LeavesScreen.tryFetch {t : State} (h : s.LeavesScreen t i) : s.LeavesScreen t.tryFetch i :=
  have hsame := t.tryFetch_sameSweeps
  ⟨(hsame.count i).trans h.count, (hsame.sweep i).trans h.sweep, fun u hu => State.tryFetch_marked (h.marked u hu),
    hsame.landed.trans h.landed, hsame.refresh.trans h.refresh⟩

theorem State.sweepEpoch_leaves (s : State) (h : i ≠ j) : s.LeavesScreen (s.sweepEpoch j) i := by
  have hself : s.LeavesScreen s i := ⟨rfl, rfl, fun _ hu => hu, rfl, rfl⟩
  unfold State.sweepEpoch
  split
  · split
    · exact hself
    · split
      · exact (s.onOut_leaves _ h).tryFetch
      · exact s.onOut_leaves _ h
  · exact hself

/-! ### The unit's epoch work (R174) -/

/-- The other screen's epoch, before or behind the sweep, leaves it as it is (log 68). -/
theorem State.scuEpoch_sweeps (hw : s.cfg.screenOut i = some (w, p)) (h0 : 0 < p.period)
    (hp : p.period ≤ s.scu.out[i].sweepCount + 1) (hlt : s.scu.out[i].sweep < 8192) : s.Swept s.scuEpoch i p := by
  unfold State.scuEpoch
  match i with
  | 0 =>
    obtain ⟨hcount, hsweep, hmarked, hlanded, hrefresh⟩ := State.sweepEpoch_sweeps hw h0 hp hlt
    have hother := (s.sweepEpoch 0).sweepEpoch_leaves (i := 0) (j := 1) (by decide)
    exact ⟨hother.count.trans hcount, hother.sweep.trans hsweep, hother.marked _ hmarked, hother.landed.trans hlanded,
      hother.refresh.trans hrefresh⟩
  | 1 =>
    have hother := s.sweepEpoch_leaves (i := 1) (j := 0) (by decide)
    obtain ⟨hcount, hsweep, hmarked, hlanded, hrefresh⟩ := State.sweepEpoch_sweeps (s := s.sweepEpoch 0) (i := 1)
      (by rw [(s.sweepEpoch_fr 0).keeps_cfg]; exact hw) h0 (by rw [hother.count]; exact hp) (by rw [hother.sweep]; exact hlt)
    rw [hother.sweep] at hsweep hmarked
    exact ⟨hcount, hsweep, hmarked, hlanded.trans hother.landed, hrefresh.trans hother.refresh⟩

/-! ### The epoch (log 4) -/

/-- Of an epoch that is due from a header the unit's own work alone touches the Screen Unit. -/
theorem State.dueEpoch_screens {dt : Nat} {e : PendingEntry} (h : s.HeaderEpochDue dt e) : ∃ y : State, y.cfg = s.cfg ∧
    y.scu = s.scu ∧ (s.elapse dt).dueEpoch = y.scuEpoch := by
  have hfront := s.dueFront_fr dt e
  obtain ⟨a, x, hall⟩ := State.dueEpoch_stages h
  have haxes := (s.dueFront dt e).axesDone_fr a (some e.shaft) s.flu.resyncArmed
  generalize (s.dueFront dt e).axesDone a (some e.shaft) s.flu.resyncArmed = d at hall haxes
  obtain ⟨z, hz, -, hchannels⟩ := d.channelsDone_aged a x s.flu.resyncArmed
  rw [hchannels] at hall
  have hlast := ((z.aged_fr (!a)).mono (qs := [.tru, .slu, .cmu, .igu, .flags, .lde])).comp (State.iguEpoch_fr _)
  refine ⟨_, ?_, ?_, hall⟩
  · rw [hlast.keeps_cfg, hz.keeps_cfg, haxes.keeps_cfg, hfront.keeps_cfg]
  · rw [hlast.keeps_scu, hz.keeps_scu, haxes.keeps_scu, hfront.keeps_scu]

/-- An epoch that is due from a header takes the header's cycle number (R21). -/
theorem State.dueEpoch_cycle {dt : Nat} {e : PendingEntry} (h : s.HeaderEpochDue dt e) :
    (s.elapse dt).dueEpoch.flu.cycle = e.cycle := by
  obtain ⟨htake, hdue⟩ := State.dueEpoch_takes h
  rw [State.takeEntry_works (by exact h.fresh)] at htake
  rw [hdue, htake, State.epochWork_flu, if_neg (by decide), State.headerWatched_flu]
  rfl

end

/-- Settles O38: `State.scuEpoch_sweeps` in the epoch that is due (`State.dueEpoch_screens`). -/
theorem sweepMarksOneTile : Obligations.SweepMarksOneTile := by
  intro dt n e w p s h hw h0 hp hlt
  obtain ⟨y, hcfg, hsame, hdue⟩ := State.dueEpoch_screens h
  obtain ⟨hcount, hsweep, hmarked, hlanded, hrefresh⟩ := State.scuEpoch_sweeps (s := y) (i := n) (by rw [hcfg]; exact hw) h0
    (by rw [hsame]; exact hp) (by rw [hsame]; exact hlt)
  rw [← hdue] at hcount hsweep hmarked hlanded hrefresh
  rw [hsame] at hsweep hmarked hlanded hrefresh
  have houtcome : sweeps n (s.elapse dt) (s.elapse dt).dueEpoch = true := by
    unfold sweeps
    rw [show (s.elapse dt).cfg.screenOut n = some (w, p) from hw]
    simp only [Bool.and_eq_true, decide_eq_true_eq]
    exact ⟨⟨⟨h0, hp⟩, hcount⟩, by rw [State.dueEpoch_cycle h]; exact h.fresh.symm⟩
  refine ⟨_, exec_epochOutcome houtcome, ?_⟩
  rw [State.settle_scu]
  exact ⟨hcount, hsweep, hmarked, hlanded, hrefresh, s.dueEpoch_only dt⟩

end Sys2Proof.Machine

/-! Proofs, section 60. The key matrix (O60; R179 to R181, R183): what one reading makes of its key, the readings of the driven
row, and a press that is accepted alone. -/

namespace Sys2Proof.Machine

set_option Elab.async false

section
variable {s : State} {k : Fin 64} {row : Fin 8} {cols : BitVec 8}

/-! ### Sets of keys -/

theorem putKey_get (m : BitVec 64) (k j : Fin 64) (b : Bool) :
    (putKey m k b).getLsbD j.val = if j = k then b else m.getLsbD j.val := by
  have hbit : (1#64 <<< k.val).getLsbD j.val = decide (j = k) := by
    rw [BitVec.getLsbD_shiftLeft, BitVec.getLsbD_one]
    simp only [Fin.ext_iff]
    grind
  unfold putKey
  cases b with
  | true =>
    rw [if_pos rfl, BitVec.getLsbD_or, hbit]
    by_cases h : j = k <;> simp [h]
  | false =>
    rw [if_neg (by decide), BitVec.getLsbD_and, BitVec.getLsbD_not, hbit]
    by_cases h : j = k <;> simp [h]

theorem putKey_self (m : BitVec 64) (k : Fin 64) (b : Bool) : (putKey m k b).getLsbD k.val = b :=
  (putKey_get m k k b).trans (if_pos rfl)

theorem putKey_other (m : BitVec 64) {k j : Fin 64} (b : Bool) (h : j ≠ k) :
    (putKey m k b).getLsbD j.val = m.getLsbD j.val := (putKey_get m k j b).trans (if_neg h)

/-! ### One reading (R180) -/

/-- The Key Scanner without lock, reported marks and key queue: what an accepted press or release leaves alone. -/
def Ksc.readings (c : Ksc) : Ksc := { c with reported := 0, lock := none, queue := [], overflow := false }

/-- The debounced state and the mark of one key. -/
def Ksc.keyState (c : Ksc) (k : Fin 64) : Bool × Bool := (c.debounced.getLsbD k.val, c.mark.getLsbD k.val)

/-- The Key Scanner behind one reading of key `k`, before a change read twice is accepted (R180). -/
def Ksc.read (c : Ksc) (k : Fin 64) (pressed : Bool) : Ksc :=
  if c.debounced.getLsbD k.val = pressed then { c with mark := putKey c.mark k false }
  else if c.mark.getLsbD k.val then { c with debounced := putKey c.debounced k pressed, mark := putKey c.mark k false }
  else { c with mark := putKey c.mark k true }

theorem Ksc.read_self (c : Ksc) (k : Fin 64) (pressed : Bool) : (c.read k pressed).keyState k =
    let differs := c.debounced.getLsbD k.val != pressed
    (if differs ∧ c.mark.getLsbD k.val = true then pressed else c.debounced.getLsbD k.val,
      differs && !c.mark.getLsbD k.val) := by
  unfold Ksc.read Ksc.keyState
  by_cases hd : c.debounced.getLsbD k.val = pressed
  · rw [if_pos hd, hd, putKey_self, bne_self_eq_false]
    simp
  · rw [if_neg hd, bne_iff_ne.2 hd]
    cases c.mark.getLsbD k.val with
    | true => rw [if_pos rfl, putKey_self, putKey_self]; rfl
    | false => rw [if_neg (by decide), putKey_self]; rfl

theorem Ksc.read_other (c : Ksc) {k j : Fin 64} (pressed : Bool) (h : j ≠ k) :
    (c.read k pressed).keyState j = c.keyState j := by
  unfold Ksc.read Ksc.keyState
  split
  · rw [putKey_other _ _ h]
  · split
    · rw [putKey_other _ _ h, putKey_other _ _ h]
    · rw [putKey_other _ _ h]

/-- The Key Scanner without anything a reading touches. -/
def Ksc.rest (c : Ksc) : Ksc := { c.readings with debounced := 0, mark := 0 }

theorem Ksc.read_rest (c : Ksc) (k : Fin 64) (pressed : Bool) : (c.read k pressed).rest = c.rest := by
  unfold Ksc.read
  split
  · rfl
  · split <;> rfl

theorem State.offerKey_readings (s : State) (k : Fin 64) (press : Bool) :
    (s.offerKey k press).ksc.readings = s.ksc.readings := by
  unfold State.offerKey
  split <;> rfl

theorem State.freeLock_readings (s : State) : s.freeLock.ksc.readings = s.ksc.readings := by
  unfold State.freeLock
  split <;> rfl

theorem State.acceptOrdinary_readings (s : State) (k : Fin 64) (press : Bool) :
    (s.acceptOrdinary k press).ksc.readings = s.ksc.readings := by
  unfold State.acceptOrdinary
  rw [State.freeLock_readings]
  split
  · split
    · exact s.offerKey_readings k true
    · rfl
  · split
    · exact s.offerKey_readings k false
    · rfl

theorem State.acceptStop_readings (s : State) (k : Fin 64) (press : Bool) :
    (s.acceptStop k press).ksc.readings = s.ksc.readings := by
  have hcondition : ∀ (u : State) b, (u.handCondition 9 b).ksc = u.ksc := fun u b => (u.handCondition_fr 9 b).keeps_ksc
  unfold State.acceptStop
  dsimp only
  split
  · rw [hcondition]
    exact s.offerKey_readings k press
  · split
    · exact s.offerKey_readings k press
    · rw [hcondition]
      exact s.offerKey_readings k press

/-- A reading debounces its key; the acceptance of a change touches no reading (R180 to R182). -/
theorem State.readKey_readings (s : State) (k : Fin 64) (pressed : Bool) :
    (s.readKey k pressed).ksc.readings = (s.ksc.read k pressed).readings := by
  unfold State.readKey Ksc.read
  split
  · rfl
  · split
    · dsimp only
      split
      · exact State.acceptStop_readings _ k pressed
      · exact State.acceptOrdinary_readings _ k pressed
    · rfl

/-! ### The driven row (R179, R180) -/

/-- The key of row `row` in column `i`. -/
def rowKey (row i : Fin 8) : Fin 64 := ⟨8 * row.val + i.val, by omega⟩

theorem rowKey_injective (row : Fin 8) : Function.Injective (rowKey row) := fun i j h => by
  have := congrArg Fin.val h
  dsimp only [rowKey] at this
  omega

theorem rowKey_row (row i : Fin 8) : (rowKey row i).val / 8 = row.val := by
  dsimp only [rowKey]
  omega

theorem rowKey_column (row i : Fin 8) : (rowKey row i).val % 8 = i.val := by
  dsimp only [rowKey]
  omega

/-- A key of the row is the one in some column. -/
theorem exists_rowKey (h : k.val / 8 = row.val) : ∃ i, rowKey row i = k :=
  ⟨⟨k.val % 8, Nat.mod_lt _ (by decide)⟩, Fin.ext (by dsimp only [rowKey]; omega)⟩

/-- The readings of the columns `l` of row `row`. -/
def State.readColumns (s : State) (row : Fin 8) (cols : BitVec 8) (l : List (Fin 8)) : State :=
  l.foldl (fun s i => s.readKey (rowKey row i) (cols.getLsbD i.val)) s

theorem State.readRow_eq (s : State) (cols : BitVec 8) : s.readRow cols =
    (s.readColumns s.ksc.row cols (List.finRange 8)).onKsc fun c =>
      { c with row := s.ksc.row + 1, nextRead := c.nextRead + Config.rowTicks } := by
  have hkey : ∀ i : Fin 8, Fin.ofNat 64 (8 * s.ksc.row.val + i.val) = rowKey s.ksc.row i := fun i =>
    Fin.ext (Nat.mod_eq_of_lt (by omega))
  unfold State.readRow State.readColumns
  rw [show List.range 8 = (List.finRange 8).map Fin.val from rfl]
  dsimp only
  rw [List.foldl_map]
  simp only [hkey]

/-- What a reading of key `j` leaves of the readings, the reading of the key leaves. -/
theorem State.readKey_keeps {β : Type} (get : Ksc → β) (hget : ∀ c : Ksc, get c = get c.readings) {j : Fin 64} {b : Bool}
    (h : ∀ c : Ksc, get (c.read j b) = get c) (u : State) : get (u.readKey j b).ksc = get u.ksc := by
  rw [hget, State.readKey_readings, ← hget, h]

/-- What every reading leaves alone, those of a row do. -/
theorem State.readColumns_keeps {β : Type} (get : Ksc → β) (hget : ∀ c : Ksc, get c = get c.readings)
    (l : List (Fin 8)) (h : ∀ c : Ksc, ∀ i ∈ l, get (c.read (rowKey row i) (cols.getLsbD i.val)) = get c) (s : State) :
    get (s.readColumns row cols l).ksc = get s.ksc :=
  foldl_keeps _ (fun u : State => get u.ksc) l (fun u i hi => u.readKey_keeps get hget fun c => h c i hi) s

/-- Each key of the row is read once. -/
theorem State.readColumns_key (s : State) (row : Fin 8) (cols : BitVec 8) (i : Fin 8) :
    (s.readColumns row cols (List.finRange 8)).ksc.keyState (rowKey row i) =
      (s.ksc.read (rowKey row i) (cols.getLsbD i.val)).keyState (rowKey row i) := by
  obtain ⟨u, hbefore, hafter⟩ := foldl_once (fun (s : State) i => s.readKey (rowKey row i) (cols.getLsbD i.val))
    (fun u : State => u.ksc.keyState (rowKey row i)) (List.nodup_finRange 8) (List.mem_finRange i)
    (fun u j hj => u.readKey_keeps (Ksc.keyState · (rowKey row i)) (fun _ => rfl)
      fun c => c.read_other _ fun h => hj (rowKey_injective row h).symm) s
  rw [Ksc.keyState, Ksc.keyState, Prod.mk.injEq] at hbefore
  refine hafter.trans ((congrArg (Ksc.keyState · (rowKey row i)) (u.readKey_readings _ _)).trans ?_)
  show (u.ksc.read _ _).keyState _ = _
  rw [Ksc.read_self, Ksc.read_self, hbefore.1, hbefore.2]

/-- The other keys are as before. -/
theorem State.readColumns_other (h : k.val / 8 ≠ row.val) (s : State) (cols : BitVec 8) :
    (s.readColumns row cols (List.finRange 8)).ksc.keyState k = s.ksc.keyState k :=
  State.readColumns_keeps (Ksc.keyState · k) (fun _ => rfl) _
    (fun c i _ => c.read_other _ fun e => h (e ▸ rowKey_row row i)) s

/-- The reading time and what stands of the KEYS list are as before (R184). -/
theorem State.readColumns_rest (s : State) (row : Fin 8) (cols : BitVec 8) :
    let c := (s.readColumns row cols (List.finRange 8)).ksc
    c.nextRead = s.ksc.nextRead ∧ c.writeIndex = s.ksc.writeIndex ∧ c.landedCount = s.ksc.landedCount := by
  have hrest := State.readColumns_keeps (row := row) (cols := cols) Ksc.rest (fun _ => rfl) (List.finRange 8)
    (fun c _ _ => c.read_rest _ _) s
  exact ⟨(congrArg Ksc.nextRead hrest :), (congrArg Ksc.writeIndex hrest :), (congrArg Ksc.landedCount hrest :)⟩

/-- While a configured node with a key record scans, the driven row's line alone is active (R179). -/
theorem State.rowLines_scanning {kc : KeyCfg} (hc : s.configured = true) (hk : s.cfg.keys = some kc) :
    s.rowLines = 1#8 <<< s.ksc.row.val := by
  unfold State.rowLines
  rw [hc, hk]
  rfl

/-- The row is read once its millisecond has passed. -/
theorem State.scanRow_due {kc : KeyCfg} (hc : s.configured = true) (hk : s.cfg.keys = some kc)
    (hdue : s.ksc.nextRead ≤ s.now) (cols : BitVec 8) : s.scanRow cols = s.readRow cols := by
  refine if_pos ?_
  rw [hc, hk, decide_eq_true hdue]
  rfl

/-! ### A press accepted alone (R181, R183) -/

/-- Readings of keys that are as debounced change marks alone, and not that of key `k` of another column. -/
theorem State.readColumns_settled (l : List (Fin 8)) (hk : ∀ i ∈ l, rowKey row i ≠ k)
    (hd : ∀ i ∈ l, s.ksc.debounced.getLsbD (rowKey row i).val = cols.getLsbD i.val) : ∃ m : BitVec 64,
    m.getLsbD k.val = s.ksc.mark.getLsbD k.val ∧
      s.readColumns row cols l = s.onKsc fun c => { c with mark := m } := by
  induction l generalizing s with
  | nil => exact ⟨s.ksc.mark, rfl, rfl⟩
  | cons i l ih =>
    have hread : s.readKey (rowKey row i) (cols.getLsbD i.val) =
        s.onKsc fun c => { c with mark := putKey c.mark (rowKey row i) false } :=
      if_pos (hd i (List.mem_cons_self ..))
    obtain ⟨m, hm, heq⟩ := ih (s := s.onKsc fun c => { c with mark := putKey c.mark (rowKey row i) false })
      (fun j hj => hk j (List.mem_cons_of_mem _ hj)) fun j hj => hd j (List.mem_cons_of_mem _ hj)
    refine ⟨m, hm.trans (putKey_other _ _ (hk i (List.mem_cons_self ..)).symm), ?_⟩
    unfold State.readColumns at heq ⊢
    rw [List.foldl_cons, hread, heq]
    rfl

/-- The Key Scanner behind an accepted press of an ordinary key at time `x`, the lock free before it (R181, R183). -/
def Ksc.pressed (c : Ksc) (k : Fin 64) (x : Stamp) : Ksc :=
  { c with
      debounced := putKey c.debounced k true, mark := putKey c.mark k false, reported := putKey c.reported k true
      lock := some k, queue := c.queue ++ [{ key := k, press := true, stamp := x }] }

/-- With an ordinary key down the lock does not free (R181). -/
theorem State.freeLock_held (hs : s.isStopKey k = false) (hd : s.ksc.debounced.getLsbD k.val = true) : s.freeLock = s := by
  refine if_pos (List.any_eq_true.2 ⟨k, List.mem_finRange k, ?_⟩)
  rw [hs, hd]
  rfl

/-- A press of an ordinary key, read a second time with the lock free, holds the lock and is queued. -/
theorem State.readKey_presses (hs : s.isStopKey k = false) (hl : s.ksc.lock = none)
    (hd : s.ksc.debounced.getLsbD k.val = false) (hm : s.ksc.mark.getLsbD k.val = true) (hq : s.ksc.queue.length < 16) :
    s.readKey k true = s.onKsc fun c => c.pressed k s.stamp := by
  unfold State.readKey
  rw [hd, if_neg (by decide), if_pos hm]
  dsimp only
  rw [if_neg (by exact ne_true_of_eq_false hs)]
  unfold State.acceptOrdinary State.offerKey
  rw [if_pos rfl, if_pos (by exact Option.isNone_iff_eq_none.2 hl), if_pos (by exact hq)]
  exact State.freeLock_held (k := k) hs (putKey_self _ k true)

/-- The readings of the row where one key's press is accepted and the others are as debounced. -/
theorem State.readColumns_presses {i : Fin 8} (hs : s.isStopKey (rowKey row i) = false) (hl : s.ksc.lock = none)
    (hd : s.ksc.debounced.getLsbD (rowKey row i).val = false) (hm : s.ksc.mark.getLsbD (rowKey row i).val = true)
    (hc : cols.getLsbD i.val = true)
    (hothers : ∀ j, j ≠ i → s.ksc.debounced.getLsbD (rowKey row j).val = cols.getLsbD j.val)
    (hq : s.ksc.queue.length < 16) : ∃ m : BitVec 64, s.readColumns row cols (List.finRange 8) =
      s.onKsc fun c => { c.pressed (rowKey row i) s.stamp with mark := m } := by
  obtain ⟨before, after, hsplit, hbefore, hafter⟩ := finRange_split i
  have hne : ∀ l : List (Fin 8), i ∉ l → ∀ j ∈ l, j ≠ i := fun l hi j hj e => hi (e ▸ hj)
  have hkeys : ∀ l : List (Fin 8), i ∉ l → ∀ j ∈ l, rowKey row j ≠ rowKey row i :=
    fun l hi j hj e => hne l hi j hj (rowKey_injective row e)
  obtain ⟨m, hmark, hfirst⟩ := State.readColumns_settled (s := s) (cols := cols) before (hkeys before hbefore)
    fun j hj => hothers j (hne before hbefore j hj)
  have hpress := State.readKey_presses (s := s.onKsc fun c => { c with mark := m }) (k := rowKey row i) hs hl hd
    (hmark.trans hm) hq
  obtain ⟨m', -, hlast⟩ := State.readColumns_settled (cols := cols) (row := row) (k := rowKey row i)
    (s := (s.onKsc fun c => { c with mark := m }).onKsc fun c => c.pressed (rowKey row i) s.stamp) after (hkeys after hafter)
    fun j hj => (putKey_other _ _ (hkeys after hafter j hj)).trans (hothers j (hne after hafter j hj))
  refine ⟨m', ?_⟩
  unfold State.readColumns at hfirst hlast ⊢
  rw [hsplit, List.foldl_append, List.foldl_cons, hfirst, hc, hpress]
  exact hlast

end

/-- Settles O60: each key by `State.readColumns_key`, the press by `State.readColumns_presses`. -/
theorem rowReadingsAreDebounced : Obligations.RowReadingsAreDebounced := by
  intro dt cols kc s _ hconf hkeys hdue
  have hscan := State.scanRow_due (s := s.elapse dt) hconf hkeys hdue cols
  have hfr := (s.elapse dt).readRow_fr cols
  rw [State.readRow_eq, State.elapse_ksc] at hscan hfr
  obtain ⟨hnext, hindex, hlanded⟩ := State.readColumns_rest (s.elapse dt) s.ksc.row cols
  generalize hx : (s.elapse dt).readColumns s.ksc.row cols (List.finRange 8) = x at hscan hfr hnext hindex hlanded
  have hall := hfr.mono (qs := [.tru, .cmu, .ksc, .flags, .ptu, .lde]) |>.comp (State.settle_fr (s.elapse dt) _)
  have hlines := State.rowLines_scanning (hall.keeps_configured.trans hconf)
    (by rw [hall.keeps_cfg]; exact hkeys)
  refine ⟨_, exec_event (c := .keyRowReading dt cols) (fun u => u.scanRow cols) hscan, ?_⟩
  rw [hlines, State.settle_ksc, State.settle_tru]
  refine ⟨rfl, congrArg (· + Config.rowTicks) hnext, rfl, fun k hk => ?_, fun k hk => ?_, hindex, hlanded,
    fun k hk hstop hlock hup hmark hcol hothers hroom => ?_, State.settled_only _ hfr⟩
  · obtain ⟨i, rfl⟩ := exists_rowKey hk
    have hkey := State.readColumns_key (s.elapse dt) s.ksc.row cols i
    rw [hx, Ksc.read_self] at hkey
    rw [rowKey_column]
    exact Prod.mk.inj hkey
  · have hkey := State.readColumns_other hk (s.elapse dt) cols
    rw [hx] at hkey
    exact Prod.mk.inj hkey
  · obtain ⟨i, rfl⟩ := exists_rowKey hk
    rw [rowKey_column] at hcol
    obtain ⟨m, hpress⟩ := State.readColumns_presses (s := s.elapse dt) hstop hlock hup hmark hcol (fun j hj => by
      have := hothers (rowKey s.ksc.row j) (fun e => hj (rowKey_injective _ e)) (rowKey_row _ j)
      rwa [rowKey_column] at this) hroom
    rw [← hx, hpress]
    exact ⟨rfl, putKey_self _ _ _, rfl, rfl⟩

end Sys2Proof.Machine

/-! Proofs, section 61. The commands of the NODE window (O51; R176, R193, R195): notice mask, notice clear and an accepted screen
refresh command, at the completion of their single-beat writes. -/

namespace Sys2Proof.Machine

set_option Elab.async false

section
variable {s : State} {sel : Nat} {i : Fin 2} {w : Window} {b : Beat}

/-! ### The notice mask (R193) -/

theorem State.takeBeat_mask {x : PBeat} (h : x.id = .noticeMask) : s.takeBeat x = s.takeMask (s.shadowAt x.addr) := by
  unfold State.takeBeat
  rw [h]

/-- The notice mask, at the completion of its write (R36, R193). -/
theorem State.noticeMask_takes (dt : Nat) (hw : s.cfg.only .node = some w) (h : s.CanWrite (w.word + 2) .noticeMask) :
    ∃ t, exec (.noticeMask dt b) s = .next t ∧
      t.cnu = { s.cnu with mask := (s.shadowAfter (w.word + 2) b).setWidth 16 &&& 0xFFFE#16 } ∧
      Captured s t (w.word + 2) b ∧ OnlyTouches [.now, .cnu, .shadow, .mem] s t := by
  have h' := h.elapse dt
  have heq := State.writeFixed_taken (s := s.elapse dt) (code := fun _ => true) hw h' rfl (b := b) rfl
  generalize w.word + 2 = wa at h h' heq
  have hsh : ((s.elapse dt).written wa b).shadowAt wa = s.shadowAfter wa b := State.written_shadow h'.sound wa b
  rw [State.takeBeat_mask h'.names, show ((s.elapse dt).beatAt wa b).addr = wa from rfl, hsh] at heq
  exact ⟨_, exec_served (fun u => u.writeFixed .node 2 (fun _ => true) b) heq h.quiet.served rfl rfl rfl rfl, rfl,
    State.captured_of_written (s := s.elapse dt) h'.sound h'.range b rfl rfl,
    State.effect_only _ ((((s.elapse dt).written_fr wa b).mono (qs := [.cnu, .shadow, .mem])).comp (State.takeMask_fr _ _))⟩

/-! ### The notice clear (R195) -/

theorem State.takeBeat_clear {x : PBeat} (h : x.id = .noticeClear) : s.takeBeat x = s.takeClear x := by
  unfold State.takeBeat
  rw [h]

/-- What flags 1, 3, 4 and 13 keep is cleared with them, each in its own block (R195). -/
theorem State.clearKept_eq (s : State) (f : BitVec 16) : s.clearKept f =
    (((s.onFlu fun u => if f.getLsbD 1 then { u with changed := false } else u).onSlu fun u =>
      if f.getLsbD 3 then { u with conflicts := 0 } else u).onPtu fun p =>
      { p with latch := if f.getLsbD 4 then none else p.latch }).onCmu fun u =>
      if f.getLsbD 13 then { u with ch := u.ch.map fun c => { c with skipped := false } } else u := by
  have hflu : ∀ (c : Bool) (u : State) (g : Flu → Flu),
      (if c then u.onFlu g else u) = u.onFlu fun x => if c then g x else x := by
    intro c u g
    cases c <;> rfl
  have hslu : ∀ (c : Bool) (u : State) (g : Slu → Slu),
      (if c then u.onSlu g else u) = u.onSlu fun x => if c then g x else x := by
    intro c u g
    cases c <;> rfl
  have hptu : ∀ (c : Bool) (u : State), (if c then u.onPtu fun p => { p with latch := none } else u) =
      u.onPtu fun p => { p with latch := if c then none else p.latch } := by
    intro c u
    cases c <;> rfl
  have hcmu : ∀ (c : Bool) (u : State) (g : Cmu → Cmu),
      (if c then u.onCmu g else u) = u.onCmu fun x => if c then g x else x := by
    intro c u g
    cases c <;> rfl
  unfold State.clearKept
  dsimp only
  rw [hflu, hslu, hptu, hcmu]

/-- The notice clear, at the completion of its write (R36, R195). -/
theorem State.noticeClear_takes (dt : Nat) (hw : s.cfg.only .node = some w) (h : s.CanWrite (w.word + 3) .noticeClear) :
    let f := (mergeBytes 0 b.data b.be).setWidth 16
    ∃ t, exec (.noticeClear dt b) s = .next t ∧ t.cnu.flags = s.cnu.flags &&& ~~~f ∧
      t.flu = (if f.getLsbD 1 = true then { s.flu with changed := false } else s.flu) ∧
      t.slu = (if f.getLsbD 3 = true then { s.slu with conflicts := 0 } else s.slu) ∧
      t.ptu = { s.ptu with latch := if f.getLsbD 4 = true then none else s.ptu.latch, shadow := t.ptu.shadow } ∧
      (∀ i : Fin 4, t.cmu.ch[i] =
        if f.getLsbD 13 = true then { s.cmu.ch[i] with skipped := false } else s.cmu.ch[i]) ∧
      Captured s t (w.word + 3) b ∧ OnlyTouches [.now, .flu, .slu, .cmu, .flags, .ptu, .shadow, .mem] s t := by
  intro f
  have h' := h.elapse dt
  have heq := State.writeFixed_taken (s := s.elapse dt) (code := fun _ => true) hw h' rfl (b := b) rfl
  generalize w.word + 3 = wa at h h' heq
  have hfr := (((s.elapse dt).written_fr wa b).mono (qs := [.flu, .slu, .cmu, .flags, .ptu, .shadow, .mem])).comp
    (State.takeClear_fr _ ((s.elapse dt).beatAt wa b))
  rw [State.takeBeat_clear h'.names] at heq
  unfold State.takeClear at heq hfr
  rw [State.clearKept_eq, show clearedFlags ((s.elapse dt).beatAt wa b) = f from rfl] at heq hfr
  refine ⟨_, exec_served (fun u => u.writeFixed .node 3 (fun _ => true) b) heq h.quiet.served rfl ?_ rfl rfl, rfl, rfl, rfl,
    rfl, fun i => ?_, State.captured_of_written (s := s.elapse dt) h'.sound h'.range b rfl rfl, State.effect_only _ hfr⟩
  · show Flu.position (if f.getLsbD 1 = true then { s.flu with changed := false } else s.flu) = _
    split <;> rfl
  · show (Cmu.ch (if f.getLsbD 13 = true then { s.cmu with ch := s.cmu.ch.map fun c => { c with skipped := false } }
      else s.cmu))[i] = _
    split
    · exact Vector.getElem_map _ i.isLt
    · rfl

/-! ### The screens of a refresh command (R172, R176) -/

/-- The selected outgoing screens are marked. -/
def State.refreshMarked (s : State) (sel : Nat) : State :=
  let s1 := if sel.testBit 0 then s.fullRefresh 0 else s
  if sel.testBit 1 then s1.fullRefresh 1 else s1

/-- The selected incoming screens hand over their requests. -/
def State.refreshRequested (s : State) (sel : Nat) : State :=
  let s1 := if sel.testBit 2 then s.requestRefresh 0 else s
  if sel.testBit 3 then s1.requestRefresh 1 else s1

theorem State.refreshScreens_eq (s : State) (sel : Nat) : s.refreshScreens sel =
    if sel.testBit 0 || sel.testBit 1 then ((s.refreshMarked sel).refreshRequested sel).tryFetch
    else (s.refreshMarked sel).refreshRequested sel := rfl

theorem State.refreshMarked_fr (s : State) (sel : Nat) : Frame [.scu] s (s.refreshMarked sel) :=
  have h0 : Frame [.scu] s (if sel.testBit 0 then s.fullRefresh 0 else s) := .ite (s.fullRefresh_fr 0) (.refl _ _)
  .ite (h0.comp (State.fullRefresh_fr _ 1)) h0

theorem State.refreshRequested_fr (s : State) (sel : Nat) : Frame [.cls] s (s.refreshRequested sel) :=
  have h0 : Frame [.cls] s (if sel.testBit 2 then s.requestRefresh 0 else s) := .ite (s.requestRefresh_fr 0) (.refl _ _)
  .ite (h0.comp (State.requestRefresh_fr _ 1)) h0

/-- A full refresh counts no landed tile and records no command. -/
theorem State.fullRefresh_records (s : State) (i : Fin 2) :
    (s.fullRefresh i).scu.landed = s.scu.landed ∧ (s.fullRefresh i).scu.refresh = s.scu.refresh := by
  unfold State.fullRefresh
  split <;> exact ⟨rfl, rfl⟩

theorem State.refreshMarked_records (s : State) (sel : Nat) :
    (s.refreshMarked sel).scu.landed = s.scu.landed ∧ (s.refreshMarked sel).scu.refresh = s.scu.refresh := by
  unfold State.refreshMarked
  dsimp only
  obtain ⟨hlanded, hrefresh⟩ : (if sel.testBit 0 then s.fullRefresh 0 else s).scu.landed = s.scu.landed ∧
      (if sel.testBit 0 then s.fullRefresh 0 else s).scu.refresh = s.scu.refresh := by
    split
    · exact s.fullRefresh_records 0
    · exact ⟨rfl, rfl⟩
  split
  · rw [(State.fullRefresh_records _ 1).1, (State.fullRefresh_records _ 1).2]
    exact ⟨hlanded, hrefresh⟩
  · exact ⟨hlanded, hrefresh⟩

/-- Every tile of a selected outgoing screen is marked dirty, or its fetch was issued at once (R172, R176). -/
theorem State.refreshScreens_marks {v : Window} {p : ScreenParams} {u : Nat} (hi : sel.testBit i.val = true)
    (hv : s.cfg.screenOut i = some (v, p)) (hu : u < p.tiles) (hlt : u < 8192) :
    (s.refreshScreens sel).TileMarked i u := by
  have hmarked : (s.refreshMarked sel).TileMarked i u := by
    unfold State.refreshMarked
    dsimp only
    match i with
    | 0 =>
      rw [if_pos (show sel.testBit 0 = true from hi)]
      have hfirst := State.fullRefresh_marks hv hu hlt
      split
      · exact State.fullRefresh_marked (by decide) hfirst
      · exact hfirst
    | 1 =>
      rw [if_pos (show sel.testBit 1 = true from hi)]
      refine State.fullRefresh_marks (w := v) (p := p) ?_ hu hlt
      split
      · rw [(State.fullRefresh_fr _ _).keeps_cfg]
        exact hv
      · exact hv
  have hrequested : ((s.refreshMarked sel).refreshRequested sel).TileMarked i u := by
    unfold State.TileMarked at hmarked ⊢
    rw [(State.refreshRequested_fr _ sel).keeps_scu]
    exact hmarked
  rw [State.refreshScreens_eq]
  split
  · exact State.tryFetch_marked hrequested
  · exact hrequested

/-- A selected incoming screen has its refresh request (R176, R178). -/
theorem State.refreshScreens_requests (hi : sel.testBit (2 + i.val) = true) (hin : (s.cfg.screenIn i).isSome = true) :
    i ∈ (s.refreshScreens sel).cls.requests := by
  have hcfg : (s.refreshMarked sel).cfg = s.cfg := (s.refreshMarked_fr sel).keeps_cfg
  have hrequested : i ∈ ((s.refreshMarked sel).refreshRequested sel).cls.requests := by
    rw [← hcfg] at hin
    generalize s.refreshMarked sel = x at hin
    unfold State.refreshRequested
    dsimp only
    match i with
    | 0 =>
      rw [if_pos (show sel.testBit 2 = true from hi)]
      split
      · exact State.requestRefresh_keeps (State.requestRefresh_self hin)
      · exact State.requestRefresh_self hin
    | 1 =>
      rw [if_pos (show sel.testBit 3 = true from hi)]
      refine State.requestRefresh_self ?_
      split
      · rw [(State.requestRefresh_fr _ _).keeps_cfg]
        exact hin
      · exact hin
  rw [State.refreshScreens_eq]
  split
  · rw [(State.tryFetch_fr _).keeps_cls]
    exact hrequested
  · exact hrequested

/-- At a queue with room for both fetches, refreshing screens discards nothing, and records stay. -/
theorem State.refreshScreens_room (h : s.lde.normal.length < 19) (sel : Nat) :
    Frame [.cls, .scu, .lde] s (s.refreshScreens sel) ∧ (s.refreshScreens sel).scu.landed = s.scu.landed ∧
      (s.refreshScreens sel).scu.refresh = s.scu.refresh := by
  have hfr : Frame [.cls, .scu, .lde] s ((s.refreshMarked sel).refreshRequested sel) :=
    ((s.refreshMarked_fr sel).mono).comp (State.refreshRequested_fr _ sel)
  obtain ⟨hlanded, hrefresh⟩ := s.refreshMarked_records sel
  have hscu := (State.refreshRequested_fr (s.refreshMarked sel) sel).keeps_scu
  have hlde : ((s.refreshMarked sel).refreshRequested sel).lde = s.lde :=
    (State.refreshRequested_fr _ sel).keeps_lde.trans (s.refreshMarked_fr sel).keeps_lde
  rw [← hscu] at hlanded hrefresh
  rw [State.refreshScreens_eq]
  split
  · have hfetch := State.tryFetch_room (s := (s.refreshMarked sel).refreshRequested sel) (by rw [hlde]; exact h)
    exact ⟨hfr.comp hfetch.frame, hfetch.landed.trans hlanded, hfetch.refresh.trans hrefresh⟩
  · exact ⟨hfr, hlanded, hrefresh⟩

/-! ### The refresh command (R176) -/

/-- An accepted refresh command selects no unconfigured incoming screen. -/
theorem State.refreshSelects_in (h : s.refreshSelects sel = true) (hi : sel.testBit (2 + i.val) = true) :
    (s.cfg.screenIn i).isSome = true := by
  unfold State.refreshSelects at h
  simp only [Bool.and_eq_true, Bool.or_eq_true, Bool.not_eq_true'] at h
  obtain ⟨⟨⟨⟨-, -⟩, -⟩, hfirst⟩, hsecond⟩ := h
  match i with
  | 0 => exact hfirst.resolve_left (by rw [show sel.testBit 2 = true from hi]; decide)
  | 1 => exact hsecond.resolve_left (by rw [show sel.testBit 3 = true from hi]; decide)

/-- The refresh command of word `word` is recorded as accepted, with flag 5 (R176). -/
def State.refreshAccepted (s : State) (word : Word) : State :=
  (s.onScu fun u => { u with refresh := some (BitVec.ofNat 8 (cmdTag word), 1) }).notify 5

theorem State.refreshAccepted_fr (s : State) (word : Word) : Frame [.scu, .flags] s (s.refreshAccepted word) :=
  ((State.onScu_fr _ _).mono).comp (State.notify_fr _ 5)

/-- A refresh command of code 1 with such selections is accepted, and refreshes them. -/
theorem State.takeRefresh_accepted {word : Word} (hcode : cmdCode word = 1)
    (hsel : s.refreshSelects (cmdOperand word) = true) :
    s.takeRefresh word = (s.refreshAccepted word).refreshScreens (cmdOperand word) := by
  unfold State.takeRefresh
  rw [decide_eq_true hcode, hsel]
  rfl

/-- An accepted refresh command, at the completion of its write (R36, R176). -/
theorem State.refreshCommand_takes {word : Word} (dt : Nat) (hw : s.cfg.only .node = some w)
    (h : s.CanWrite (w.word + 4) .refresh) (hword : s.shadowAfter (w.word + 4) b = word) (hcode : cmdCode word = 1)
    (hsel : s.refreshSelects (cmdOperand word) = true) : ∃ t, exec (.screenRefreshCommand dt b) s = .next t ∧
      t.scu.refresh = some (BitVec.ofNat 8 (cmdTag word), 1) ∧ t.cnu.flags = withFlags s.cnu.flags [5] ∧
      (∀ (i : Fin 2) (v : Window) (p : ScreenParams) (u : Nat), (cmdOperand word).testBit i.val = true →
        s.cfg.screenOut i = some (v, p) → u < p.tiles → u < 8192 → t.TileMarked i u) ∧
      (∀ i : Fin 2, (cmdOperand word).testBit (2 + i.val) = true → i ∈ t.cls.requests) ∧
      t.scu.landed = s.scu.landed ∧ Captured s t (w.word + 4) b ∧
      OnlyTouches [.now, .cls, .scu, .flags, .shadow, .lde, .mem] s t := by
  have h' := h.elapse dt
  obtain ⟨-, -, qn, qc, -⟩ := h.quiet
  have heq := State.writeFixed_taken (s := s.elapse dt) (code := definedCode) hw h' rfl (b := b)
    (by rw [show (s.elapse dt).shadowAfter (w.word + 4) b = word from hword]; exact decide_eq_true hcode)
  generalize w.word + 4 = wa at h h' hword heq
  have hsh : ((s.elapse dt).written wa b).shadowAt wa = word := (State.written_shadow h'.sound wa b).trans hword
  rw [State.takeBeat_refresh h'.names, show ((s.elapse dt).beatAt wa b).addr = wa from rfl, hsh,
    State.takeRefresh_accepted (s := (s.elapse dt).written wa b) hcode hsel] at heq
  obtain ⟨hfr, hlanded, hrefresh⟩ := State.refreshScreens_room (s := ((s.elapse dt).written wa b).refreshAccepted word)
    (show s.lde.normal.length < 19 by rw [qn]; decide) (cmdOperand word)
  have hall := ((((s.elapse dt).written_fr wa b).mono (qs := [.cls, .scu, .flags, .shadow, .lde, .mem])).comp
    (State.refreshAccepted_fr _ word)).comp hfr
  obtain ⟨hend, -⟩ := State.settle_idle (s0 := s.elapse dt) hall.keeps_tru (congrArg Flu.position hall.keeps_flu)
    ((congrArg Ptu.cycle hfr.keeps_ptu).trans qc)
  refine ⟨_, exec_event (fun u => u.writeFixed .node 4 definedCode b) heq, ?_, ?_, fun i v p u hi hv hu hlt => ?_,
    fun i hi => ?_, ?_, ?_, State.effect_only _ (hall.comp hend)⟩
  · rw [hend.keeps_scu]
    exact hrefresh
  · rw [hend.keeps_flags, hfr.keeps_flags]
    rfl
  · unfold State.TileMarked
    rw [hend.keeps_scu]
    exact State.refreshScreens_marks (s := ((s.elapse dt).written wa b).refreshAccepted word) hi hv hu hlt
  · rw [hend.keeps_cls]
    exact State.refreshScreens_requests (s := ((s.elapse dt).written wa b).refreshAccepted word) hi
      (State.refreshSelects_in hsel hi)
  · rw [hend.keeps_scu]
    exact hlanded
  · exact State.captured_of_written (s := s.elapse dt) h'.sound h'.range b (hend.keeps_mem.trans hfr.keeps_mem)
      (hend.keeps_shadow.trans hfr.keeps_shadow)

end

/-- Settles O51: the three commands one by one. -/
theorem nodeCommandsTakeEffect : Obligations.NodeCommandsTakeEffect := fun dt _ _ _ hw =>
  ⟨fun h => State.noticeMask_takes dt hw h, fun h => State.noticeClear_takes dt hw h,
    fun h hcode hsel => State.refreshCommand_takes dt hw h rfl hcode hsel⟩

end Sys2Proof.Machine

/-! Proofs, section 62. The flash header (O18; R188, R191): its checks in their order, and what the reading of it leaves. -/

namespace Sys2Proof.Machine

set_option Elab.async false

section
variable {s : State} {bs : List Byte}

/-- A load that waits for its header keeps it, and goes on or ends by its checks in their order. -/
theorem State.readHeader_loading (hs : s.cnu.status = .loading) (hf : s.cnu.flash = none) : s.readHeader bs =
    let h := parseFlashHeader bs
    let taken := s.onCnu fun c => { c with flash := some h }
    if h.ident ≠ 0x53580240#32 then taken.rejectConfig .noImage
    else if h.length.toNat < 64 ∨ 32768 < h.length.toNat then taken.rejectConfig .header
    else taken :=
  if_pos ⟨hs, hf⟩

/-- The block behind the header: the header itself, and by its first failing check the reason and flag 14. -/
theorem State.readHeader_cnu (hs : s.cnu.status = .loading) (hf : s.cnu.flash = none) :
    let h := parseFlashHeader bs
    let bad := h.ident ≠ 0x53580240#32
    let long := h.length.toNat < 64 ∨ 32768 < h.length.toNat
    (s.readHeader bs).cnu.flash = some h ∧
      (s.readHeader bs).cnu.status = (if bad then .noImage else if long then .header else .loading) ∧
      (s.readHeader bs).cnu.flags = if bad ∨ long then withFlags s.cnu.flags [14] else s.cnu.flags := by
  intro h bad long
  rw [State.readHeader_loading hs hf]
  by_cases hbad : bad
  · rw [if_pos hbad, if_pos hbad, if_pos (.inl hbad)]
    exact ⟨rfl, rfl, rfl⟩
  · rw [if_neg hbad, if_neg hbad]
    by_cases hlong : long
    · rw [if_pos hlong, if_pos hlong, if_pos (.inr hlong)]
      exact ⟨rfl, rfl, rfl⟩
    · rw [if_neg hlong, if_neg hlong, if_neg (not_or.2 ⟨hbad, hlong⟩)]
      exact ⟨rfl, hs, rfl⟩

/-- A header of its twelve bytes is read, and nothing follows: it asks nothing of the landing queue and reports nothing. -/
theorem exec_flashHeader (dt : Nat) (hs : s.Served) (hl : bs.length = 12) :
    exec (.flashHeaderRead dt bs) s = .next ((s.elapse dt).readHeader bs) := by
  have wf : (Instr.flashHeaderRead dt bs).wf = true := decide_eq_true hl
  have hfr := (s.elapse dt).readHeader_fr bs
  rw [exec_checked (fun u => u.readHeader bs) wf rfl,
    State.settle_id (hs.elapse dt) hfr.keeps_tru (congrArg Flu.position hfr.keeps_flu) hfr.keeps_lde
      (congrArg Ptu.cycle hfr.keeps_ptu)]

end

/-- Settles O18: the checks are `State.readHeader_cnu`'s, the frame `State.readHeader_fr`'s. -/
theorem flashHeaderIsJudgedInOrder : Obligations.FlashHeaderIsJudgedInOrder := by
  intro dt bytes s hs hl hst hf
  have hfr := (s.elapse dt).readHeader_fr bytes
  obtain ⟨hflash, hstatus, hflags⟩ := State.readHeader_cnu (s := s.elapse dt) (bs := bytes) hst hf
  exact ⟨_, exec_flashHeader dt hs hl, hfr.keeps_now, hflash, ⟨hstatus, hflags⟩, State.effect_only _ hfr⟩

end Sys2Proof.Machine

/-! Proofs, section 63. The sizes of what commands bring (O3; log 7). -/

namespace Sys2Proof.Laws.OperandBounds

/-- A command that brings nothing with a size is within its format. -/
theorem of_sizes_eq_nil {i : Instr} (h : i.sizes = []) : Statement i := by
  intro _ p hp
  rw [h] at hp
  exact absurd hp List.not_mem_nil

/-- Every command is within its format: those that bring blocks, bytes or beats one by one, and the others bring nothing that
has a size. -/
theorem statement (i : Instr) : Statement i := by
  cases i with
  | flashHeaderRead dt bytes => exact flashHeaderRead dt bytes
  | flashBodyRead dt bytes => exact flashBodyRead dt bytes
  | outRunHeader dt b => exact outRunHeader dt b
  | entryIntoJoined dt b => exact entryIntoJoined dt b
  | outRunTripBlock dt b => exact outRunTripBlock dt b
  | insertionDecision dt tags slots => exact insertionDecision dt tags slots
  | cellDecision dt b => exact cellDecision dt b
  | returnHeader dt src => exact returnHeader dt src
  | returnTripBlock dt src => exact returnTripBlock dt src
  | passageToRun dt b => exact passageToRun dt b
  | slotReception dt n src => exact slotReception dt n src
  | slotAreaEnd dt src => exact slotAreaEnd dt src
  | cellDelivery dt src => exact cellDelivery dt src
  | nodeMissing dt b => exact nodeMissing dt b
  | pPortCycle dt write addr beats => exact pPortCycle dt write addr beats
  | _ => exact of_sizes_eq_nil rfl

end Sys2Proof.Laws.OperandBounds

namespace Sys2Proof.Machine

/-- Settles O3: `Laws.OperandBounds.statement`. -/
theorem wellFormedOperandsFitTheirFormats : Obligations.WellFormedOperandsFitTheirFormats := Laws.OperandBounds.statement

end Sys2Proof.Machine

/-! Proofs, section 64. Every command completes or is refused by name, and none touches the queue (O2; log 7). -/

namespace Sys2Proof.Machine

set_option Elab.async false

/-- The outcome of a command as its operands decide it: completion, or the refusal of an ill-formed one. -/
def Decides (wf : Bool) (o : Host.Outcome State Fault Refusal) : Prop :=
  (wf = true → ∃ t, o = .next t) ∧ (wf = false → o = .refused .illFormed)

/-- A row that has no operands to check completes. -/
theorem Decides.next (t : State) : Decides true (.next t) := ⟨fun _ => ⟨t, rfl⟩, nofun⟩

/-- A row that checks its operands completes with them or refuses them. -/
theorem Decides.ite (wf : Bool) (t : State) : Decides wf (if wf then .next t else .refused .illFormed) := by
  cases wf with
  | true => exact .next t
  | false => exact ⟨nofun, fun _ => rfl⟩

/-- Whether a command is well formed decides its outcome: the rows that carry symbols, bytes or beats check them, and every
other row completes. -/
theorem exec_decides (c : Instr) (s : State) : Decides c.wf (exec c s) := by
  cases c with
  | flashHeaderRead | flashBodyRead | outRunHeader | entryIntoJoined | outRunTripBlock | insertionDecision | cellDecision
  | returnHeader | returnTripBlock | passageToRun | slotReception | slotAreaEnd | cellDelivery | nodeMissing | pPortCycle =>
    exact .ite _ _
  | undefinedCommandCode dt site => cases site <;> exact .next _
  | _ => exact .next _

/-- The queue of commands is no part of what a command can change. -/
theorem exec_pending {s t : State} (c : Instr) (h : exec c s = .next t) : t.pending = s.pending := by
  refine (exec_fr c h).only .pending ?_
  cases hc : carriesBurst c <;> simp [commandParts, hc, burstParts, nodeParts]

/-- Settles O2: the outcome is `exec_decides`'s, the queue `exec_pending`'s. -/
theorem everyWellFormedCommandCompletes : Obligations.EveryWellFormedCommandCompletes := by
  intro c s
  obtain ⟨completes, refuses⟩ := exec_decides c s
  refine ⟨fun hwf => ?_, refuses⟩
  obtain ⟨t, ht⟩ := completes hwf
  exact ⟨t, ht, exec_pending c ht⟩

end Sys2Proof.Machine
